-- ==== Sys2Proof/Word.lean ====
section
/-! DEFINITION. The word types of the Calgitum AZ960 and their plainest arithmetic (spec/00_scope.md, R4, R11, R12). -/

namespace Sys2Proof

/-- One byte of any memory (R4). -/
abbrev Byte := BitVec 8
/-- A 64-bit register, address or CSR (R57). -/
abbrev Word := BitVec 64
/-- One 32-bit syllable of a bundle (R16). -/
abbrev Syl := BitVec 32
/-- One 512-byte vector (R154); byte `i` is bits `8i+7..8i`. -/
abbrev VecVal := BitVec 4096
/-- One predicate or byte mask of 512 bits (R192, R261). -/
abbrev PredVal := BitVec 512

/-- The slot of a bundle in which a syllable stands (R16). -/
inductive Slot where
  | c | l | w | s
  deriving DecidableEq, Repr, Inhabited

end Sys2Proof
end

