-- ==== Sys2Proof/Payload.lean ====
section
/-! DEFINITION. What the events of the opcode table carry with them: who wrote a register from outside, and what travels in a fabric flit (spec/04, spec/17, spec/19). -/

namespace Sys2Proof

/-- Who makes a write to a BAR0 register or a doorbell (R112). -/
inductive Writer where
  | firmware | host | firefly
  deriving DecidableEq, Repr, Inhabited

/-- The stream of a thread that waits for a remote answer, and the number the sender gave the request. -/
structure Origin where
  tile   : BitVec 8
  thread : BitVec 2
  stream : BitVec 2
  id     : Nat
  deriving DecidableEq, Repr, Inhabited

/-- The target of a remote access as its window entry names it (R216, R217): `addr` is BASE + offset. -/
structure RemoteReq where
  key    : BitVec 32
  kind   : BitVec 4
  target : BitVec 8
  addr   : Word
  deriving DecidableEq, Repr, Inhabited

/-- A contribution or a result travelling a reduction tree (R396, R399, R444, R446). -/
structure Contribution where
  slot    : BitVec 8
  epoch   : BitVec 16
  key     : BitVec 32
  data    : List Byte
  nanSeen : Bool
  isPart  : Bool
  late    : Bool
  failed  : Bool
  deriving DecidableEq, Repr, Inhabited

/-- A parity delta of one atom of a member's protected image (R420, R430). -/
structure Delta where
  member : BitVec 4
  offset : Nat
  round  : Word
  delta  : BitVec 256
  deriving DecidableEq, Repr, Inhabited

/-- A heartbeat flit (R428). -/
structure Heartbeat where
  entry   : BitVec 5
  role    : BitVec 2
  group   : BitVec 16
  round   : Word
  state   : BitVec 3
  cfgHash : Word
  deriving DecidableEq, Repr, Inhabited

/-- A survivor's report to the coordinator, or to a module that joins as a spare or replacement (R433, R436): the entries it holds for lost, and those of them that no
spare or replacement has taken. -/
structure Report where
  entry     : BitVec 5
  round     : Word
  state     : BitVec 3
  committed : Option Word
  lost      : BitVec 20
  absent    : BitVec 20
  deriving DecidableEq, Repr, Inhabited

/-- The payload of an open flit (R382, R386 to R393, R396, R428, R429, R433, R212). DESIGN CHOICE (log entry 67), unsafe. -/
inductive Flit where
  /-- a posted remote write: the masked bytes of one line (R386) -/
  | posted (req : RemoteReq) (mask : BitVec 64) (data : BitVec 512) (who : Origin)
  /-- its acknowledgement: 0 done, 1 NOKEY, 2 GATED, 3 TARGET_RESET, 5 RANGE, 6 TAGHIT (R388) -/
  | postedAck (who : Origin) (code : BitVec 4)
  /-- a remote load of `len` bytes (R389) -/
  | loadReq (req : RemoteReq) (len : BitVec 10) (lacks : BitVec 512) (who : Origin)
  /-- its reply: the bytes, or a refusal; `poison` when an atom read is poisoned (R389) -/
  | loadReply (who : Origin) (ok poison : Bool) (data : List Byte)
  /-- a remote atomic (R255): `op` the private opcode, `nat` and `dbl` its flags, `v` and `cmp` its operands -/
  | atomicReq (req : RemoteReq) (op : BitVec 6) (nat dbl : Bool) (v cmp : Word) (who : Origin)
  /-- its reply: status 0 done, 1 refused, 2 poisoned; the old value or pair -/
  | atomicReply (who : Origin) (status : BitVec 2) (lo hi : Word)
  /-- one sector's bytes of a CPREM, with the places of those that carry poison (R224, R228, R231) -/
  | sector (req : RemoteReq) (data : List Byte) (poison : List Nat) (signal : Option Nat) (who : Origin) (sector : Nat)
  /-- its acknowledgement: 0 done, 1 refused, 2 gated, 3 target reset, 4 done with TAGHIT, 5 done with PPOISON; `sig` the remote barrier's answer -/
  | sectorAck (who : Origin) (sector : Nat) (code sig : BitVec 4) (off : Word)
  /-- a launch packet (R393) -/
  | launch (q : BitVec 10) (key senderKey : BitVec 32) (packet : List Byte) (who : Origin)
  /-- the peer's reply to a launch (R393) -/
  | launchReply (who : Origin) (code : BitVec 4) (seq : BitVec 48)
  /-- a contribution going up a reduction tree, or a result coming down (R396) -/
  | contribution (c : Contribution)
  | result (c : Contribution)
  /-- a parity delta and a holder's acknowledgement of it (R420, R430) -/
  | delta (d : Delta)
  | deltaAck (holder : BitVec 2) (d : Delta)
  /-- a member's vote and the root's decision (R429) -/
  | vote (member : BitVec 4) (round : Word) (ready : Bool) (image : Word)
  | decision (round : Word) (commit : Bool) (frame : BitVec 48)
  | heartbeat (h : Heartbeat)
  | lost (entry : BitVec 5)
  | report (r : Report)
  /-- the coordinator's resolution: `commitRound`, where a survivor committed one, applied where it is not yet, then round `next` opens (R433) -/
  | resolution (commitRound : Option Word) (next : Word) (frame : BitVec 48)
  /-- a request for one atom's reconstruction and the decode contribution that answers it (R212) -/
  | reconstruct (target : BitVec 5) (atom : Nat)
  | reconstructed (entry : BitVec 5) (atom : Nat) (data : Option (BitVec 256))
  /-- a request to a rebuild source for one recast unit (R438) and the bytes it streams -/
  | unitReq (unit : BitVec 23)
  /-- the streams of the sources in `entries`, their XOR formed on the way (R437) -/
  | unitData (entries : BitVec 20) (unit : BitVec 23) (data : List Byte)
  /-- a rebuild source says that it streams, or that it stops (R437) -/
  | source (entry : BitVec 5) (on : Bool)
  /-- the target's word that every member source is ready, so that the holder sources may read (R438) -/
  | unitGo (unit : BitVec 23)
  /-- the target's release of its sources after a unit, which it has rebuilt or given up (R438, R440) -/
  | unitDone (unit : BitVec 23) (built : Bool)
  /-- a spare or replacement holder says that it is rebuilt whole (R436, R440) -/
  | rebuilt (entry : BitVec 5)
  /-- the round of a member's selected shard for a restore, none without one, and whether its digest is right (R443) -/
  | selection (member : BitVec 4) (round : Option Nat) (good : Bool)
  /-- a member says to a holder that a round has been restored (R443) -/
  | restored (member : BitVec 4) (round : Word)
  /-- a protected region's entry sent to a holder with the deltas of a round (R426); with no round, an entry that has been in force since an earlier one -/
  | region (member : BitVec 4) (index : BitVec 6) (base spec : Word) (round : Option Word) (removed : Bool)
  /-- a module's share of a phase of a group's or a domain's instance (R259): the level, the instance, the context's key, whether it is the shadow set's instance, the
  phase, the tiles that are through, those of ended nodes among them, and whether a thread of the module has arrived (DESIGN CHOICE, log entry 131) -/
  | phase (level : BitVec 3) (inst key : BitVec 32) (twin : Bool) (count tiles gone : Nat) (live : Bool)
  deriving DecidableEq, Repr, Inhabited

/-- What an event of the opcode table acts on (the rows without an encoding). `none` is for an event of the acting tile and thread. -/
inductive Input where
  | none
  /-- a cluster, 4 · die + cluster (R90) -/
  | cluster (cl : BitVec 3)
  /-- a cluster and, for the refused codes, the code minus 8 (R90): 1 to 7 for codes 9 to 15 -/
  | clusterCmd (cl bad : BitVec 3)
  /-- a command of the acting thread and a sector of it (R224) -/
  | sector (cmd sector : Nat)
  /-- a remote barrier signal: the tile in `req.target`, the barrier's scratchpad offset in `req.addr`, and who waits for its fate (R235) -/
  | signal (req : RemoteReq) (who : Option Origin)
  | die (die : BitVec 1)
  /-- a BAR0 write: its size in bytes is 8 for the accepted form (R109) -/
  | bar0 (who : Writer) (off : BitVec 24) (size : BitVec 4) (val : Word)
  | write (who : Writer) (val : Word)
  | writer (who : Writer)
  | offset (off : BitVec 24)
  | offVal (off : BitVec 24) (val : Word)
  | rail (rail : BitVec 5)
  /-- firmware's request to raise the fused minimum SVN (R121) -/
  | svn (svn : BitVec 32)
  /-- a module reset that a PCIe Function Level Reset asks for (R118) -/
  | flr
  /-- the host resizes BAR2: its size in GiB is the power of two of this exponent, at most 10 (R126) -/
  | bar2Size (log : BitVec 4)
  /-- the host reads bytes through BAR2 (R126) -/
  | bar2Read (off : BitVec 40) (len : BitVec 13)
  | nonce (nonce : BitVec 256)
  | watts (watts : BitVec 12)
  | celsius (celsius : BitVec 8)
  | sensors (mask : BitVec 4)
  | bar2 (off : BitVec 40) (data : List Byte) (poisoned : Bool)
  | doorbell (q : BitVec 10) (who : Writer)
  | packet (src : BitVec 20) (q : BitVec 10) (key senderKey : BitVec 32) (packet : List Byte) (who : Origin)
  | origin (who : Origin)
  | node (id : Nat)
  | ctx (ctx : BitVec 6)
  | step (ctx : BitVec 6) (stream : BitVec 2) (rank : BitVec 19)
  | tlb (ctx : BitVec 6) (all : Bool) (va : BitVec 41)
  | response (tag : BitVec 32) (fail : Bool)
  | atomData (atom : Nat) (data : BitVec 256)
  | atom (atom : Nat)
  /-- a visit of planishing: the atom, and whether it is found uncorrectable (R213) -/
  | scrub (atom : Nat) (found : BitVec 2)
  | sram (tile : BitVec 8) (target : BitVec 2) (bank : BitVec 9) (unit : Nat) (hard : Bool)
  | posted (src : BitVec 20) (req : RemoteReq) (mask : BitVec 64) (data : BitVec 512) (who : Origin)
  | ack (who : Origin) (code : BitVec 4)
  | load (src : BitVec 20) (req : RemoteReq) (len : BitVec 10) (lacks : BitVec 512) (who : Origin)
  | flit (port : BitVec 5) (src dst : BitVec 20) (hops : BitVec 7) (flit : Flit)
  /-- an error of the link: a flit whose CRC is bad, or (`again`) a flit that this port sends again (R457) -/
  | linkError (port : BitVec 5) (again : Bool)
  | port (port : BitVec 5)
  | lanes (port : BitVec 5) (lanes : BitVec 8)
  | margin (port : BitVec 5) (errs bits : BitVec 32)
  | word (val : Word)
  | contrib (port : BitVec 5) (c : Contribution)
  | result (c : Contribution)
  | rslot (slot : BitVec 8)
  | delta (src : BitVec 20) (d : Delta)
  | deltaAck (holder : BitVec 2) (d : Delta)
  | vote (member : BitVec 4) (round : Word) (ready : Bool) (image : Word)
  | decision (round : Word) (commit : Bool) (frame : BitVec 48)
  | heartbeat (src : BitVec 20) (h : Heartbeat)
  | entry (entry : BitVec 5)
  | report (r : Report)
  /-- one recast unit and the bytes that each source streamed for it (R438) -/
  | unit (unit : BitVec 23) (parts : List (List Byte))
  /-- the round to restore and the selections that members sent: member index, round (none without a shard) and whether the digest is right (R443) -/
  | restore (round : BitVec 60) (peers : List (Nat × Option Nat × Bool))
  | health (tile : BitVec 8) (target kind : BitVec 2) (index row : BitVec 9)
  /-- the outcome of an ASSAY: its target and the units found weak or faulty, each its kind, index, row and whether it is faulty (R451 to R453) -/
  | assayed (tile : BitVec 8) (target : BitVec 2) (found : List (Nat × Nat × Nat × Bool))
  | tile (tile : BitVec 8)
  | block (tile : BitVec 8) (off : BitVec 16) (len : BitVec 11)
  | vmarg (d : BitVec 5) (val : Word)
  | domain (d : BitVec 5)
  /-- the host's answer for a page of a HOST leaf (R365) -/
  | page (page : Word) (ok : Bool)
  | reconstruct (src : BitVec 20) (target : BitVec 5) (atom : Nat)
  deriving DecidableEq, Repr, Inhabited

end Sys2Proof
end

