-- ==== Sys2Proof/Syntax.lean ====
section
/-! DEFINITION. The instruction set: one constructor for each of the 337 rows of spec/opcode_table.json. A row with an encoding carries the fields of its encoding, in the table's order; a row without one is an event of the machine or its surroundings, and what it acts on is the Input that the agenda carries beside it. -/

namespace Sys2Proof

/-- An instruction or event of the opcode table. Each constructor's comment gives the table's mnemonic and the rule that describes it. -/
inductive Instr where
  /-- NOP, R17. -/
  | nop
  /-- ADD, R61. -/
  | add (d : BitVec 5) (a : BitVec 5) (b : BitVec 5)
  /-- SUB, R61. -/
  | sub (d : BitVec 5) (a : BitVec 5) (b : BitVec 5)
  /-- AND, R61. -/
  | andReg (d : BitVec 5) (a : BitVec 5) (b : BitVec 5)
  /-- OR, R61. -/
  | orReg (d : BitVec 5) (a : BitVec 5) (b : BitVec 5)
  /-- XOR, R61. -/
  | xorReg (d : BitVec 5) (a : BitVec 5) (b : BitVec 5)
  /-- SHL, R61. -/
  | shl (d : BitVec 5) (a : BitVec 5) (b : BitVec 5)
  /-- SHR, R61. -/
  | shr (d : BitVec 5) (a : BitVec 5) (b : BitVec 5)
  /-- SAR, R61. -/
  | sar (d : BitVec 5) (a : BitVec 5) (b : BitVec 5)
  /-- SLT, R61. -/
  | slt (d : BitVec 5) (a : BitVec 5) (b : BitVec 5)
  /-- SLTN, R61. -/
  | sltn (d : BitVec 5) (a : BitVec 5) (b : BitVec 5)
  /-- MIN, R61. -/
  | minReg (d : BitVec 5) (a : BitVec 5) (b : BitVec 5)
  /-- MAX, R61. -/
  | maxReg (d : BitVec 5) (a : BitVec 5) (b : BitVec 5)
  /-- MINN, R61. -/
  | minn (d : BitVec 5) (a : BitVec 5) (b : BitVec 5)
  /-- MAXN, R61. -/
  | maxn (d : BitVec 5) (a : BitVec 5) (b : BitVec 5)
  /-- ANDN, R61. -/
  | andn (d : BitVec 5) (a : BitVec 5) (b : BitVec 5)
  /-- MUL, R62. -/
  | mul (d : BitVec 5) (a : BitVec 5) (b : BitVec 5)
  /-- MULH, R62. -/
  | mulh (d : BitVec 5) (a : BitVec 5) (b : BitVec 5)
  /-- MULHN, R62. -/
  | mulhn (d : BitVec 5) (a : BitVec 5) (b : BitVec 5)
  /-- DIV, R62. -/
  | div (d : BitVec 5) (a : BitVec 5) (b : BitVec 5)
  /-- DIVN, R62. -/
  | divn (d : BitVec 5) (a : BitVec 5) (b : BitVec 5)
  /-- REM, R62. -/
  | rem (d : BitVec 5) (a : BitVec 5) (b : BitVec 5)
  /-- REMN, R62. -/
  | remn (d : BitVec 5) (a : BitVec 5) (b : BitVec 5)
  /-- CLZ, R63. -/
  | clz (d : BitVec 5) (a : BitVec 5)
  /-- CTZ, R63. -/
  | ctz (d : BitVec 5) (a : BitVec 5)
  /-- POPC, R63. -/
  | popc (d : BitVec 5) (a : BitVec 5)
  /-- BREV, R63. -/
  | brev (d : BitVec 5) (a : BitVec 5)
  /-- BEXT, R63. -/
  | bext (d : BitVec 5) (a : BitVec 5) (p : BitVec 6) (l : BitVec 4)
  /-- ADDI, R64. -/
  | addi (d : BitVec 5) (a : BitVec 5) (i : BitVec 15)
  /-- ANDI, R64. -/
  | andi (d : BitVec 5) (a : BitVec 5) (i : BitVec 15)
  /-- ORI, R64. -/
  | ori (d : BitVec 5) (a : BitVec 5) (i : BitVec 15)
  /-- XORI, R64. -/
  | xori (d : BitVec 5) (a : BitVec 5) (i : BitVec 15)
  /-- SHLI, R64. -/
  | shli (d : BitVec 5) (a : BitVec 5) (s : BitVec 6)
  /-- SHRI, R64. -/
  | shri (d : BitVec 5) (a : BitVec 5) (s : BitVec 6)
  /-- SARI, R64. -/
  | sari (d : BitVec 5) (a : BitVec 5) (s : BitVec 6)
  /-- SLTI, R64. -/
  | slti (d : BitVec 5) (a : BitVec 5) (i : BitVec 15)
  /-- SLTIN, R64. -/
  | sltin (d : BitVec 5) (a : BitVec 5) (i : BitVec 15)
  /-- LIH, R65. -/
  | lih (d : BitVec 5) (i : BitVec 20)
  /-- LIX, R65. -/
  | lix (d : BitVec 5) (i : BitVec 20)
  /-- BEQ, R66. -/
  | beq (a : BitVec 5) (b : BitVec 5) (o : BitVec 15)
  /-- BNE, R66. -/
  | bne (a : BitVec 5) (b : BitVec 5) (o : BitVec 15)
  /-- BLT, R66. -/
  | blt (a : BitVec 5) (b : BitVec 5) (o : BitVec 15)
  /-- BGE, R66. -/
  | bge (a : BitVec 5) (b : BitVec 5) (o : BitVec 15)
  /-- BLTN, R66. -/
  | bltn (a : BitVec 5) (b : BitVec 5) (o : BitVec 15)
  /-- BGEN, R66. -/
  | bgen (a : BitVec 5) (b : BitVec 5) (o : BitVec 15)
  /-- JAL, R67. -/
  | jal (d : BitVec 5) (o : BitVec 20)
  /-- JALR, R67. -/
  | jalr (d : BitVec 5) (a : BitVec 5) (i : BitVec 15)
  /-- LOOP, R71. -/
  | loopReg (a : BitVec 5) (n : BitVec 10)
  /-- LOOPI, R71. -/
  | loopImm (c : BitVec 15) (n : BitVec 10)
  /-- LEXIT, R73. -/
  | lexit
  /-- LDB, R76. -/
  | ldb (d : BitVec 5) (a : BitVec 5) (i : BitVec 15)
  /-- LDBZ, R76. -/
  | ldbz (d : BitVec 5) (a : BitVec 5) (i : BitVec 15)
  /-- LDH, R76. -/
  | ldh (d : BitVec 5) (a : BitVec 5) (i : BitVec 15)
  /-- LDHZ, R76. -/
  | ldhz (d : BitVec 5) (a : BitVec 5) (i : BitVec 15)
  /-- LDW, R76. -/
  | ldw (d : BitVec 5) (a : BitVec 5) (i : BitVec 15)
  /-- LDWZ, R76. -/
  | ldwz (d : BitVec 5) (a : BitVec 5) (i : BitVec 15)
  /-- LDD, R76. -/
  | ldd (d : BitVec 5) (a : BitVec 5) (i : BitVec 15)
  /-- STB, R76. -/
  | stb (a : BitVec 5) (b : BitVec 5) (o : BitVec 15)
  /-- STH, R76. -/
  | sth (a : BitVec 5) (b : BitVec 5) (o : BitVec 15)
  /-- STW, R76. -/
  | stw (a : BitVec 5) (b : BitVec 5) (o : BitVec 15)
  /-- STD, R76. -/
  | std (a : BitVec 5) (b : BitVec 5) (o : BitVec 15)
  /-- QPUSH, R81. -/
  | qpush (a : BitVec 5)
  /-- QPOP, R81. -/
  | qpop (d : BitVec 5)
  /-- CSRR, R83. -/
  | csrr (d : BitVec 5) (c : BitVec 12)
  /-- CSRW, R83. -/
  | csrw (d : BitVec 5) (a : BitVec 5) (c : BitVec 12)
  /-- CSRS, R83. -/
  | csrs (d : BitVec 5) (a : BitVec 5) (c : BitVec 12)
  /-- CSRC, R83. -/
  | csrc (d : BitVec 5) (a : BitVec 5) (c : BitVec 12)
  /-- TRAP, R87. -/
  | userTrap (c : BitVec 15)
  /-- TRET, R362. -/
  | tret
  /-- UIRET, R87. -/
  | uiret
  /-- WFI, R87. -/
  | wfi
  /-- BREAK, R87. -/
  | breakpt (c : BitVec 15)
  /-- EXIT, R87. -/
  | exitThread
  /-- AMADD, R254. -/
  | amadd (o : BitVec 2) (s : BitVec 3) (d : BitVec 5) (a : BitVec 5) (b : BitVec 5) (z : BitVec 2) (r : BitVec 1)
  /-- AMMIN, R254. -/
  | ammin (o : BitVec 2) (s : BitVec 3) (d : BitVec 5) (a : BitVec 5) (b : BitVec 5) (z : BitVec 2) (r : BitVec 1)
  /-- AMMINN, R254. -/
  | amminn (o : BitVec 2) (s : BitVec 3) (d : BitVec 5) (a : BitVec 5) (b : BitVec 5) (z : BitVec 2) (r : BitVec 1)
  /-- AMMAX, R254. -/
  | ammax (o : BitVec 2) (s : BitVec 3) (d : BitVec 5) (a : BitVec 5) (b : BitVec 5) (z : BitVec 2) (r : BitVec 1)
  /-- AMMAXN, R254. -/
  | ammaxn (o : BitVec 2) (s : BitVec 3) (d : BitVec 5) (a : BitVec 5) (b : BitVec 5) (z : BitVec 2) (r : BitVec 1)
  /-- AMAND, R254. -/
  | amand (o : BitVec 2) (s : BitVec 3) (d : BitVec 5) (a : BitVec 5) (b : BitVec 5) (z : BitVec 2) (r : BitVec 1)
  /-- AMOR, R254. -/
  | amor (o : BitVec 2) (s : BitVec 3) (d : BitVec 5) (a : BitVec 5) (b : BitVec 5) (z : BitVec 2) (r : BitVec 1)
  /-- AMXOR, R254. -/
  | amxor (o : BitVec 2) (s : BitVec 3) (d : BitVec 5) (a : BitVec 5) (b : BitVec 5) (z : BitVec 2) (r : BitVec 1)
  /-- AMSWAP, R254. -/
  | amswap (o : BitVec 2) (s : BitVec 3) (d : BitVec 5) (a : BitVec 5) (b : BitVec 5) (z : BitVec 2) (r : BitVec 1)
  /-- AMCAS, R254. -/
  | amcas (o : BitVec 2) (s : BitVec 3) (d : BitVec 5) (a : BitVec 5) (b : BitVec 5) (z : BitVec 2) (r : BitVec 1)
  /-- AMFADDC, R152. -/
  | amfaddc (o : BitVec 2) (s : BitVec 3) (d : BitVec 5) (a : BitVec 5) (b : BitVec 5) (z : BitVec 2) (r : BitVec 1)
  /-- AMLDC, R254. -/
  | amldc (o : BitVec 2) (s : BitVec 3) (d : BitVec 5) (a : BitVec 5) (b : BitVec 5) (z : BitVec 2) (r : BitVec 1)
  /-- AMLD, R254. -/
  | amld (o : BitVec 2) (s : BitVec 3) (d : BitVec 5) (a : BitVec 5) (b : BitVec 5) (z : BitVec 2) (r : BitVec 1)
  /-- AMST, R254. -/
  | amst (o : BitVec 2) (s : BitVec 3) (a : BitVec 5) (b : BitVec 5) (z : BitVec 2) (r : BitVec 1)
  /-- TBINIT, R248. -/
  | tbinit (d : BitVec 5) (a : BitVec 5) (b : BitVec 5) (n : BitVec 1)
  /-- TBJOIN, R248. -/
  | tbjoin (d : BitVec 5) (a : BitVec 5)
  /-- TBARRIVE, R248. -/
  | tbarrive (d : BitVec 5) (a : BitVec 5) (b : BitVec 5)
  /-- TBEXPECT, R248. -/
  | tbexpect (a : BitVec 5) (b : BitVec 5)
  /-- TBWAIT, R248. -/
  | tbwait (d : BitVec 5) (a : BitVec 5) (b : BitVec 5)
  /-- TBDROP, R250. -/
  | tbdrop (a : BitVec 5)
  /-- TBPOLL, R248. -/
  | tbpoll (d : BitVec 5) (a : BitVec 5) (h : BitVec 1)
  /-- FENCE, R257. -/
  | fence (o : BitVec 2) (s : BitVec 3)
  /-- XFENCE, R258. -/
  | xfence (o : BitVec 2) (s : BitVec 3) (e : BitVec 3) (l : BitVec 3)
  /-- PHASE, R259. -/
  | phase (s : BitVec 3) (d : BitVec 5)
  /-- SHUF, R240. -/
  | shuf (a : BitVec 5) (b : BitVec 5) (c : BitVec 5)
  /-- SEGBEGIN, R409. -/
  | segbegin (a : BitVec 5)
  /-- SEGEND, R409. -/
  | segend (d : BitVec 5) (a : BitVec 5) (b : BitVec 5)
  /-- CROPEN, R414. -/
  | cropen (d : BitVec 5) (a : BitVec 5)
  /-- CRCLOSE, R414. -/
  | crclose (d : BitVec 5)
  /-- PROT, R402. -/
  | prot (d : BitVec 5) (a : BitVec 5) (b : BitVec 5) (i : BitVec 6)
  /-- UNPROT, R403. -/
  | unprot (i : BitVec 6)
  /-- RNDPREP, R405. -/
  | rndprep (d : BitVec 5)
  /-- RNDCOMMIT, R406. -/
  | rndcommit (d : BitVec 5)
  /-- RNDABORT, R407. -/
  | rndabort (d : BitVec 5)
  /-- RNDSTAT, R408. -/
  | rndstat (d : BitVec 5) (w : BitVec 1)
  /-- RSLOT, R395. -/
  | rslot (d : BitVec 5) (a : BitVec 5) (b : BitVec 5)
  /-- RRED, R398. -/
  | rred (d : BitVec 5) (a : BitVec 5) (b : BitVec 5)
  /-- RWAIT, R399. -/
  | rwait (d : BitVec 5) (a : BitVec 5) (b : BitVec 5)
  /-- RFREE, R400. -/
  | rfree (a : BitVec 5)
  /-- LAUNCH, R393. -/
  | launch (d : BitVec 5) (a : BitVec 5) (b : BitVec 5)
  /-- WINBIND, R392. -/
  | winbind (d : BitVec 5) (a : BitVec 5) (w : BitVec 6)
  /-- WINBIND_UNBIND, R392. -/
  | winbindUnbind (d : BitVec 5) (w : BitVec 6)
  /-- VLD, R186. -/
  | vld (k : BitVec 4) (v : BitVec 4) (b : BitVec 3) (m : BitVec 2) (d : BitVec 12)
  /-- VLDU, R186. -/
  | vldu (k : BitVec 4) (v : BitVec 4) (b : BitVec 3) (m : BitVec 2) (d : BitVec 12)
  /-- VLDS, R187. -/
  | vlds (k : BitVec 4) (v : BitVec 4) (b : BitVec 3) (r : BitVec 3) (w : BitVec 2) (m : BitVec 2)
  /-- VLDB, R188. -/
  | vldb (k : BitVec 4) (v : BitVec 4) (b : BitVec 3) (m : BitVec 2) (w : BitVec 2) (d : BitVec 10)
  /-- SLDQ, R189. -/
  | sldq (k : BitVec 4) (b : BitVec 3) (m : BitVec 2) (w : BitVec 2) (x : BitVec 1) (d : BitVec 9)
  /-- VST, R186. -/
  | vst (k : BitVec 4) (v : BitVec 4) (b : BitVec 3) (m : BitVec 2) (d : BitVec 12)
  /-- VSTU, R186. -/
  | vstu (k : BitVec 4) (b : BitVec 3) (m : BitVec 2) (d : BitVec 12)
  /-- VSTS, R187. -/
  | vsts (k : BitVec 4) (v : BitVec 4) (b : BitVec 3) (r : BitVec 3) (w : BitVec 2) (m : BitVec 2)
  /-- CPIN, R231. -/
  | cpin (k : BitVec 4) (d : BitVec 3) (a : BitVec 3) (n : BitVec 3) (b : BitVec 3) (i : BitVec 1) (q : BitVec 1)
  /-- CPINB, R232. -/
  | cpinb (k : BitVec 4) (d : BitVec 3) (a : BitVec 3) (n : BitVec 3) (b : BitVec 3) (p : BitVec 1) (q : BitVec 1)
  /-- GATHER, R233. -/
  | gather (k : BitVec 4) (d : BitVec 3) (a : BitVec 3) (b : BitVec 3) (p : BitVec 2) (q : BitVec 1)
  /-- WRSET, R236. -/
  | wrset (k : BitVec 4) (a : BitVec 3) (r : BitVec 2)
  /-- WRADV, R237. -/
  | wradv (k : BitVec 4) (n : BitVec 10) (r : BitVec 2)
  /-- PREF, R238. -/
  | pref (k : BitVec 4) (b : BitVec 3) (c : BitVec 4) (m : BitVec 2) (d : BitVec 9)
  /-- CPOUT, R231. -/
  | cpout (k : BitVec 4) (d : BitVec 3) (a : BitVec 3) (n : BitVec 3) (b : BitVec 3) (i : BitVec 1)
  /-- CPLOC, R231. -/
  | cploc (k : BitVec 4) (d : BitVec 3) (a : BitVec 3) (n : BitVec 3) (b : BitVec 3) (i : BitVec 1)
  /-- SCATTER, R233. -/
  | scatter (k : BitVec 4) (d : BitVec 3) (a : BitVec 3) (b : BitVec 3)
  /-- CPREM, R231. -/
  | cprem (k : BitVec 4) (d : BitVec 3) (a : BitVec 3) (n : BitVec 3) (b : BitVec 3) (i : BitVec 1)
  /-- WFLUSH, R239. -/
  | wflush (k : BitVec 4) (w : BitVec 6) (l : BitVec 1) (c : BitVec 1)
  /-- VADD, R162. -/
  | vadd (k : BitVec 4) (y : BitVec 3) (d : BitVec 4) (a : BitVec 4) (b : BitVec 4) (p : BitVec 4)
  /-- VSUB, R162. -/
  | vsub (k : BitVec 4) (y : BitVec 3) (d : BitVec 4) (a : BitVec 4) (b : BitVec 4) (p : BitVec 4)
  /-- VMUL, R162. -/
  | vmul (k : BitVec 4) (y : BitVec 3) (d : BitVec 4) (a : BitVec 4) (b : BitVec 4) (p : BitVec 4)
  /-- VMULH, R162. -/
  | vmulh (k : BitVec 4) (y : BitVec 3) (d : BitVec 4) (a : BitVec 4) (b : BitVec 4) (p : BitVec 4)
  /-- VMULHN, R162. -/
  | vmulhn (k : BitVec 4) (y : BitVec 3) (d : BitVec 4) (a : BitVec 4) (b : BitVec 4) (p : BitVec 4)
  /-- VMIN, R162. -/
  | vmin (k : BitVec 4) (y : BitVec 3) (d : BitVec 4) (a : BitVec 4) (b : BitVec 4) (p : BitVec 4)
  /-- VMINN, R162. -/
  | vminn (k : BitVec 4) (y : BitVec 3) (d : BitVec 4) (a : BitVec 4) (b : BitVec 4) (p : BitVec 4)
  /-- VMAX, R162. -/
  | vmax (k : BitVec 4) (y : BitVec 3) (d : BitVec 4) (a : BitVec 4) (b : BitVec 4) (p : BitVec 4)
  /-- VMAXN, R162. -/
  | vmaxn (k : BitVec 4) (y : BitVec 3) (d : BitVec 4) (a : BitVec 4) (b : BitVec 4) (p : BitVec 4)
  /-- VAND, R162. -/
  | vand (k : BitVec 4) (y : BitVec 3) (d : BitVec 4) (a : BitVec 4) (b : BitVec 4) (p : BitVec 4)
  /-- VOR, R162. -/
  | vor (k : BitVec 4) (y : BitVec 3) (d : BitVec 4) (a : BitVec 4) (b : BitVec 4) (p : BitVec 4)
  /-- VXOR, R162. -/
  | vxor (k : BitVec 4) (y : BitVec 3) (d : BitVec 4) (a : BitVec 4) (b : BitVec 4) (p : BitVec 4)
  /-- VSHL, R162. -/
  | vshl (k : BitVec 4) (y : BitVec 3) (d : BitVec 4) (a : BitVec 4) (b : BitVec 4) (p : BitVec 4)
  /-- VSHR, R162. -/
  | vshr (k : BitVec 4) (y : BitVec 3) (d : BitVec 4) (a : BitVec 4) (b : BitVec 4) (p : BitVec 4)
  /-- VSAR, R162. -/
  | vsar (k : BitVec 4) (y : BitVec 3) (d : BitVec 4) (a : BitVec 4) (b : BitVec 4) (p : BitVec 4)
  /-- VFSHL, R163. -/
  | vfshl (k : BitVec 4) (y : BitVec 3) (d : BitVec 4) (a : BitVec 4) (b : BitVec 4) (p : BitVec 4)
  /-- VFSHR, R163. -/
  | vfshr (k : BitVec 4) (y : BitVec 3) (d : BitVec 4) (a : BitVec 4) (b : BitVec 4) (p : BitVec 4)
  /-- VCLZ, R162. -/
  | vclz (k : BitVec 4) (y : BitVec 3) (d : BitVec 4) (a : BitVec 4) (p : BitVec 4)
  /-- VPOPC, R162. -/
  | vpopc (k : BitVec 4) (y : BitVec 3) (d : BitVec 4) (a : BitVec 4) (p : BitVec 4)
  /-- VADDS, R162. -/
  | vadds (k : BitVec 4) (y : BitVec 3) (d : BitVec 4) (a : BitVec 4) (b : BitVec 4) (p : BitVec 4)
  /-- VADDSN, R162. -/
  | vaddsn (k : BitVec 4) (y : BitVec 3) (d : BitVec 4) (a : BitVec 4) (b : BitVec 4) (p : BitVec 4)
  /-- VSUBS, R162. -/
  | vsubs (k : BitVec 4) (y : BitVec 3) (d : BitVec 4) (a : BitVec 4) (b : BitVec 4) (p : BitVec 4)
  /-- VSUBSN, R162. -/
  | vsubsn (k : BitVec 4) (y : BitVec 3) (d : BitVec 4) (a : BitVec 4) (b : BitVec 4) (p : BitVec 4)
  /-- VABS, R162. -/
  | vabs (k : BitVec 4) (y : BitVec 3) (d : BitVec 4) (a : BitVec 4) (p : BitVec 4)
  /-- VABSS, R162. -/
  | vabss (k : BitVec 4) (y : BitVec 3) (d : BitVec 4) (a : BitVec 4) (p : BitVec 4)
  /-- VCMP, R164. -/
  | vcmp (k : BitVec 4) (y : BitVec 3) (d : BitVec 4) (a : BitVec 4) (b : BitVec 4) (p : BitVec 4) (c : BitVec 2)
  /-- VCMPN, R164. -/
  | vcmpn (k : BitVec 4) (y : BitVec 3) (d : BitVec 4) (a : BitVec 4) (b : BitVec 4) (p : BitVec 4) (c : BitVec 2)
  /-- VSEL, R162. -/
  | vsel (k : BitVec 4) (y : BitVec 3) (d : BitVec 4) (a : BitVec 4) (b : BitVec 4) (p : BitVec 4)
  /-- VADDI, R162. -/
  | vaddi (k : BitVec 4) (y : BitVec 3) (d : BitVec 4) (a : BitVec 4) (i : BitVec 8) (p : BitVec 2)
  /-- VSHLI, R162. -/
  | vshli (k : BitVec 4) (y : BitVec 3) (d : BitVec 4) (a : BitVec 4) (s : BitVec 6) (p : BitVec 2)
  /-- VSHRI, R162. -/
  | vshri (k : BitVec 4) (y : BitVec 3) (d : BitVec 4) (a : BitVec 4) (s : BitVec 6) (p : BitVec 2)
  /-- VSARI, R162. -/
  | vsari (k : BitVec 4) (y : BitVec 3) (d : BitVec 4) (a : BitVec 4) (s : BitVec 6) (p : BitVec 2)
  /-- VBCAST, R165. -/
  | vbcast (k : BitVec 4) (y : BitVec 3) (d : BitVec 4) (a : BitVec 4) (p : BitVec 4)
  /-- VBCAST_VEC, R165. -/
  | vbcastVec (k : BitVec 4) (y : BitVec 3) (d : BitVec 4) (a : BitVec 4) (p : BitVec 4)
  /-- VIOTA, R166. -/
  | viota (k : BitVec 4) (y : BitVec 3) (d : BitVec 4) (p : BitVec 4)
  /-- VIOTA_RANK, R166. -/
  | viotaRank (k : BitVec 4) (y : BitVec 3) (d : BitVec 4) (p : BitVec 4)
  /-- VFADD, R167. -/
  | vfadd (k : BitVec 4) (y : BitVec 3) (d : BitVec 4) (a : BitVec 4) (b : BitVec 4) (p : BitVec 4) (r : BitVec 2)
  /-- VFSUB, R167. -/
  | vfsub (k : BitVec 4) (y : BitVec 3) (d : BitVec 4) (a : BitVec 4) (b : BitVec 4) (p : BitVec 4) (r : BitVec 2)
  /-- VFMUL, R167. -/
  | vfmul (k : BitVec 4) (y : BitVec 3) (d : BitVec 4) (a : BitVec 4) (b : BitVec 4) (p : BitVec 4) (r : BitVec 2)
  /-- VFMA, R167. -/
  | vfma (k : BitVec 4) (y : BitVec 3) (d : BitVec 4) (a : BitVec 4) (b : BitVec 4) (p : BitVec 4) (r : BitVec 2)
  /-- VFMIN, R167. -/
  | vfmin (k : BitVec 4) (y : BitVec 3) (d : BitVec 4) (a : BitVec 4) (b : BitVec 4) (p : BitVec 4) (n : BitVec 1)
  /-- VFMAX, R167. -/
  | vfmax (k : BitVec 4) (y : BitVec 3) (d : BitVec 4) (a : BitVec 4) (b : BitVec 4) (p : BitVec 4) (n : BitVec 1)
  /-- VFDIV, R167. -/
  | vfdiv (k : BitVec 4) (y : BitVec 3) (d : BitVec 4) (a : BitVec 4) (b : BitVec 4) (p : BitVec 4) (r : BitVec 2)
  /-- VFSQRT, R167. -/
  | vfsqrt (k : BitVec 4) (y : BitVec 3) (d : BitVec 4) (a : BitVec 4) (p : BitVec 4) (r : BitVec 2)
  /-- VFRSQRT, R167. -/
  | vfrsqrt (k : BitVec 4) (y : BitVec 3) (d : BitVec 4) (a : BitVec 4) (p : BitVec 4) (r : BitVec 2)
  /-- VFEXP2, R167. -/
  | vfexp2 (k : BitVec 4) (y : BitVec 3) (d : BitVec 4) (a : BitVec 4) (p : BitVec 4) (r : BitVec 2)
  /-- VFLOG2, R167. -/
  | vflog2 (k : BitVec 4) (y : BitVec 3) (d : BitVec 4) (a : BitVec 4) (p : BitVec 4) (r : BitVec 2)
  /-- VFCMP, R168. -/
  | vfcmp (k : BitVec 4) (y : BitVec 3) (d : BitVec 4) (a : BitVec 4) (b : BitVec 4) (p : BitVec 4) (c : BitVec 2)
  /-- VFABS, R167. -/
  | vfabs (k : BitVec 4) (y : BitVec 3) (d : BitVec 4) (a : BitVec 4) (p : BitVec 4)
  /-- VFNEG, R167. -/
  | vfneg (k : BitVec 4) (y : BitVec 3) (d : BitVec 4) (a : BitVec 4) (p : BitVec 4)
  /-- VFCLASS, R169. -/
  | vfclass (k : BitVec 4) (y : BitVec 3) (d : BitVec 4) (a : BitVec 4) (p : BitVec 4)
  /-- VCVT, R170. -/
  | vcvt (k : BitVec 4) (f : BitVec 4) (s : BitVec 4) (d : BitVec 4) (a : BitVec 4) (p : BitVec 4) (m : BitVec 1)
  /-- VQUANT, R172. -/
  | vquant (k : BitVec 4) (y : BitVec 3) (d : BitVec 4) (a : BitVec 4) (q : BitVec 1)
  /-- VDEQUANT, R172. -/
  | vdequant (k : BitVec 4) (y : BitVec 3) (d : BitVec 4) (a : BitVec 4) (q : BitVec 1)
  /-- VRED, R174. -/
  | vred (k : BitVec 4) (y : BitVec 3) (d : BitVec 4) (a : BitVec 4) (o : BitVec 4) (p : BitVec 4) (n : BitVec 1)
  /-- VGRED, R174. -/
  | vgred (k : BitVec 4) (y : BitVec 3) (d : BitVec 4) (a : BitVec 4) (o : BitVec 4) (g : BitVec 4) (c : BitVec 1) (n : BitVec 1)
  /-- VSCAN, R174. -/
  | vscan (k : BitVec 4) (y : BitVec 3) (d : BitVec 4) (a : BitVec 4) (o : BitVec 4) (p : BitVec 4) (e : BitVec 1) (n : BitVec 1)
  /-- VSLIDEUP, R175. -/
  | vslideup (k : BitVec 4) (y : BitVec 3) (d : BitVec 4) (a : BitVec 4) (b : BitVec 4) (s : BitVec 4) (c : BitVec 1)
  /-- VSLIDEDN, R175. -/
  | vslidedn (k : BitVec 4) (y : BitVec 3) (d : BitVec 4) (a : BitVec 4) (b : BitVec 4) (s : BitVec 4) (c : BitVec 1)
  /-- VPERM, R176. -/
  | vperm (k : BitVec 4) (y : BitVec 3) (d : BitVec 4) (a : BitVec 4) (b : BitVec 4) (p : BitVec 4) (z : BitVec 1)
  /-- VZIPLO, R177. -/
  | vziplo (k : BitVec 4) (y : BitVec 3) (d : BitVec 4) (a : BitVec 4) (b : BitVec 4) (p : BitVec 4)
  /-- VZIPHI, R177. -/
  | vziphi (k : BitVec 4) (y : BitVec 3) (d : BitVec 4) (a : BitVec 4) (b : BitVec 4) (p : BitVec 4)
  /-- VUNZIPE, R177. -/
  | vunzipe (k : BitVec 4) (y : BitVec 3) (d : BitVec 4) (a : BitVec 4) (b : BitVec 4) (p : BitVec 4)
  /-- VUNZIPO, R177. -/
  | vunzipo (k : BitVec 4) (y : BitVec 3) (d : BitVec 4) (a : BitVec 4) (b : BitVec 4) (p : BitVec 4)
  /-- VCOMPRESS, R178. -/
  | vcompress (k : BitVec 4) (y : BitVec 3) (d : BitVec 4) (a : BitVec 4) (p : BitVec 4) (e : BitVec 1)
  /-- VEXPAND, R178. -/
  | vexpand (k : BitVec 4) (y : BitVec 3) (d : BitVec 4) (a : BitVec 4) (p : BitVec 4) (e : BitVec 1)
  /-- PLOGIC, R193. -/
  | plogic (k : BitVec 4) (f : BitVec 3) (d : BitVec 4) (a : BitVec 4) (b : BitVec 4)
  /-- PSET_FIRSTI, R194. -/
  | psetFirsti (k : BitVec 4) (y : BitVec 3) (d : BitVec 4) (i : BitVec 8)
  /-- PSET_FIRST, R194. -/
  | psetFirst (k : BitVec 4) (y : BitVec 3) (d : BitVec 4) (a : BitVec 4)
  /-- PSET_RANGE, R194. -/
  | psetRange (k : BitVec 4) (y : BitVec 3) (d : BitVec 4) (a : BitVec 4) (c : BitVec 4)
  /-- PCNT, R195. -/
  | pcnt (k : BitVec 4) (y : BitVec 3) (d : BitVec 4) (a : BitVec 4) (p : BitVec 4)
  /-- PFIRST, R195. -/
  | pfirst (k : BitVec 4) (y : BitVec 3) (d : BitVec 4) (a : BitVec 4) (p : BitVec 4)
  /-- PFIRST_LAST, R195. -/
  | pfirstLast (k : BitVec 4) (y : BitVec 3) (d : BitVec 4) (a : BitVec 4) (p : BitVec 4)
  /-- VMOVW_PTOV, R196. -/
  | vmovwPtov (k : BitVec 4) (y : BitVec 3) (d : BitVec 4) (a : BitVec 4) (b : BitVec 4)
  /-- VMOVW_VTOP, R196. -/
  | vmovwVtop (k : BitVec 4) (y : BitVec 3) (d : BitVec 4) (a : BitVec 4) (b : BitVec 4)
  /-- VMOVW_VTOW, R196. -/
  | vmovwVtow (k : BitVec 4) (y : BitVec 3) (d : BitVec 4) (a : BitVec 4)
  /-- MGO, R296. -/
  | mgo (k : BitVec 4) (x : BitVec 4) (w : BitVec 3) (z : BitVec 1)
  /-- MGOG, R300. -/
  | mgog (k : BitVec 4) (x : BitVec 4) (w : BitVec 3) (g : BitVec 6) (z : BitVec 1)
  /-- MOUTER, R303. -/
  | mouter (k : BitVec 4) (y : BitVec 3) (l : BitVec 6) (a : BitVec 4) (b : BitVec 4) (h : BitVec 1) (j : BitVec 1)
  /-- MVEC, R304. -/
  | mvec (k : BitVec 4) (y : BitVec 3) (l : BitVec 6) (d : BitVec 4) (b : BitVec 4) (h : BitVec 1) (j : BitVec 1)
  /-- ACZERO, R305. -/
  | aczero (k : BitVec 4) (n : BitVec 6) (l : BitVec 6)
  /-- ACRD, R305. -/
  | acrd (k : BitVec 4) (n : BitVec 6) (l : BitVec 6)
  /-- ACWR, R305. -/
  | acwr (k : BitVec 4) (n : BitVec 6) (l : BitVec 6)
  /-- ACPIN, R320. -/
  | acpin (k : BitVec 4) (x : BitVec 3) (w : BitVec 3) (n : BitVec 6) (l : BitVec 6)
  /-- ACFREE, R321. -/
  | acfree (k : BitVec 4) (n : BitVec 6) (l : BitVec 6)
  /-- ACSPILL, R322. -/
  | acspill (k : BitVec 4) (n : BitVec 6) (l : BitVec 6)
  /-- ACFILL, R323. -/
  | acfill (k : BitVec 4) (w : BitVec 3) (n : BitVec 6) (l : BitVec 6)
  /-- FWSTEP, R333. -/
  | fwstep (k : BitVec 4) (f : BitVec 2)
  /-- FWCHUNK, R335. -/
  | fwchunk (k : BitVec 4) (c : BitVec 6) (m : BitVec 4)
  /-- ASSAY, R306. -/
  | assay (k : BitVec 4) (w : BitVec 3) (f : BitVec 1) (g : BitVec 2)
  /-- MREMAP, R309. -/
  | mremap (k : BitVec 4) (w : BitVec 3) (i : BitVec 9) (d : BitVec 1) (s : BitVec 1)
  /-- MSHRINK, R310. -/
  | mshrink (k : BitVec 4) (w : BitVec 3) (i : BitVec 9) (d : BitVec 1)
  /-- ISSUE_BUNDLE, R18. -/
  | issueBundle
  /-- WFI_WAKE, R107. -/
  | wfiWake
  /-- THREAD_END, R87. -/
  | threadEnd
  /-- SHUF_STEP, R242. -/
  | shufStep
  /-- SEG_DEADLINE, R412. -/
  | segDeadline
  /-- SECTOR_LAND, R224. -/
  | sectorLand
  /-- REMOTE_BARRIER_SIGNAL, R235. -/
  | remoteBarrierSignal
  /-- NEST_COMPLETE, R298. -/
  | nestComplete
  /-- QUEUE_DEADLOCK, R267. -/
  | queueDeadlock
  /-- UI_DELIVERY, R252. -/
  | uiDelivery
  /-- QUIESCE, R92. -/
  | clpmQuiesce
  /-- SAVE, R92. -/
  | clpmSave
  /-- GATE_CLK, R92. -/
  | gateClk
  /-- GATE_RAIL, R92. -/
  | gateRail
  /-- UNGATE_RAIL, R92. -/
  | ungateRail
  /-- UNGATE_CLK, R92. -/
  | ungateClk
  /-- RESTORE, R97. -/
  | clpmRestore
  /-- RELEASE, R92. -/
  | clpmRelease
  /-- CLPM_COMMAND_COMPLETE, R93. -/
  | clpmCommandComplete
  /-- PGOOD_TIMEOUT, R92. -/
  | pgoodTimeout
  /-- CLPM_WAKE, R90. -/
  | clpmWake
  /-- FWTIMER_EXPIRE, R106. -/
  | fwtimerExpire
  /-- BAR0_MIRROR_WRITE, R109. -/
  | bar0MirrorWrite
  /-- MODRST, R108. -/
  | modrst
  /-- FWDOORBELL, R108. -/
  | fwdoorbell
  /-- READ64, R110. -/
  | read64
  /-- WRITE64, R110. -/
  | write64
  /-- MGMT_OWNER_WRITE, R112. -/
  | mgmtOwnerWrite
  /-- LINKDOWN, R111. -/
  | linkdown
  /-- POWER_ON_RESET, R118. -/
  | powerOnReset
  /-- RAIL_PGOOD_TIMEOUT, R114. -/
  | railPgoodTimeout
  /-- MODULE_RESET, R118. -/
  | moduleReset
  /-- FIREFLY_RESET, R118. -/
  | fireflyReset
  /-- BOOT, R121. -/
  | bootRom
  /-- ATTEST_REQUEST, R123. -/
  | attestRequest
  /-- THROTTLE_PERIOD, R116. -/
  | throttlePeriod
  /-- FASTLIM, R116. -/
  | fastlim
  /-- THERMLIM, R116. -/
  | thermlim
  /-- THERMAL_CUT, R116. -/
  | thermalCut
  /-- SECURITY_ALARM, R125. -/
  | securityAlarm
  /-- HOST_BAR2_WRITE, R126. -/
  | hostBar2Write
  /-- LAUNCH_DOORBELL, R345. -/
  | launchDoorbell
  /-- LAUNCH_RECEIVE, R393. -/
  | launchReceive
  /-- LAUNCH_REPLY_TIMEOUT, R393. -/
  | launchReplyTimeout
  /-- DISPATCH_SELECT, R353. -/
  | dispatchSelect
  /-- NODE_COMPLETE, R356. -/
  | nodeComplete
  /-- COOPERATIVE_POINT, R368. -/
  | cooperativePoint
  /-- FORCED_PREEMPT, R370. -/
  | forcedPreempt
  /-- SAVE_DEADLINE, R376. -/
  | saveDeadline
  /-- DEATHWATCH, R375. -/
  | deathwatch
  /-- CREATE, R343. -/
  | createCtx
  /-- TEARDOWN, R363. -/
  | teardownCtx
  /-- PREEMPT, R343. -/
  | preemptCtx
  /-- HALT, R377. -/
  | haltCtx
  /-- RESUME, R343. -/
  | resumeCtx
  /-- STEP, R378. -/
  | stepThread
  /-- TLBINV, R366. -/
  | tlbinv
  /-- TLBINV_DONE, R366. -/
  | tlbinvDone
  /-- FQRESP, R367. -/
  | fqresp
  /-- REPAIR_ON_READ, R212. -/
  | repairOnRead
  /-- REPAIR_TIMEOUT, R212. -/
  | repairTimeout
  /-- PLANISH_VISIT, R213. -/
  | planishVisit
  /-- COMBINE_TIMEOUT, R386. -/
  | combineTimeout
  /-- LINE_DEPART, R387. -/
  | lineDepart
  /-- POSTED_WRITE_RECEIVE, R386. -/
  | postedWriteReceive
  /-- POSTED_ACK, R388. -/
  | postedAck
  /-- POSTED_TIMEOUT, R388. -/
  | postedTimeout
  /-- REMOTE_LOAD_RECEIVE, R389. -/
  | remoteLoadReceive
  /-- REMOTE_LOAD_TIMEOUT, R389. -/
  | remoteLoadTimeout
  /-- FLIT_RECEIVE, R460. -/
  | flitReceive
  /-- LINK_DOWN, R385. -/
  | linkDown
  /-- FAB_SWITCH, R384. -/
  | fabSwitch
  /-- FAB_SWITCH_APPLY, R384. -/
  | fabSwitchApply
  /-- REDUCTION_CONTRIBUTION, R396. -/
  | reductionContribution
  /-- REDUCTION_DEADLINE, R445. -/
  | reductionDeadline
  /-- REDUCTION_RESULT, R444. -/
  | reductionResult
  /-- RFREE_FRAME_END, R400. -/
  | rfreeFrameEnd
  /-- DELTA_RECEIVE, R420. -/
  | deltaReceive
  /-- DELTA_ACK, R431. -/
  | deltaAck
  /-- VOTE_RECEIVE, R429. -/
  | voteReceive
  /-- DECISION_RECEIVE, R429. -/
  | decisionReceive
  /-- DECISION_APPLY, R427. -/
  | decisionApply
  /-- HEARTBEAT_RECEIVE, R428. -/
  | heartbeatReceive
  /-- LOSS_DECLARE, R428. -/
  | lossDeclare
  /-- LOST_NOTICE, R428. -/
  | lostNotice
  /-- RECOVERY_REPORT, R433. -/
  | recoveryReport
  /-- JOIN, R422. -/
  | joinGroup
  /-- LEAVE, R422. -/
  | leaveGroup
  /-- SOURCE, R437. -/
  | startSource
  /-- STOPSRC, R437. -/
  | stopSource
  /-- RECAST_UNIT, R438. -/
  | recastUnit
  /-- EXPORT, R442. -/
  | exportShard
  /-- EXP_RESTORE, R443. -/
  | restoreShard
  /-- CANCEL, R442. -/
  | cancelExport
  /-- HEALTH_EVENT, R451. -/
  | healthEvent
  /-- FF_READ_HALLMARK, R454. -/
  | ffReadHallmark
  /-- FF_READ_INFIELD, R454. -/
  | ffReadInfield
  /-- FF_READ_HEALTH, R454. -/
  | ffReadHealth
  /-- VMARG_WRITE, R455. -/
  | vmargWrite
  /-- VMARG_SETTLED, R456. -/
  | vmargSettled
  /-- LINK_MARGIN_START, R458. -/
  | linkMarginStart
  /-- LINK_MARGIN_DONE, R458. -/
  | linkMarginDone
  /-- HOST_LINK_RECOVERY, R112. -/
  | hostLinkRecovery
  /-- FABRIC_LINK_UP, R385. -/
  | fabricLinkUp
  /-- HEARTBEAT_SEND, R428. -/
  | heartbeatSend
  /-- FRAME_TICK, R383. -/
  | frameTick
  /-- POWER_LOSS, R114. -/
  | powerLoss
  /-- FIREFLY_MAILBOX, R106. -/
  | fireflyMailbox
  /-- ARRAY_FAULT, R415. -/
  | arrayFault
  /-- PAGE_REQUEST_RESPONSE, R365. -/
  | pageRequestResponse
  /-- RECONSTRUCT_REQUEST, R212. -/
  | reconstructRequest
  deriving DecidableEq, Repr

/-- An event that is due: the row of the opcode table and what it acts on. -/
structure Event where
  what  : Instr
  input : Input
  deriving DecidableEq, Repr

end Sys2Proof
end

