-- ==== Sys2Proof/WellFormed.lean ====
section
/-! DEFINITION. Which syllables are well formed: the slots in which each may stand (R24, R31 to R34) and the reserved values of R35, with the payloads an event may carry. -/

namespace Sys2Proof

/-- Where an instruction may stand: in every slot (the control subset, half bit 0), in the private space of one slot, or nowhere, being an event. -/
inductive Kind where
  | control | cPriv | lPriv | wPriv | sPriv | event
  deriving DecidableEq, Repr

/-- The syllable class of each instruction (R22, R24, R31, R32, R33). -/
def Instr.kind : Instr → Kind
  | .nop => .control
  | .add .. => .control
  | .sub .. => .control
  | .andReg .. => .control
  | .orReg .. => .control
  | .xorReg .. => .control
  | .shl .. => .control
  | .shr .. => .control
  | .sar .. => .control
  | .slt .. => .control
  | .sltn .. => .control
  | .minReg .. => .control
  | .maxReg .. => .control
  | .minn .. => .control
  | .maxn .. => .control
  | .andn .. => .control
  | .mul .. => .control
  | .mulh .. => .control
  | .mulhn .. => .control
  | .div .. => .control
  | .divn .. => .control
  | .rem .. => .control
  | .remn .. => .control
  | .clz .. => .control
  | .ctz .. => .control
  | .popc .. => .control
  | .brev .. => .control
  | .bext .. => .control
  | .addi .. => .control
  | .andi .. => .control
  | .ori .. => .control
  | .xori .. => .control
  | .shli .. => .control
  | .shri .. => .control
  | .sari .. => .control
  | .slti .. => .control
  | .sltin .. => .control
  | .lih .. => .control
  | .lix .. => .control
  | .beq .. => .control
  | .bne .. => .control
  | .blt .. => .control
  | .bge .. => .control
  | .bltn .. => .control
  | .bgen .. => .control
  | .jal .. => .control
  | .jalr .. => .control
  | .loopReg .. => .control
  | .loopImm .. => .control
  | .lexit => .control
  | .ldb .. => .control
  | .ldbz .. => .control
  | .ldh .. => .control
  | .ldhz .. => .control
  | .ldw .. => .control
  | .ldwz .. => .control
  | .ldd .. => .control
  | .stb .. => .control
  | .sth .. => .control
  | .stw .. => .control
  | .std .. => .control
  | .qpush .. => .control
  | .qpop .. => .control
  | .csrr .. => .control
  | .csrw .. => .control
  | .csrs .. => .control
  | .csrc .. => .control
  | .userTrap .. => .control
  | .tret => .control
  | .uiret => .control
  | .wfi => .control
  | .breakpt .. => .control
  | .exitThread => .control
  | .amadd .. => .cPriv
  | .ammin .. => .cPriv
  | .amminn .. => .cPriv
  | .ammax .. => .cPriv
  | .ammaxn .. => .cPriv
  | .amand .. => .cPriv
  | .amor .. => .cPriv
  | .amxor .. => .cPriv
  | .amswap .. => .cPriv
  | .amcas .. => .cPriv
  | .amfaddc .. => .cPriv
  | .amldc .. => .cPriv
  | .amld .. => .cPriv
  | .amst .. => .cPriv
  | .tbinit .. => .cPriv
  | .tbjoin .. => .cPriv
  | .tbarrive .. => .cPriv
  | .tbexpect .. => .cPriv
  | .tbwait .. => .cPriv
  | .tbdrop .. => .cPriv
  | .tbpoll .. => .cPriv
  | .fence .. => .cPriv
  | .xfence .. => .cPriv
  | .phase .. => .cPriv
  | .shuf .. => .cPriv
  | .segbegin .. => .cPriv
  | .segend .. => .cPriv
  | .cropen .. => .cPriv
  | .crclose .. => .cPriv
  | .prot .. => .cPriv
  | .unprot .. => .cPriv
  | .rndprep .. => .cPriv
  | .rndcommit .. => .cPriv
  | .rndabort .. => .cPriv
  | .rndstat .. => .cPriv
  | .rslot .. => .cPriv
  | .rred .. => .cPriv
  | .rwait .. => .cPriv
  | .rfree .. => .cPriv
  | .launch .. => .cPriv
  | .winbind .. => .cPriv
  | .winbindUnbind .. => .cPriv
  | .vld .. => .lPriv
  | .vldu .. => .lPriv
  | .vlds .. => .lPriv
  | .vldb .. => .lPriv
  | .sldq .. => .lPriv
  | .vst .. => .sPriv
  | .vstu .. => .sPriv
  | .vsts .. => .sPriv
  | .cpin .. => .lPriv
  | .cpinb .. => .lPriv
  | .gather .. => .lPriv
  | .wrset .. => .lPriv
  | .wradv .. => .lPriv
  | .pref .. => .lPriv
  | .cpout .. => .sPriv
  | .cploc .. => .sPriv
  | .scatter .. => .sPriv
  | .cprem .. => .sPriv
  | .wflush .. => .sPriv
  | .vadd .. => .wPriv
  | .vsub .. => .wPriv
  | .vmul .. => .wPriv
  | .vmulh .. => .wPriv
  | .vmulhn .. => .wPriv
  | .vmin .. => .wPriv
  | .vminn .. => .wPriv
  | .vmax .. => .wPriv
  | .vmaxn .. => .wPriv
  | .vand .. => .wPriv
  | .vor .. => .wPriv
  | .vxor .. => .wPriv
  | .vshl .. => .wPriv
  | .vshr .. => .wPriv
  | .vsar .. => .wPriv
  | .vfshl .. => .wPriv
  | .vfshr .. => .wPriv
  | .vclz .. => .wPriv
  | .vpopc .. => .wPriv
  | .vadds .. => .wPriv
  | .vaddsn .. => .wPriv
  | .vsubs .. => .wPriv
  | .vsubsn .. => .wPriv
  | .vabs .. => .wPriv
  | .vabss .. => .wPriv
  | .vcmp .. => .wPriv
  | .vcmpn .. => .wPriv
  | .vsel .. => .wPriv
  | .vaddi .. => .wPriv
  | .vshli .. => .wPriv
  | .vshri .. => .wPriv
  | .vsari .. => .wPriv
  | .vbcast .. => .wPriv
  | .vbcastVec .. => .wPriv
  | .viota .. => .wPriv
  | .viotaRank .. => .wPriv
  | .vfadd .. => .wPriv
  | .vfsub .. => .wPriv
  | .vfmul .. => .wPriv
  | .vfma .. => .wPriv
  | .vfmin .. => .wPriv
  | .vfmax .. => .wPriv
  | .vfdiv .. => .wPriv
  | .vfsqrt .. => .wPriv
  | .vfrsqrt .. => .wPriv
  | .vfexp2 .. => .wPriv
  | .vflog2 .. => .wPriv
  | .vfcmp .. => .wPriv
  | .vfabs .. => .wPriv
  | .vfneg .. => .wPriv
  | .vfclass .. => .wPriv
  | .vcvt .. => .wPriv
  | .vquant .. => .wPriv
  | .vdequant .. => .wPriv
  | .vred .. => .wPriv
  | .vgred .. => .wPriv
  | .vscan .. => .wPriv
  | .vslideup .. => .wPriv
  | .vslidedn .. => .wPriv
  | .vperm .. => .wPriv
  | .vziplo .. => .wPriv
  | .vziphi .. => .wPriv
  | .vunzipe .. => .wPriv
  | .vunzipo .. => .wPriv
  | .vcompress .. => .wPriv
  | .vexpand .. => .wPriv
  | .plogic .. => .wPriv
  | .psetFirsti .. => .wPriv
  | .psetFirst .. => .wPriv
  | .psetRange .. => .wPriv
  | .pcnt .. => .wPriv
  | .pfirst .. => .wPriv
  | .pfirstLast .. => .wPriv
  | .vmovwPtov .. => .wPriv
  | .vmovwVtop .. => .wPriv
  | .vmovwVtow .. => .wPriv
  | .mgo .. => .wPriv
  | .mgog .. => .wPriv
  | .mouter .. => .wPriv
  | .mvec .. => .wPriv
  | .aczero .. => .wPriv
  | .acrd .. => .wPriv
  | .acwr .. => .wPriv
  | .acpin .. => .wPriv
  | .acfree .. => .wPriv
  | .acspill .. => .wPriv
  | .acfill .. => .wPriv
  | .fwstep .. => .wPriv
  | .fwchunk .. => .wPriv
  | .assay .. => .wPriv
  | .mremap .. => .wPriv
  | .mshrink .. => .wPriv
  | .issueBundle => .event
  | .wfiWake => .event
  | .threadEnd => .event
  | .shufStep => .event
  | .segDeadline => .event
  | .sectorLand => .event
  | .remoteBarrierSignal => .event
  | .nestComplete => .event
  | .queueDeadlock => .event
  | .uiDelivery => .event
  | .clpmQuiesce => .event
  | .clpmSave => .event
  | .gateClk => .event
  | .gateRail => .event
  | .ungateRail => .event
  | .ungateClk => .event
  | .clpmRestore => .event
  | .clpmRelease => .event
  | .clpmCommandComplete => .event
  | .pgoodTimeout => .event
  | .clpmWake => .event
  | .fwtimerExpire => .event
  | .bar0MirrorWrite => .event
  | .modrst => .event
  | .fwdoorbell => .event
  | .read64 => .event
  | .write64 => .event
  | .mgmtOwnerWrite => .event
  | .linkdown => .event
  | .powerOnReset => .event
  | .railPgoodTimeout => .event
  | .moduleReset => .event
  | .fireflyReset => .event
  | .bootRom => .event
  | .attestRequest => .event
  | .throttlePeriod => .event
  | .fastlim => .event
  | .thermlim => .event
  | .thermalCut => .event
  | .securityAlarm => .event
  | .hostBar2Write => .event
  | .launchDoorbell => .event
  | .launchReceive => .event
  | .launchReplyTimeout => .event
  | .dispatchSelect => .event
  | .nodeComplete => .event
  | .cooperativePoint => .event
  | .forcedPreempt => .event
  | .saveDeadline => .event
  | .deathwatch => .event
  | .createCtx => .event
  | .teardownCtx => .event
  | .preemptCtx => .event
  | .haltCtx => .event
  | .resumeCtx => .event
  | .stepThread => .event
  | .tlbinv => .event
  | .tlbinvDone => .event
  | .fqresp => .event
  | .repairOnRead => .event
  | .repairTimeout => .event
  | .planishVisit => .event
  | .combineTimeout => .event
  | .lineDepart => .event
  | .postedWriteReceive => .event
  | .postedAck => .event
  | .postedTimeout => .event
  | .remoteLoadReceive => .event
  | .remoteLoadTimeout => .event
  | .flitReceive => .event
  | .linkDown => .event
  | .fabSwitch => .event
  | .fabSwitchApply => .event
  | .reductionContribution => .event
  | .reductionDeadline => .event
  | .reductionResult => .event
  | .rfreeFrameEnd => .event
  | .deltaReceive => .event
  | .deltaAck => .event
  | .voteReceive => .event
  | .decisionReceive => .event
  | .decisionApply => .event
  | .heartbeatReceive => .event
  | .lossDeclare => .event
  | .lostNotice => .event
  | .recoveryReport => .event
  | .joinGroup => .event
  | .leaveGroup => .event
  | .startSource => .event
  | .stopSource => .event
  | .recastUnit => .event
  | .exportShard => .event
  | .restoreShard => .event
  | .cancelExport => .event
  | .healthEvent => .event
  | .ffReadHallmark => .event
  | .ffReadInfield => .event
  | .ffReadHealth => .event
  | .vmargWrite => .event
  | .vmargSettled => .event
  | .linkMarginStart => .event
  | .linkMarginDone => .event
  | .hostLinkRecovery => .event
  | .fabricLinkUp => .event
  | .heartbeatSend => .event
  | .frameTick => .event
  | .powerLoss => .event
  | .fireflyMailbox => .event
  | .arrayFault => .event
  | .pageRequestResponse => .event
  | .reconstructRequest => .event

/-- The half bit and the slot admit this class (R22): a control-subset syllable in any slot, a private one in its own. -/
def Kind.admits : Kind → Slot → Bool
  | .control, _ => true
  | .cPriv, .c => true
  | .lPriv, .l => true
  | .wPriv, .w => true
  | .sPriv, .s => true
  | _, _ => false

/-- A LOOP or LOOPI length: never 0 (R23, R35), and in an engine slot at most 256 (R75). -/
def loopLenOk (sl : Slot) (n : BitVec 10) : Bool :=
  n != 0 && (sl == .c || n.toNat ≤ 256)

/-- An atomic's size code: 2 and 3 are reserved (R253). -/
def atomSizeOk (z : BitVec 2) : Bool := z.toNat ≤ 1

/-- A run of logical blocks L to L + NM1 ends at block 63 (R295, R319). -/
def blockRunOk (n l : BitVec 6) : Bool := l.toNat + n.toNat ≤ 63

/-- An addressing mode of the L slot (R180): mode 3 is reserved, mode 2 has base 0. -/
def amLOk (m : BitVec 2) (b : BitVec 3) : Bool := m != 3 && (m != 2 || b == 0)

/-- An addressing mode of the S slot (R180): only modes 0 and 1. -/
def amSOk (m : BitVec 2) : Bool := m.toNat ≤ 1

/-- The width in bits of a VCVT format code (R170). -/
def cvtBits : Nat → Nat
  | 0 => 8 | 1 => 16 | 2 => 32 | 3 => 64 | 4 => 32 | 5 => 16 | 6 => 16 | 7 => 8
  | 8 => 8 | 9 => 4 | 10 => 8 | 11 => 16 | 12 => 32 | 13 => 64 | _ => 8

/-- VCVT: format code 15 is reserved, and the part runs below the ratio of the two widths (R170). -/
def cvtOk (f s p : BitVec 4) : Bool :=
  f != 15 && s != 15 &&
    p.toNat < max (cvtBits s.toNat / cvtBits f.toNat) (max (cvtBits f.toNat / cvtBits s.toNat) 1)

/-- The op and NaN rule of a reduction (R173): ops 9 to 15 are reserved, and only MIN, MAX and AMAX take the NaN rule. -/
def redFields (o : BitVec 4) (n : BitVec 1) : Bool := o.toNat ≤ 8 && (n == 0 || o == 1 || o == 2 || o == 8)

/-- The reserved values of R35 that the fixed bits of an encoding do not already exclude. -/
def fieldsOk (sl : Slot) : Instr → Bool
  | .loopReg _ n => loopLenOk sl n
  | .loopImm _ n => loopLenOk sl n
  | .amadd _ _ _ _ _ z _ => atomSizeOk z
  | .ammin _ _ _ _ _ z _ => atomSizeOk z
  | .amminn _ _ _ _ _ z _ => atomSizeOk z
  | .ammax _ _ _ _ _ z _ => atomSizeOk z
  | .ammaxn _ _ _ _ _ z _ => atomSizeOk z
  | .amand _ _ _ _ _ z _ => atomSizeOk z
  | .amor _ _ _ _ _ z _ => atomSizeOk z
  | .amxor _ _ _ _ _ z _ => atomSizeOk z
  | .amswap _ _ _ _ _ z _ => atomSizeOk z
  | .amcas _ _ _ _ _ z _ => atomSizeOk z
  | .amfaddc _ _ _ _ _ z _ => atomSizeOk z
  | .amldc _ _ d _ _ z _ => atomSizeOk z && (z == 0 || (d.toNat % 2 == 0 && 2 ≤ d.toNat && d.toNat ≤ 30))
  | .amld _ _ _ _ _ z _ => atomSizeOk z
  | .amst _ _ _ _ z _ => atomSizeOk z
  | .xfence _ _ e l => e.toNat ≤ 5 && l.toNat ≤ 5
  | .phase s _ => 2 ≤ s.toNat && s.toNat ≤ 6
  | .vld _ _ b m _ => amLOk m b
  | .vldu _ _ b m _ => amLOk m b
  | .vlds _ _ b _ _ m => amLOk m b
  | .vldb _ _ b m _ _ => amLOk m b
  | .sldq _ b m _ _ _ => amLOk m b
  | .vst _ _ _ m _ => amSOk m
  | .vstu _ _ m _ => amSOk m
  | .vsts _ _ _ _ _ m => amSOk m
  | .cpin _ _ a _ _ _ q => q == 0 || a == 0
  | .cpinb _ _ a _ _ _ q => q == 0 || a == 0
  | .gather _ _ a _ p q => (q == 0 || a == 0) && p.toNat ≤ 1
  | .pref _ _ _ m _ => m.toNat ≤ 1
  | .wflush _ w l _ => l == 0 || w == 0
  | .vbcast _ _ _ a _ => a.toNat ≤ 11
  | .vcvt _ f s _ _ p _ => cvtOk f s p
  | .vquant _ _ _ a _ => a != 14
  | .vdequant _ _ d _ _ => d != 14
  | .vred _ _ _ _ o _ n => redFields o n
  | .vgred _ _ _ _ o g _ n => redFields o n && 1 ≤ g.toNat && g.toNat ≤ 9
  | .vscan _ _ _ _ o _ _ n => redFields o n
  | .psetFirst _ _ _ a => a.toNat ≤ 11
  | .psetRange _ _ _ a c => a.toNat ≤ 11 && c.toNat ≤ 11
  | .pcnt _ _ d _ _ => d.toNat ≤ 7
  | .pfirst _ _ d _ _ => d.toNat ≤ 7
  | .pfirstLast _ _ d _ _ => d.toNat ≤ 7
  | .vmovwPtov _ _ _ _ b => b.toNat ≤ 7
  | .vmovwVtop _ _ _ _ b => b.toNat ≤ 7
  | .vmovwVtow _ _ d _ => d.toNat ≤ 7
  | .aczero _ n l => blockRunOk n l
  | .acrd _ n l => blockRunOk n l
  | .acwr _ n l => blockRunOk n l
  | .acpin _ _ _ n l => blockRunOk n l
  | .acfree _ n l => blockRunOk n l
  | .acspill _ n l => blockRunOk n l
  | .acfill _ _ n l => blockRunOk n l
  | .fwchunk _ _ m => m != 0
  | .mremap _ _ i _ _ => i.toNat < 272
  | .mshrink _ _ i _ => i.toNat < 272 || i == 511
  | _ => true

/-- A syllable that is an instruction of its slot: no reserved encoding under R35. -/
def wf (sl : Slot) (i : Instr) : Bool := i.kind.admits sl && fieldsOk sl i

/-- What an event's input must satisfy to name something: a tile, a port, a rail, a margining domain, an entry of a code word. -/
def Input.ok : Input → Bool
  | .signal r _ => r.target.toNat < 130
  | .packet _ _ _ _ p _ => p.length == 120
  | .rail r => r.toNat < 25
  | .bar2Size n => n.toNat ≤ 10
  | .flit p _ _ _ _ => p.toNat < 24
  | .linkError p _ => p.toNat < 24
  | .port p => p.toNat < 24
  | .lanes p _ => p.toNat < 24
  | .contrib p _ => p.toNat < 24
  | .margin p _ _ => p.toNat < 24
  | .vmarg d _ => d.toNat < 24
  | .domain d => d.toNat < 24
  | .entry e => e.toNat < 20
  | .health t _ _ i r => t.toNat < 130 && i.toNat < 272 && r.toNat < 272
  | .assayed t _ l => t.toNat < 130 && l.all (fun u => u.2.1 < 289 && u.2.2.1 < 272)
  | .tile t => t.toNat < 130
  | .block t o n => t.toNat < 130 && n.toNat ≤ 1024 && o.toNat + n.toNat ≤ 65536
  | _ => true

/-- A well-formed event: a row without an encoding, with an input that names what exists. -/
def wfEvent (e : Event) : Bool := e.what.kind == .event && e.input.ok

end Sys2Proof
end

