-- ==== Sys2Proof/Decode.lean ====
section
/-! DEFINITION. Decoding a syllable (R22 to R36) and the encoder, both written from the encoding tables of the spec. Decoding is total: a reserved encoding answers `none`, by R35. -/

namespace Sys2Proof

/-- Bits `lo + n - 1` to `lo` of `w`, as a number (R4). -/
def bits (w lo n : Nat) : Nat := w / 2 ^ lo % 2 ^ n

/-- Bits `lo + n - 1` to `lo` of `w`, as a field. -/
def fld (w lo n : Nat) : BitVec n := BitVec.ofNat n (w / 2 ^ lo)

/-- The control subset: half bit 0, major opcode in bits 30:25 (R24, R25). -/
def decodeControl (w : Nat) : Option Instr :=
  match bits w 25 6 with
  | 0 =>
    if bits w 0 25 == 0 then some .nop else
    none
  | 1 =>
    if bits w 0 10 == 0 then some (.add (fld w 20 5) (fld w 15 5) (fld w 10 5)) else
    if bits w 0 10 == 1 then some (.sub (fld w 20 5) (fld w 15 5) (fld w 10 5)) else
    if bits w 0 10 == 2 then some (.andReg (fld w 20 5) (fld w 15 5) (fld w 10 5)) else
    if bits w 0 10 == 3 then some (.orReg (fld w 20 5) (fld w 15 5) (fld w 10 5)) else
    if bits w 0 10 == 4 then some (.xorReg (fld w 20 5) (fld w 15 5) (fld w 10 5)) else
    if bits w 0 10 == 5 then some (.shl (fld w 20 5) (fld w 15 5) (fld w 10 5)) else
    if bits w 0 10 == 6 then some (.shr (fld w 20 5) (fld w 15 5) (fld w 10 5)) else
    if bits w 0 10 == 7 then some (.sar (fld w 20 5) (fld w 15 5) (fld w 10 5)) else
    if bits w 0 10 == 8 then some (.slt (fld w 20 5) (fld w 15 5) (fld w 10 5)) else
    if bits w 0 10 == 9 then some (.sltn (fld w 20 5) (fld w 15 5) (fld w 10 5)) else
    if bits w 0 10 == 10 then some (.minReg (fld w 20 5) (fld w 15 5) (fld w 10 5)) else
    if bits w 0 10 == 11 then some (.maxReg (fld w 20 5) (fld w 15 5) (fld w 10 5)) else
    if bits w 0 10 == 12 then some (.minn (fld w 20 5) (fld w 15 5) (fld w 10 5)) else
    if bits w 0 10 == 13 then some (.maxn (fld w 20 5) (fld w 15 5) (fld w 10 5)) else
    if bits w 0 10 == 14 then some (.andn (fld w 20 5) (fld w 15 5) (fld w 10 5)) else
    none
  | 2 =>
    if bits w 0 10 == 0 then some (.mul (fld w 20 5) (fld w 15 5) (fld w 10 5)) else
    if bits w 0 10 == 1 then some (.mulh (fld w 20 5) (fld w 15 5) (fld w 10 5)) else
    if bits w 0 10 == 2 then some (.mulhn (fld w 20 5) (fld w 15 5) (fld w 10 5)) else
    if bits w 0 10 == 3 then some (.div (fld w 20 5) (fld w 15 5) (fld w 10 5)) else
    if bits w 0 10 == 4 then some (.divn (fld w 20 5) (fld w 15 5) (fld w 10 5)) else
    if bits w 0 10 == 5 then some (.rem (fld w 20 5) (fld w 15 5) (fld w 10 5)) else
    if bits w 0 10 == 6 then some (.remn (fld w 20 5) (fld w 15 5) (fld w 10 5)) else
    none
  | 3 =>
    if bits w 0 15 == 0 then some (.clz (fld w 20 5) (fld w 15 5)) else
    if bits w 0 15 == 1024 then some (.ctz (fld w 20 5) (fld w 15 5)) else
    if bits w 0 15 == 2048 then some (.popc (fld w 20 5) (fld w 15 5)) else
    if bits w 0 15 == 3072 then some (.brev (fld w 20 5) (fld w 15 5)) else
    if bits w 10 5 == 4 then some (.bext (fld w 20 5) (fld w 15 5) (fld w 4 6) (fld w 0 4)) else
    none
  | 4 =>
    some (.addi (fld w 20 5) (fld w 15 5) (fld w 0 15))
  | 5 =>
    some (.andi (fld w 20 5) (fld w 15 5) (fld w 0 15))
  | 6 =>
    some (.ori (fld w 20 5) (fld w 15 5) (fld w 0 15))
  | 7 =>
    some (.xori (fld w 20 5) (fld w 15 5) (fld w 0 15))
  | 8 =>
    if bits w 6 9 == 0 then some (.shli (fld w 20 5) (fld w 15 5) (fld w 0 6)) else
    if bits w 6 9 == 1 then some (.shri (fld w 20 5) (fld w 15 5) (fld w 0 6)) else
    if bits w 6 9 == 2 then some (.sari (fld w 20 5) (fld w 15 5) (fld w 0 6)) else
    none
  | 9 =>
    some (.slti (fld w 20 5) (fld w 15 5) (fld w 0 15))
  | 10 =>
    some (.sltin (fld w 20 5) (fld w 15 5) (fld w 0 15))
  | 11 =>
    some (.lih (fld w 20 5) (fld w 0 20))
  | 12 =>
    some (.lix (fld w 20 5) (fld w 0 20))
  | 16 =>
    some (.beq (fld w 20 5) (fld w 15 5) (fld w 0 15))
  | 17 =>
    some (.bne (fld w 20 5) (fld w 15 5) (fld w 0 15))
  | 18 =>
    some (.blt (fld w 20 5) (fld w 15 5) (fld w 0 15))
  | 19 =>
    some (.bge (fld w 20 5) (fld w 15 5) (fld w 0 15))
  | 20 =>
    some (.bltn (fld w 20 5) (fld w 15 5) (fld w 0 15))
  | 21 =>
    some (.bgen (fld w 20 5) (fld w 15 5) (fld w 0 15))
  | 22 =>
    some (.jal (fld w 20 5) (fld w 0 20))
  | 23 =>
    some (.jalr (fld w 20 5) (fld w 15 5) (fld w 0 15))
  | 24 =>
    if bits w 0 5 == 0 && bits w 20 5 == 0 then some (.loopReg (fld w 15 5) (fld w 5 10)) else
    none
  | 25 =>
    some (.loopImm (fld w 10 15) (fld w 0 10))
  | 26 =>
    if bits w 0 25 == 0 then some .lexit else
    none
  | 32 =>
    some (.ldb (fld w 20 5) (fld w 15 5) (fld w 0 15))
  | 33 =>
    some (.ldbz (fld w 20 5) (fld w 15 5) (fld w 0 15))
  | 34 =>
    some (.ldh (fld w 20 5) (fld w 15 5) (fld w 0 15))
  | 35 =>
    some (.ldhz (fld w 20 5) (fld w 15 5) (fld w 0 15))
  | 36 =>
    some (.ldw (fld w 20 5) (fld w 15 5) (fld w 0 15))
  | 37 =>
    some (.ldwz (fld w 20 5) (fld w 15 5) (fld w 0 15))
  | 38 =>
    some (.ldd (fld w 20 5) (fld w 15 5) (fld w 0 15))
  | 40 =>
    some (.stb (fld w 20 5) (fld w 15 5) (fld w 0 15))
  | 41 =>
    some (.sth (fld w 20 5) (fld w 15 5) (fld w 0 15))
  | 42 =>
    some (.stw (fld w 20 5) (fld w 15 5) (fld w 0 15))
  | 43 =>
    some (.std (fld w 20 5) (fld w 15 5) (fld w 0 15))
  | 44 =>
    if bits w 0 15 == 0 && bits w 20 5 == 0 then some (.qpush (fld w 15 5)) else
    none
  | 45 =>
    if bits w 0 20 == 0 then some (.qpop (fld w 20 5)) else
    none
  | 48 =>
    if bits w 12 8 == 0 then some (.csrr (fld w 20 5) (fld w 0 12)) else
    if bits w 12 3 == 1 then some (.csrw (fld w 20 5) (fld w 15 5) (fld w 0 12)) else
    if bits w 12 3 == 2 then some (.csrs (fld w 20 5) (fld w 15 5) (fld w 0 12)) else
    if bits w 12 3 == 3 then some (.csrc (fld w 20 5) (fld w 15 5) (fld w 0 12)) else
    none
  | 49 =>
    if bits w 0 10 == 0 then some (.userTrap (fld w 10 15)) else
    if bits w 0 25 == 1 then some .tret else
    if bits w 0 25 == 2 then some .uiret else
    if bits w 0 25 == 3 then some .wfi else
    if bits w 0 10 == 4 then some (.breakpt (fld w 10 15)) else
    if bits w 0 25 == 5 then some .exitThread else
    none
  | _ => none

/-- The private space of the C slot: opcode in bits 30:25 (R31). -/
def decodeC (w : Nat) : Option Instr :=
  match bits w 25 6 with
  | 0 =>
    if bits w 0 1 == 0 && bits w 2 1 == 0 then some (.amadd (fld w 23 2) (fld w 20 3) (fld w 15 5) (fld w 10 5) (fld w 5 5) (fld w 3 2) (fld w 1 1)) else
    none
  | 1 =>
    if bits w 0 1 == 0 && bits w 2 1 == 0 then some (.ammin (fld w 23 2) (fld w 20 3) (fld w 15 5) (fld w 10 5) (fld w 5 5) (fld w 3 2) (fld w 1 1)) else
    if bits w 0 1 == 0 && bits w 2 1 == 1 then some (.amminn (fld w 23 2) (fld w 20 3) (fld w 15 5) (fld w 10 5) (fld w 5 5) (fld w 3 2) (fld w 1 1)) else
    none
  | 2 =>
    if bits w 0 1 == 0 && bits w 2 1 == 0 then some (.ammax (fld w 23 2) (fld w 20 3) (fld w 15 5) (fld w 10 5) (fld w 5 5) (fld w 3 2) (fld w 1 1)) else
    if bits w 0 1 == 0 && bits w 2 1 == 1 then some (.ammaxn (fld w 23 2) (fld w 20 3) (fld w 15 5) (fld w 10 5) (fld w 5 5) (fld w 3 2) (fld w 1 1)) else
    none
  | 3 =>
    if bits w 0 1 == 0 && bits w 2 1 == 0 then some (.amand (fld w 23 2) (fld w 20 3) (fld w 15 5) (fld w 10 5) (fld w 5 5) (fld w 3 2) (fld w 1 1)) else
    none
  | 4 =>
    if bits w 0 1 == 0 && bits w 2 1 == 0 then some (.amor (fld w 23 2) (fld w 20 3) (fld w 15 5) (fld w 10 5) (fld w 5 5) (fld w 3 2) (fld w 1 1)) else
    none
  | 5 =>
    if bits w 0 1 == 0 && bits w 2 1 == 0 then some (.amxor (fld w 23 2) (fld w 20 3) (fld w 15 5) (fld w 10 5) (fld w 5 5) (fld w 3 2) (fld w 1 1)) else
    none
  | 6 =>
    if bits w 0 1 == 0 && bits w 2 1 == 0 then some (.amswap (fld w 23 2) (fld w 20 3) (fld w 15 5) (fld w 10 5) (fld w 5 5) (fld w 3 2) (fld w 1 1)) else
    none
  | 7 =>
    if bits w 0 1 == 0 && bits w 2 1 == 0 then some (.amcas (fld w 23 2) (fld w 20 3) (fld w 15 5) (fld w 10 5) (fld w 5 5) (fld w 3 2) (fld w 1 1)) else
    none
  | 8 =>
    if bits w 0 1 == 0 && bits w 2 1 == 0 then some (.amfaddc (fld w 23 2) (fld w 20 3) (fld w 15 5) (fld w 10 5) (fld w 5 5) (fld w 3 2) (fld w 1 1)) else
    none
  | 9 =>
    if bits w 0 1 == 0 && bits w 2 1 == 0 then some (.amldc (fld w 23 2) (fld w 20 3) (fld w 15 5) (fld w 10 5) (fld w 5 5) (fld w 3 2) (fld w 1 1)) else
    none
  | 10 =>
    if bits w 0 1 == 0 && bits w 2 1 == 0 then some (.amld (fld w 23 2) (fld w 20 3) (fld w 15 5) (fld w 10 5) (fld w 5 5) (fld w 3 2) (fld w 1 1)) else
    none
  | 11 =>
    if bits w 0 1 == 0 && bits w 2 1 == 0 && bits w 15 5 == 0 then some (.amst (fld w 23 2) (fld w 20 3) (fld w 10 5) (fld w 5 5) (fld w 3 2) (fld w 1 1)) else
    none
  | 16 =>
    if bits w 1 9 == 0 then some (.tbinit (fld w 20 5) (fld w 15 5) (fld w 10 5) (fld w 0 1)) else
    none
  | 17 =>
    if bits w 0 15 == 0 then some (.tbjoin (fld w 20 5) (fld w 15 5)) else
    none
  | 18 =>
    if bits w 0 10 == 0 then some (.tbarrive (fld w 20 5) (fld w 15 5) (fld w 10 5)) else
    none
  | 19 =>
    if bits w 0 10 == 0 && bits w 20 5 == 0 then some (.tbexpect (fld w 15 5) (fld w 10 5)) else
    none
  | 20 =>
    if bits w 0 10 == 0 then some (.tbwait (fld w 20 5) (fld w 15 5) (fld w 10 5)) else
    none
  | 21 =>
    if bits w 0 15 == 0 && bits w 20 5 == 0 then some (.tbdrop (fld w 15 5)) else
    none
  | 22 =>
    if bits w 1 14 == 0 then some (.tbpoll (fld w 20 5) (fld w 15 5) (fld w 0 1)) else
    none
  | 24 =>
    if bits w 0 20 == 0 then some (.fence (fld w 23 2) (fld w 20 3)) else
    none
  | 25 =>
    if bits w 0 14 == 0 then some (.xfence (fld w 23 2) (fld w 20 3) (fld w 17 3) (fld w 14 3)) else
    none
  | 26 =>
    if bits w 0 15 == 0 && bits w 23 2 == 3 then some (.phase (fld w 20 3) (fld w 15 5)) else
    none
  | 32 =>
    if bits w 0 5 == 0 && bits w 20 5 == 0 then some (.shuf (fld w 15 5) (fld w 10 5) (fld w 5 5)) else
    none
  | 36 =>
    if bits w 0 15 == 0 && bits w 20 5 == 0 then some (.segbegin (fld w 15 5)) else
    none
  | 37 =>
    if bits w 0 10 == 0 then some (.segend (fld w 20 5) (fld w 15 5) (fld w 10 5)) else
    none
  | 38 =>
    if bits w 0 15 == 0 then some (.cropen (fld w 20 5) (fld w 15 5)) else
    none
  | 39 =>
    if bits w 0 20 == 0 then some (.crclose (fld w 20 5)) else
    none
  | 40 =>
    if bits w 6 4 == 0 then some (.prot (fld w 20 5) (fld w 15 5) (fld w 10 5) (fld w 0 6)) else
    none
  | 41 =>
    if bits w 6 19 == 0 then some (.unprot (fld w 0 6)) else
    none
  | 42 =>
    if bits w 0 20 == 0 then some (.rndprep (fld w 20 5)) else
    none
  | 43 =>
    if bits w 0 20 == 0 then some (.rndcommit (fld w 20 5)) else
    none
  | 44 =>
    if bits w 0 20 == 0 then some (.rndabort (fld w 20 5)) else
    none
  | 45 =>
    if bits w 1 19 == 0 then some (.rndstat (fld w 20 5) (fld w 0 1)) else
    none
  | 48 =>
    if bits w 0 10 == 0 then some (.rslot (fld w 20 5) (fld w 15 5) (fld w 10 5)) else
    none
  | 49 =>
    if bits w 0 10 == 0 then some (.rred (fld w 20 5) (fld w 15 5) (fld w 10 5)) else
    none
  | 50 =>
    if bits w 0 10 == 0 then some (.rwait (fld w 20 5) (fld w 15 5) (fld w 10 5)) else
    none
  | 51 =>
    if bits w 0 15 == 0 && bits w 20 5 == 0 then some (.rfree (fld w 15 5)) else
    none
  | 52 =>
    if bits w 0 10 == 0 then some (.launch (fld w 20 5) (fld w 15 5) (fld w 10 5)) else
    none
  | 53 =>
    if bits w 6 9 == 0 then some (.winbind (fld w 20 5) (fld w 15 5) (fld w 0 6)) else
    if bits w 6 14 == 1 then some (.winbindUnbind (fld w 20 5) (fld w 0 6)) else
    none
  | _ => none

/-- The private space of the L slot: opcode in bits 26:21 (R32). -/
def decodeL (w : Nat) : Option Instr :=
  match bits w 21 6 with
  | 0 =>
    some (.vld (fld w 27 4) (fld w 17 4) (fld w 14 3) (fld w 12 2) (fld w 0 12))
  | 1 =>
    some (.vldu (fld w 27 4) (fld w 17 4) (fld w 14 3) (fld w 12 2) (fld w 0 12))
  | 2 =>
    if bits w 0 7 == 0 then some (.vlds (fld w 27 4) (fld w 17 4) (fld w 14 3) (fld w 11 3) (fld w 9 2) (fld w 7 2)) else
    none
  | 4 =>
    some (.vldb (fld w 27 4) (fld w 17 4) (fld w 14 3) (fld w 12 2) (fld w 10 2) (fld w 0 10))
  | 5 =>
    if bits w 17 4 == 0 then some (.sldq (fld w 27 4) (fld w 14 3) (fld w 12 2) (fld w 10 2) (fld w 9 1) (fld w 0 9)) else
    none
  | 8 =>
    if bits w 0 5 == 0 && bits w 6 2 == 0 then some (.cpin (fld w 27 4) (fld w 18 3) (fld w 15 3) (fld w 12 3) (fld w 9 3) (fld w 8 1) (fld w 5 1)) else
    none
  | 9 =>
    if bits w 0 5 == 0 && bits w 6 1 == 0 && bits w 8 1 == 0 then some (.cpinb (fld w 27 4) (fld w 18 3) (fld w 15 3) (fld w 12 3) (fld w 9 3) (fld w 7 1) (fld w 5 1)) else
    none
  | 10 =>
    if bits w 0 5 == 0 && bits w 8 1 == 0 && bits w 12 3 == 0 then some (.gather (fld w 27 4) (fld w 18 3) (fld w 15 3) (fld w 9 3) (fld w 6 2) (fld w 5 1)) else
    none
  | 11 =>
    if bits w 0 7 == 0 && bits w 9 6 == 0 && bits w 18 3 == 0 then some (.wrset (fld w 27 4) (fld w 15 3) (fld w 7 2)) else
    none
  | 12 =>
    if bits w 0 7 == 0 && bits w 9 2 == 0 then some (.wradv (fld w 27 4) (fld w 11 10) (fld w 7 2)) else
    none
  | 13 =>
    if bits w 18 3 == 0 then some (.pref (fld w 27 4) (fld w 15 3) (fld w 11 4) (fld w 9 2) (fld w 0 9)) else
    none
  | _ => none

/-- The private space of the W slot: opcode in bits 26:21 (R33, R34). -/
def decodeW (w : Nat) : Option Instr :=
  match bits w 21 6 with
  | 0 =>
    if bits w 0 2 == 0 then some (.vadd (fld w 27 4) (fld w 18 3) (fld w 14 4) (fld w 10 4) (fld w 6 4) (fld w 2 4)) else
    none
  | 1 =>
    if bits w 0 2 == 0 then some (.vsub (fld w 27 4) (fld w 18 3) (fld w 14 4) (fld w 10 4) (fld w 6 4) (fld w 2 4)) else
    none
  | 2 =>
    if bits w 0 2 == 0 then some (.vmul (fld w 27 4) (fld w 18 3) (fld w 14 4) (fld w 10 4) (fld w 6 4) (fld w 2 4)) else
    none
  | 3 =>
    if bits w 0 2 == 0 then some (.vmulh (fld w 27 4) (fld w 18 3) (fld w 14 4) (fld w 10 4) (fld w 6 4) (fld w 2 4)) else
    if bits w 0 2 == 1 then some (.vmulhn (fld w 27 4) (fld w 18 3) (fld w 14 4) (fld w 10 4) (fld w 6 4) (fld w 2 4)) else
    none
  | 4 =>
    if bits w 0 2 == 0 then some (.vmin (fld w 27 4) (fld w 18 3) (fld w 14 4) (fld w 10 4) (fld w 6 4) (fld w 2 4)) else
    if bits w 0 2 == 1 then some (.vminn (fld w 27 4) (fld w 18 3) (fld w 14 4) (fld w 10 4) (fld w 6 4) (fld w 2 4)) else
    none
  | 5 =>
    if bits w 0 2 == 0 then some (.vmax (fld w 27 4) (fld w 18 3) (fld w 14 4) (fld w 10 4) (fld w 6 4) (fld w 2 4)) else
    if bits w 0 2 == 1 then some (.vmaxn (fld w 27 4) (fld w 18 3) (fld w 14 4) (fld w 10 4) (fld w 6 4) (fld w 2 4)) else
    none
  | 6 =>
    if bits w 0 2 == 0 then some (.vand (fld w 27 4) (fld w 18 3) (fld w 14 4) (fld w 10 4) (fld w 6 4) (fld w 2 4)) else
    none
  | 7 =>
    if bits w 0 2 == 0 then some (.vor (fld w 27 4) (fld w 18 3) (fld w 14 4) (fld w 10 4) (fld w 6 4) (fld w 2 4)) else
    none
  | 8 =>
    if bits w 0 2 == 0 then some (.vxor (fld w 27 4) (fld w 18 3) (fld w 14 4) (fld w 10 4) (fld w 6 4) (fld w 2 4)) else
    none
  | 9 =>
    if bits w 0 2 == 0 then some (.vshl (fld w 27 4) (fld w 18 3) (fld w 14 4) (fld w 10 4) (fld w 6 4) (fld w 2 4)) else
    none
  | 10 =>
    if bits w 0 2 == 0 then some (.vshr (fld w 27 4) (fld w 18 3) (fld w 14 4) (fld w 10 4) (fld w 6 4) (fld w 2 4)) else
    if bits w 0 2 == 1 then some (.vsar (fld w 27 4) (fld w 18 3) (fld w 14 4) (fld w 10 4) (fld w 6 4) (fld w 2 4)) else
    none
  | 11 =>
    if bits w 0 2 == 0 then some (.vfshl (fld w 27 4) (fld w 18 3) (fld w 14 4) (fld w 10 4) (fld w 6 4) (fld w 2 4)) else
    if bits w 0 2 == 1 then some (.vfshr (fld w 27 4) (fld w 18 3) (fld w 14 4) (fld w 10 4) (fld w 6 4) (fld w 2 4)) else
    none
  | 12 =>
    if bits w 0 2 == 0 && bits w 6 4 == 0 then some (.vclz (fld w 27 4) (fld w 18 3) (fld w 14 4) (fld w 10 4) (fld w 2 4)) else
    none
  | 13 =>
    if bits w 0 2 == 0 && bits w 6 4 == 0 then some (.vpopc (fld w 27 4) (fld w 18 3) (fld w 14 4) (fld w 10 4) (fld w 2 4)) else
    none
  | 14 =>
    if bits w 0 2 == 0 then some (.vadds (fld w 27 4) (fld w 18 3) (fld w 14 4) (fld w 10 4) (fld w 6 4) (fld w 2 4)) else
    if bits w 0 2 == 1 then some (.vaddsn (fld w 27 4) (fld w 18 3) (fld w 14 4) (fld w 10 4) (fld w 6 4) (fld w 2 4)) else
    none
  | 15 =>
    if bits w 0 2 == 0 then some (.vsubs (fld w 27 4) (fld w 18 3) (fld w 14 4) (fld w 10 4) (fld w 6 4) (fld w 2 4)) else
    if bits w 0 2 == 1 then some (.vsubsn (fld w 27 4) (fld w 18 3) (fld w 14 4) (fld w 10 4) (fld w 6 4) (fld w 2 4)) else
    none
  | 16 =>
    if bits w 0 2 == 0 && bits w 6 4 == 0 then some (.vabs (fld w 27 4) (fld w 18 3) (fld w 14 4) (fld w 10 4) (fld w 2 4)) else
    if bits w 0 2 == 1 && bits w 6 4 == 0 then some (.vabss (fld w 27 4) (fld w 18 3) (fld w 14 4) (fld w 10 4) (fld w 2 4)) else
    none
  | 17 =>
    some (.vcmp (fld w 27 4) (fld w 18 3) (fld w 14 4) (fld w 10 4) (fld w 6 4) (fld w 2 4) (fld w 0 2))
  | 18 =>
    some (.vcmpn (fld w 27 4) (fld w 18 3) (fld w 14 4) (fld w 10 4) (fld w 6 4) (fld w 2 4) (fld w 0 2))
  | 19 =>
    if bits w 0 2 == 0 then some (.vsel (fld w 27 4) (fld w 18 3) (fld w 14 4) (fld w 10 4) (fld w 6 4) (fld w 2 4)) else
    none
  | 20 =>
    some (.vaddi (fld w 27 4) (fld w 18 3) (fld w 14 4) (fld w 10 4) (fld w 2 8) (fld w 0 2))
  | 21 =>
    if bits w 8 2 == 0 then some (.vshli (fld w 27 4) (fld w 18 3) (fld w 14 4) (fld w 10 4) (fld w 2 6) (fld w 0 2)) else
    if bits w 8 2 == 1 then some (.vshri (fld w 27 4) (fld w 18 3) (fld w 14 4) (fld w 10 4) (fld w 2 6) (fld w 0 2)) else
    if bits w 8 2 == 2 then some (.vsari (fld w 27 4) (fld w 18 3) (fld w 14 4) (fld w 10 4) (fld w 2 6) (fld w 0 2)) else
    none
  | 22 =>
    if bits w 0 2 == 0 && bits w 6 4 == 0 then some (.vbcast (fld w 27 4) (fld w 18 3) (fld w 14 4) (fld w 10 4) (fld w 2 4)) else
    if bits w 0 2 == 1 && bits w 6 4 == 0 then some (.vbcastVec (fld w 27 4) (fld w 18 3) (fld w 14 4) (fld w 10 4) (fld w 2 4)) else
    none
  | 23 =>
    if bits w 0 2 == 0 && bits w 6 8 == 0 then some (.viota (fld w 27 4) (fld w 18 3) (fld w 14 4) (fld w 2 4)) else
    if bits w 0 2 == 1 && bits w 6 8 == 0 then some (.viotaRank (fld w 27 4) (fld w 18 3) (fld w 14 4) (fld w 2 4)) else
    none
  | 24 =>
    some (.vfadd (fld w 27 4) (fld w 18 3) (fld w 14 4) (fld w 10 4) (fld w 6 4) (fld w 2 4) (fld w 0 2))
  | 25 =>
    some (.vfsub (fld w 27 4) (fld w 18 3) (fld w 14 4) (fld w 10 4) (fld w 6 4) (fld w 2 4) (fld w 0 2))
  | 26 =>
    some (.vfmul (fld w 27 4) (fld w 18 3) (fld w 14 4) (fld w 10 4) (fld w 6 4) (fld w 2 4) (fld w 0 2))
  | 27 =>
    some (.vfma (fld w 27 4) (fld w 18 3) (fld w 14 4) (fld w 10 4) (fld w 6 4) (fld w 2 4) (fld w 0 2))
  | 28 =>
    if bits w 1 1 == 0 then some (.vfmin (fld w 27 4) (fld w 18 3) (fld w 14 4) (fld w 10 4) (fld w 6 4) (fld w 2 4) (fld w 0 1)) else
    none
  | 29 =>
    if bits w 1 1 == 0 then some (.vfmax (fld w 27 4) (fld w 18 3) (fld w 14 4) (fld w 10 4) (fld w 6 4) (fld w 2 4) (fld w 0 1)) else
    none
  | 30 =>
    some (.vfdiv (fld w 27 4) (fld w 18 3) (fld w 14 4) (fld w 10 4) (fld w 6 4) (fld w 2 4) (fld w 0 2))
  | 31 =>
    if bits w 6 4 == 0 then some (.vfsqrt (fld w 27 4) (fld w 18 3) (fld w 14 4) (fld w 10 4) (fld w 2 4) (fld w 0 2)) else
    none
  | 32 =>
    if bits w 6 4 == 0 then some (.vfrsqrt (fld w 27 4) (fld w 18 3) (fld w 14 4) (fld w 10 4) (fld w 2 4) (fld w 0 2)) else
    none
  | 33 =>
    if bits w 6 4 == 0 then some (.vfexp2 (fld w 27 4) (fld w 18 3) (fld w 14 4) (fld w 10 4) (fld w 2 4) (fld w 0 2)) else
    none
  | 34 =>
    if bits w 6 4 == 0 then some (.vflog2 (fld w 27 4) (fld w 18 3) (fld w 14 4) (fld w 10 4) (fld w 2 4) (fld w 0 2)) else
    none
  | 35 =>
    some (.vfcmp (fld w 27 4) (fld w 18 3) (fld w 14 4) (fld w 10 4) (fld w 6 4) (fld w 2 4) (fld w 0 2))
  | 36 =>
    if bits w 0 2 == 0 && bits w 6 4 == 0 then some (.vfabs (fld w 27 4) (fld w 18 3) (fld w 14 4) (fld w 10 4) (fld w 2 4)) else
    if bits w 0 2 == 1 && bits w 6 4 == 0 then some (.vfneg (fld w 27 4) (fld w 18 3) (fld w 14 4) (fld w 10 4) (fld w 2 4)) else
    none
  | 37 =>
    if bits w 0 2 == 0 && bits w 6 4 == 0 then some (.vfclass (fld w 27 4) (fld w 18 3) (fld w 14 4) (fld w 10 4) (fld w 2 4)) else
    none
  | 38 =>
    some (.vcvt (fld w 27 4) (fld w 17 4) (fld w 13 4) (fld w 9 4) (fld w 5 4) (fld w 1 4) (fld w 0 1))
  | 39 =>
    if bits w 1 9 == 0 then some (.vquant (fld w 27 4) (fld w 18 3) (fld w 14 4) (fld w 10 4) (fld w 0 1)) else
    none
  | 40 =>
    if bits w 1 9 == 0 then some (.vdequant (fld w 27 4) (fld w 18 3) (fld w 14 4) (fld w 10 4) (fld w 0 1)) else
    none
  | 42 =>
    if bits w 1 1 == 0 then some (.vred (fld w 27 4) (fld w 18 3) (fld w 14 4) (fld w 10 4) (fld w 6 4) (fld w 2 4) (fld w 0 1)) else
    none
  | 43 =>
    some (.vgred (fld w 27 4) (fld w 18 3) (fld w 14 4) (fld w 10 4) (fld w 6 4) (fld w 2 4) (fld w 1 1) (fld w 0 1))
  | 44 =>
    some (.vscan (fld w 27 4) (fld w 18 3) (fld w 14 4) (fld w 10 4) (fld w 6 4) (fld w 2 4) (fld w 1 1) (fld w 0 1))
  | 45 =>
    if bits w 0 1 == 0 then some (.vslideup (fld w 27 4) (fld w 18 3) (fld w 14 4) (fld w 10 4) (fld w 6 4) (fld w 2 4) (fld w 1 1)) else
    if bits w 0 1 == 1 then some (.vslidedn (fld w 27 4) (fld w 18 3) (fld w 14 4) (fld w 10 4) (fld w 6 4) (fld w 2 4) (fld w 1 1)) else
    none
  | 46 =>
    if bits w 1 1 == 0 then some (.vperm (fld w 27 4) (fld w 18 3) (fld w 14 4) (fld w 10 4) (fld w 6 4) (fld w 2 4) (fld w 0 1)) else
    none
  | 47 =>
    if bits w 0 2 == 0 then some (.vziplo (fld w 27 4) (fld w 18 3) (fld w 14 4) (fld w 10 4) (fld w 6 4) (fld w 2 4)) else
    if bits w 0 2 == 1 then some (.vziphi (fld w 27 4) (fld w 18 3) (fld w 14 4) (fld w 10 4) (fld w 6 4) (fld w 2 4)) else
    if bits w 0 2 == 2 then some (.vunzipe (fld w 27 4) (fld w 18 3) (fld w 14 4) (fld w 10 4) (fld w 6 4) (fld w 2 4)) else
    if bits w 0 2 == 3 then some (.vunzipo (fld w 27 4) (fld w 18 3) (fld w 14 4) (fld w 10 4) (fld w 6 4) (fld w 2 4)) else
    none
  | 48 =>
    if bits w 1 1 == 0 && bits w 6 4 == 0 then some (.vcompress (fld w 27 4) (fld w 18 3) (fld w 14 4) (fld w 10 4) (fld w 2 4) (fld w 0 1)) else
    none
  | 49 =>
    if bits w 1 1 == 0 && bits w 6 4 == 0 then some (.vexpand (fld w 27 4) (fld w 18 3) (fld w 14 4) (fld w 10 4) (fld w 2 4) (fld w 0 1)) else
    none
  | 50 =>
    if bits w 0 6 == 0 then some (.plogic (fld w 27 4) (fld w 18 3) (fld w 14 4) (fld w 10 4) (fld w 6 4)) else
    none
  | 51 =>
    if bits w 0 2 == 0 && bits w 10 4 == 0 then some (.psetFirsti (fld w 27 4) (fld w 18 3) (fld w 14 4) (fld w 2 8)) else
    if bits w 0 10 == 1 then some (.psetFirst (fld w 27 4) (fld w 18 3) (fld w 14 4) (fld w 10 4)) else
    if bits w 0 2 == 2 && bits w 6 4 == 0 then some (.psetRange (fld w 27 4) (fld w 18 3) (fld w 14 4) (fld w 10 4) (fld w 2 4)) else
    none
  | 52 =>
    if bits w 0 2 == 0 && bits w 6 4 == 0 then some (.pcnt (fld w 27 4) (fld w 18 3) (fld w 14 4) (fld w 10 4) (fld w 2 4)) else
    none
  | 53 =>
    if bits w 0 2 == 0 && bits w 6 4 == 0 then some (.pfirst (fld w 27 4) (fld w 18 3) (fld w 14 4) (fld w 10 4) (fld w 2 4)) else
    if bits w 0 2 == 1 && bits w 6 4 == 0 then some (.pfirstLast (fld w 27 4) (fld w 18 3) (fld w 14 4) (fld w 10 4) (fld w 2 4)) else
    none
  | 54 =>
    if bits w 0 6 == 0 then some (.vmovwPtov (fld w 27 4) (fld w 18 3) (fld w 14 4) (fld w 10 4) (fld w 6 4)) else
    if bits w 0 6 == 1 then some (.vmovwVtop (fld w 27 4) (fld w 18 3) (fld w 14 4) (fld w 10 4) (fld w 6 4)) else
    if bits w 0 10 == 2 then some (.vmovwVtow (fld w 27 4) (fld w 18 3) (fld w 14 4) (fld w 10 4)) else
    none
  | 56 =>
    if bits w 1 10 == 0 && bits w 18 3 == 0 then some (.mgo (fld w 27 4) (fld w 14 4) (fld w 11 3) (fld w 0 1)) else
    none
  | 57 =>
    if bits w 1 1 == 0 && bits w 8 3 == 0 && bits w 18 3 == 0 then some (.mgog (fld w 27 4) (fld w 14 4) (fld w 11 3) (fld w 2 6) (fld w 0 1)) else
    none
  | 58 =>
    if bits w 16 2 == 0 then some (.mouter (fld w 27 4) (fld w 18 3) (fld w 10 6) (fld w 6 4) (fld w 2 4) (fld w 1 1) (fld w 0 1)) else
    none
  | 59 =>
    if bits w 16 2 == 0 then some (.mvec (fld w 27 4) (fld w 18 3) (fld w 10 6) (fld w 6 4) (fld w 2 4) (fld w 1 1) (fld w 0 1)) else
    none
  | 60 =>
    if bits w 0 2 == 0 && bits w 14 7 == 0 then some (.aczero (fld w 27 4) (fld w 8 6) (fld w 2 6)) else
    if bits w 0 2 == 1 && bits w 14 7 == 0 then some (.acrd (fld w 27 4) (fld w 8 6) (fld w 2 6)) else
    if bits w 0 2 == 2 && bits w 14 7 == 0 then some (.acwr (fld w 27 4) (fld w 8 6) (fld w 2 6)) else
    none
  | 61 =>
    if bits w 0 2 == 0 && bits w 20 1 == 0 then some (.acpin (fld w 27 4) (fld w 17 3) (fld w 14 3) (fld w 8 6) (fld w 2 6)) else
    if bits w 0 2 == 1 && bits w 14 7 == 0 then some (.acfree (fld w 27 4) (fld w 8 6) (fld w 2 6)) else
    if bits w 0 2 == 2 && bits w 14 7 == 0 then some (.acspill (fld w 27 4) (fld w 8 6) (fld w 2 6)) else
    if bits w 0 2 == 3 && bits w 17 4 == 0 then some (.acfill (fld w 27 4) (fld w 14 3) (fld w 8 6) (fld w 2 6)) else
    none
  | 62 =>
    if bits w 0 2 == 0 && bits w 4 17 == 0 then some (.fwstep (fld w 27 4) (fld w 2 2)) else
    if bits w 0 2 == 1 && bits w 12 9 == 0 then some (.fwchunk (fld w 27 4) (fld w 6 6) (fld w 2 4)) else
    none
  | 63 =>
    if bits w 0 2 == 0 && bits w 5 6 == 0 && bits w 14 7 == 0 then some (.assay (fld w 27 4) (fld w 11 3) (fld w 4 1) (fld w 2 2)) else
    if bits w 0 2 == 1 && bits w 13 1 == 0 && bits w 17 4 == 0 then some (.mremap (fld w 27 4) (fld w 14 3) (fld w 4 9) (fld w 3 1) (fld w 2 1)) else
    if bits w 0 3 == 2 && bits w 13 1 == 0 && bits w 17 4 == 0 then some (.mshrink (fld w 27 4) (fld w 14 3) (fld w 4 9) (fld w 3 1)) else
    none
  | _ => none

/-- The private space of the S slot: opcode in bits 26:21 (R32). -/
def decodeS (w : Nat) : Option Instr :=
  match bits w 21 6 with
  | 0 =>
    some (.vst (fld w 27 4) (fld w 17 4) (fld w 14 3) (fld w 12 2) (fld w 0 12))
  | 1 =>
    if bits w 17 4 == 15 then some (.vstu (fld w 27 4) (fld w 14 3) (fld w 12 2) (fld w 0 12)) else
    none
  | 2 =>
    if bits w 0 7 == 0 then some (.vsts (fld w 27 4) (fld w 17 4) (fld w 14 3) (fld w 11 3) (fld w 9 2) (fld w 7 2)) else
    none
  | 8 =>
    if bits w 0 8 == 0 then some (.cpout (fld w 27 4) (fld w 18 3) (fld w 15 3) (fld w 12 3) (fld w 9 3) (fld w 8 1)) else
    none
  | 9 =>
    if bits w 0 8 == 0 then some (.cploc (fld w 27 4) (fld w 18 3) (fld w 15 3) (fld w 12 3) (fld w 9 3) (fld w 8 1)) else
    none
  | 10 =>
    if bits w 0 9 == 0 && bits w 12 3 == 0 then some (.scatter (fld w 27 4) (fld w 18 3) (fld w 15 3) (fld w 9 3)) else
    none
  | 11 =>
    if bits w 0 8 == 0 then some (.cprem (fld w 27 4) (fld w 18 3) (fld w 15 3) (fld w 12 3) (fld w 9 3) (fld w 8 1)) else
    none
  | 12 =>
    if bits w 0 13 == 0 then some (.wflush (fld w 27 4) (fld w 15 6) (fld w 14 1) (fld w 13 1)) else
    none
  | _ => none

/-- The syllable of a slot before the reserved values of R35 are judged: the half bit chooses the space (R22). -/
def decodeRaw (sl : Slot) (w : Nat) : Option Instr :=
  if bits w 31 1 == 0 then decodeControl w else
  match sl with
  | .c => decodeC w
  | .l => decodeL w
  | .w => decodeW w
  | .s => decodeS w

/-- The instruction of slot `sl` that the 32 bits of `w` encode, or `none` for a reserved encoding (R35). -/
def decodeNat (sl : Slot) (w : Nat) : Option Instr :=
  match decodeRaw sl w with
  | some i => if wf sl i then some i else none
  | none => none

/-- Decoding a syllable in its slot (R36). -/
def decode (sl : Slot) (w : Syl) : Option Instr := decodeNat sl w.toNat

/-- The four syllables of a bundle, from its 16 bytes in ascending address order, each little-endian (R16). -/
def syllables (bs : List Byte) : List Syl :=
  match bs with
  | b0 :: b1 :: b2 :: b3 :: rest =>
    BitVec.ofNat 32 (b0.toNat + b1.toNat * 2 ^ 8 + b2.toNat * 2 ^ 16 + b3.toNat * 2 ^ 24) :: syllables rest
  | _ => []

/-- The bytes of a syllable in ascending address order (R16). -/
def sylBytes (w : Syl) : List Byte :=
  [BitVec.ofNat 8 w.toNat, BitVec.ofNat 8 (w.toNat / 2 ^ 8), BitVec.ofNat 8 (w.toNat / 2 ^ 16), BitVec.ofNat 8 (w.toNat / 2 ^ 24)]

/-- A word from its fixed bits and its fields, each a value and the position of its lowest bit. -/
def pack (base : Nat) : List (Nat × Nat) → Nat
  | [] => base
  | (v, lo) :: rest => v * 2 ^ lo + pack base rest

/-- The encoder: the 32 bits of an instruction, from the same tables. An event has no encoding and answers ILL, which no slot ever assigns (R17). -/
def encode : Instr → Nat
  | .nop => pack 0x00000000 []
  | .add d a b => pack 0x02000000 [(d.toNat, 20), (a.toNat, 15), (b.toNat, 10)]
  | .sub d a b => pack 0x02000001 [(d.toNat, 20), (a.toNat, 15), (b.toNat, 10)]
  | .andReg d a b => pack 0x02000002 [(d.toNat, 20), (a.toNat, 15), (b.toNat, 10)]
  | .orReg d a b => pack 0x02000003 [(d.toNat, 20), (a.toNat, 15), (b.toNat, 10)]
  | .xorReg d a b => pack 0x02000004 [(d.toNat, 20), (a.toNat, 15), (b.toNat, 10)]
  | .shl d a b => pack 0x02000005 [(d.toNat, 20), (a.toNat, 15), (b.toNat, 10)]
  | .shr d a b => pack 0x02000006 [(d.toNat, 20), (a.toNat, 15), (b.toNat, 10)]
  | .sar d a b => pack 0x02000007 [(d.toNat, 20), (a.toNat, 15), (b.toNat, 10)]
  | .slt d a b => pack 0x02000008 [(d.toNat, 20), (a.toNat, 15), (b.toNat, 10)]
  | .sltn d a b => pack 0x02000009 [(d.toNat, 20), (a.toNat, 15), (b.toNat, 10)]
  | .minReg d a b => pack 0x0200000A [(d.toNat, 20), (a.toNat, 15), (b.toNat, 10)]
  | .maxReg d a b => pack 0x0200000B [(d.toNat, 20), (a.toNat, 15), (b.toNat, 10)]
  | .minn d a b => pack 0x0200000C [(d.toNat, 20), (a.toNat, 15), (b.toNat, 10)]
  | .maxn d a b => pack 0x0200000D [(d.toNat, 20), (a.toNat, 15), (b.toNat, 10)]
  | .andn d a b => pack 0x0200000E [(d.toNat, 20), (a.toNat, 15), (b.toNat, 10)]
  | .mul d a b => pack 0x04000000 [(d.toNat, 20), (a.toNat, 15), (b.toNat, 10)]
  | .mulh d a b => pack 0x04000001 [(d.toNat, 20), (a.toNat, 15), (b.toNat, 10)]
  | .mulhn d a b => pack 0x04000002 [(d.toNat, 20), (a.toNat, 15), (b.toNat, 10)]
  | .div d a b => pack 0x04000003 [(d.toNat, 20), (a.toNat, 15), (b.toNat, 10)]
  | .divn d a b => pack 0x04000004 [(d.toNat, 20), (a.toNat, 15), (b.toNat, 10)]
  | .rem d a b => pack 0x04000005 [(d.toNat, 20), (a.toNat, 15), (b.toNat, 10)]
  | .remn d a b => pack 0x04000006 [(d.toNat, 20), (a.toNat, 15), (b.toNat, 10)]
  | .clz d a => pack 0x06000000 [(d.toNat, 20), (a.toNat, 15)]
  | .ctz d a => pack 0x06000400 [(d.toNat, 20), (a.toNat, 15)]
  | .popc d a => pack 0x06000800 [(d.toNat, 20), (a.toNat, 15)]
  | .brev d a => pack 0x06000C00 [(d.toNat, 20), (a.toNat, 15)]
  | .bext d a p l => pack 0x06001000 [(d.toNat, 20), (a.toNat, 15), (p.toNat, 4), (l.toNat, 0)]
  | .addi d a i => pack 0x08000000 [(d.toNat, 20), (a.toNat, 15), (i.toNat, 0)]
  | .andi d a i => pack 0x0A000000 [(d.toNat, 20), (a.toNat, 15), (i.toNat, 0)]
  | .ori d a i => pack 0x0C000000 [(d.toNat, 20), (a.toNat, 15), (i.toNat, 0)]
  | .xori d a i => pack 0x0E000000 [(d.toNat, 20), (a.toNat, 15), (i.toNat, 0)]
  | .shli d a s => pack 0x10000000 [(d.toNat, 20), (a.toNat, 15), (s.toNat, 0)]
  | .shri d a s => pack 0x10000040 [(d.toNat, 20), (a.toNat, 15), (s.toNat, 0)]
  | .sari d a s => pack 0x10000080 [(d.toNat, 20), (a.toNat, 15), (s.toNat, 0)]
  | .slti d a i => pack 0x12000000 [(d.toNat, 20), (a.toNat, 15), (i.toNat, 0)]
  | .sltin d a i => pack 0x14000000 [(d.toNat, 20), (a.toNat, 15), (i.toNat, 0)]
  | .lih d i => pack 0x16000000 [(d.toNat, 20), (i.toNat, 0)]
  | .lix d i => pack 0x18000000 [(d.toNat, 20), (i.toNat, 0)]
  | .beq a b o => pack 0x20000000 [(a.toNat, 20), (b.toNat, 15), (o.toNat, 0)]
  | .bne a b o => pack 0x22000000 [(a.toNat, 20), (b.toNat, 15), (o.toNat, 0)]
  | .blt a b o => pack 0x24000000 [(a.toNat, 20), (b.toNat, 15), (o.toNat, 0)]
  | .bge a b o => pack 0x26000000 [(a.toNat, 20), (b.toNat, 15), (o.toNat, 0)]
  | .bltn a b o => pack 0x28000000 [(a.toNat, 20), (b.toNat, 15), (o.toNat, 0)]
  | .bgen a b o => pack 0x2A000000 [(a.toNat, 20), (b.toNat, 15), (o.toNat, 0)]
  | .jal d o => pack 0x2C000000 [(d.toNat, 20), (o.toNat, 0)]
  | .jalr d a i => pack 0x2E000000 [(d.toNat, 20), (a.toNat, 15), (i.toNat, 0)]
  | .loopReg a n => pack 0x30000000 [(a.toNat, 15), (n.toNat, 5)]
  | .loopImm c n => pack 0x32000000 [(c.toNat, 10), (n.toNat, 0)]
  | .lexit => pack 0x34000000 []
  | .ldb d a i => pack 0x40000000 [(d.toNat, 20), (a.toNat, 15), (i.toNat, 0)]
  | .ldbz d a i => pack 0x42000000 [(d.toNat, 20), (a.toNat, 15), (i.toNat, 0)]
  | .ldh d a i => pack 0x44000000 [(d.toNat, 20), (a.toNat, 15), (i.toNat, 0)]
  | .ldhz d a i => pack 0x46000000 [(d.toNat, 20), (a.toNat, 15), (i.toNat, 0)]
  | .ldw d a i => pack 0x48000000 [(d.toNat, 20), (a.toNat, 15), (i.toNat, 0)]
  | .ldwz d a i => pack 0x4A000000 [(d.toNat, 20), (a.toNat, 15), (i.toNat, 0)]
  | .ldd d a i => pack 0x4C000000 [(d.toNat, 20), (a.toNat, 15), (i.toNat, 0)]
  | .stb a b o => pack 0x50000000 [(a.toNat, 20), (b.toNat, 15), (o.toNat, 0)]
  | .sth a b o => pack 0x52000000 [(a.toNat, 20), (b.toNat, 15), (o.toNat, 0)]
  | .stw a b o => pack 0x54000000 [(a.toNat, 20), (b.toNat, 15), (o.toNat, 0)]
  | .std a b o => pack 0x56000000 [(a.toNat, 20), (b.toNat, 15), (o.toNat, 0)]
  | .qpush a => pack 0x58000000 [(a.toNat, 15)]
  | .qpop d => pack 0x5A000000 [(d.toNat, 20)]
  | .csrr d c => pack 0x60000000 [(d.toNat, 20), (c.toNat, 0)]
  | .csrw d a c => pack 0x60001000 [(d.toNat, 20), (a.toNat, 15), (c.toNat, 0)]
  | .csrs d a c => pack 0x60002000 [(d.toNat, 20), (a.toNat, 15), (c.toNat, 0)]
  | .csrc d a c => pack 0x60003000 [(d.toNat, 20), (a.toNat, 15), (c.toNat, 0)]
  | .userTrap c => pack 0x62000000 [(c.toNat, 10)]
  | .tret => pack 0x62000001 []
  | .uiret => pack 0x62000002 []
  | .wfi => pack 0x62000003 []
  | .breakpt c => pack 0x62000004 [(c.toNat, 10)]
  | .exitThread => pack 0x62000005 []
  | .amadd o s d a b z r => pack 0x80000000 [(o.toNat, 23), (s.toNat, 20), (d.toNat, 15), (a.toNat, 10), (b.toNat, 5), (z.toNat, 3), (r.toNat, 1)]
  | .ammin o s d a b z r => pack 0x82000000 [(o.toNat, 23), (s.toNat, 20), (d.toNat, 15), (a.toNat, 10), (b.toNat, 5), (z.toNat, 3), (r.toNat, 1)]
  | .amminn o s d a b z r => pack 0x82000004 [(o.toNat, 23), (s.toNat, 20), (d.toNat, 15), (a.toNat, 10), (b.toNat, 5), (z.toNat, 3), (r.toNat, 1)]
  | .ammax o s d a b z r => pack 0x84000000 [(o.toNat, 23), (s.toNat, 20), (d.toNat, 15), (a.toNat, 10), (b.toNat, 5), (z.toNat, 3), (r.toNat, 1)]
  | .ammaxn o s d a b z r => pack 0x84000004 [(o.toNat, 23), (s.toNat, 20), (d.toNat, 15), (a.toNat, 10), (b.toNat, 5), (z.toNat, 3), (r.toNat, 1)]
  | .amand o s d a b z r => pack 0x86000000 [(o.toNat, 23), (s.toNat, 20), (d.toNat, 15), (a.toNat, 10), (b.toNat, 5), (z.toNat, 3), (r.toNat, 1)]
  | .amor o s d a b z r => pack 0x88000000 [(o.toNat, 23), (s.toNat, 20), (d.toNat, 15), (a.toNat, 10), (b.toNat, 5), (z.toNat, 3), (r.toNat, 1)]
  | .amxor o s d a b z r => pack 0x8A000000 [(o.toNat, 23), (s.toNat, 20), (d.toNat, 15), (a.toNat, 10), (b.toNat, 5), (z.toNat, 3), (r.toNat, 1)]
  | .amswap o s d a b z r => pack 0x8C000000 [(o.toNat, 23), (s.toNat, 20), (d.toNat, 15), (a.toNat, 10), (b.toNat, 5), (z.toNat, 3), (r.toNat, 1)]
  | .amcas o s d a b z r => pack 0x8E000000 [(o.toNat, 23), (s.toNat, 20), (d.toNat, 15), (a.toNat, 10), (b.toNat, 5), (z.toNat, 3), (r.toNat, 1)]
  | .amfaddc o s d a b z r => pack 0x90000000 [(o.toNat, 23), (s.toNat, 20), (d.toNat, 15), (a.toNat, 10), (b.toNat, 5), (z.toNat, 3), (r.toNat, 1)]
  | .amldc o s d a b z r => pack 0x92000000 [(o.toNat, 23), (s.toNat, 20), (d.toNat, 15), (a.toNat, 10), (b.toNat, 5), (z.toNat, 3), (r.toNat, 1)]
  | .amld o s d a b z r => pack 0x94000000 [(o.toNat, 23), (s.toNat, 20), (d.toNat, 15), (a.toNat, 10), (b.toNat, 5), (z.toNat, 3), (r.toNat, 1)]
  | .amst o s a b z r => pack 0x96000000 [(o.toNat, 23), (s.toNat, 20), (a.toNat, 10), (b.toNat, 5), (z.toNat, 3), (r.toNat, 1)]
  | .tbinit d a b n => pack 0xA0000000 [(d.toNat, 20), (a.toNat, 15), (b.toNat, 10), (n.toNat, 0)]
  | .tbjoin d a => pack 0xA2000000 [(d.toNat, 20), (a.toNat, 15)]
  | .tbarrive d a b => pack 0xA4000000 [(d.toNat, 20), (a.toNat, 15), (b.toNat, 10)]
  | .tbexpect a b => pack 0xA6000000 [(a.toNat, 15), (b.toNat, 10)]
  | .tbwait d a b => pack 0xA8000000 [(d.toNat, 20), (a.toNat, 15), (b.toNat, 10)]
  | .tbdrop a => pack 0xAA000000 [(a.toNat, 15)]
  | .tbpoll d a h => pack 0xAC000000 [(d.toNat, 20), (a.toNat, 15), (h.toNat, 0)]
  | .fence o s => pack 0xB0000000 [(o.toNat, 23), (s.toNat, 20)]
  | .xfence o s e l => pack 0xB2000000 [(o.toNat, 23), (s.toNat, 20), (e.toNat, 17), (l.toNat, 14)]
  | .phase s d => pack 0xB5800000 [(s.toNat, 20), (d.toNat, 15)]
  | .shuf a b c => pack 0xC0000000 [(a.toNat, 15), (b.toNat, 10), (c.toNat, 5)]
  | .segbegin a => pack 0xC8000000 [(a.toNat, 15)]
  | .segend d a b => pack 0xCA000000 [(d.toNat, 20), (a.toNat, 15), (b.toNat, 10)]
  | .cropen d a => pack 0xCC000000 [(d.toNat, 20), (a.toNat, 15)]
  | .crclose d => pack 0xCE000000 [(d.toNat, 20)]
  | .prot d a b i => pack 0xD0000000 [(d.toNat, 20), (a.toNat, 15), (b.toNat, 10), (i.toNat, 0)]
  | .unprot i => pack 0xD2000000 [(i.toNat, 0)]
  | .rndprep d => pack 0xD4000000 [(d.toNat, 20)]
  | .rndcommit d => pack 0xD6000000 [(d.toNat, 20)]
  | .rndabort d => pack 0xD8000000 [(d.toNat, 20)]
  | .rndstat d w => pack 0xDA000000 [(d.toNat, 20), (w.toNat, 0)]
  | .rslot d a b => pack 0xE0000000 [(d.toNat, 20), (a.toNat, 15), (b.toNat, 10)]
  | .rred d a b => pack 0xE2000000 [(d.toNat, 20), (a.toNat, 15), (b.toNat, 10)]
  | .rwait d a b => pack 0xE4000000 [(d.toNat, 20), (a.toNat, 15), (b.toNat, 10)]
  | .rfree a => pack 0xE6000000 [(a.toNat, 15)]
  | .launch d a b => pack 0xE8000000 [(d.toNat, 20), (a.toNat, 15), (b.toNat, 10)]
  | .winbind d a w => pack 0xEA000000 [(d.toNat, 20), (a.toNat, 15), (w.toNat, 0)]
  | .winbindUnbind d w => pack 0xEA000040 [(d.toNat, 20), (w.toNat, 0)]
  | .vld k v b m d => pack 0x80000000 [(k.toNat, 27), (v.toNat, 17), (b.toNat, 14), (m.toNat, 12), (d.toNat, 0)]
  | .vldu k v b m d => pack 0x80200000 [(k.toNat, 27), (v.toNat, 17), (b.toNat, 14), (m.toNat, 12), (d.toNat, 0)]
  | .vlds k v b r w m => pack 0x80400000 [(k.toNat, 27), (v.toNat, 17), (b.toNat, 14), (r.toNat, 11), (w.toNat, 9), (m.toNat, 7)]
  | .vldb k v b m w d => pack 0x80800000 [(k.toNat, 27), (v.toNat, 17), (b.toNat, 14), (m.toNat, 12), (w.toNat, 10), (d.toNat, 0)]
  | .sldq k b m w x d => pack 0x80A00000 [(k.toNat, 27), (b.toNat, 14), (m.toNat, 12), (w.toNat, 10), (x.toNat, 9), (d.toNat, 0)]
  | .vst k v b m d => pack 0x80000000 [(k.toNat, 27), (v.toNat, 17), (b.toNat, 14), (m.toNat, 12), (d.toNat, 0)]
  | .vstu k b m d => pack 0x803E0000 [(k.toNat, 27), (b.toNat, 14), (m.toNat, 12), (d.toNat, 0)]
  | .vsts k v b r w m => pack 0x80400000 [(k.toNat, 27), (v.toNat, 17), (b.toNat, 14), (r.toNat, 11), (w.toNat, 9), (m.toNat, 7)]
  | .cpin k d a n b i q => pack 0x81000000 [(k.toNat, 27), (d.toNat, 18), (a.toNat, 15), (n.toNat, 12), (b.toNat, 9), (i.toNat, 8), (q.toNat, 5)]
  | .cpinb k d a n b p q => pack 0x81200000 [(k.toNat, 27), (d.toNat, 18), (a.toNat, 15), (n.toNat, 12), (b.toNat, 9), (p.toNat, 7), (q.toNat, 5)]
  | .gather k d a b p q => pack 0x81400000 [(k.toNat, 27), (d.toNat, 18), (a.toNat, 15), (b.toNat, 9), (p.toNat, 6), (q.toNat, 5)]
  | .wrset k a r => pack 0x81600000 [(k.toNat, 27), (a.toNat, 15), (r.toNat, 7)]
  | .wradv k n r => pack 0x81800000 [(k.toNat, 27), (n.toNat, 11), (r.toNat, 7)]
  | .pref k b c m d => pack 0x81A00000 [(k.toNat, 27), (b.toNat, 15), (c.toNat, 11), (m.toNat, 9), (d.toNat, 0)]
  | .cpout k d a n b i => pack 0x81000000 [(k.toNat, 27), (d.toNat, 18), (a.toNat, 15), (n.toNat, 12), (b.toNat, 9), (i.toNat, 8)]
  | .cploc k d a n b i => pack 0x81200000 [(k.toNat, 27), (d.toNat, 18), (a.toNat, 15), (n.toNat, 12), (b.toNat, 9), (i.toNat, 8)]
  | .scatter k d a b => pack 0x81400000 [(k.toNat, 27), (d.toNat, 18), (a.toNat, 15), (b.toNat, 9)]
  | .cprem k d a n b i => pack 0x81600000 [(k.toNat, 27), (d.toNat, 18), (a.toNat, 15), (n.toNat, 12), (b.toNat, 9), (i.toNat, 8)]
  | .wflush k w l c => pack 0x81800000 [(k.toNat, 27), (w.toNat, 15), (l.toNat, 14), (c.toNat, 13)]
  | .vadd k y d a b p => pack 0x80000000 [(k.toNat, 27), (y.toNat, 18), (d.toNat, 14), (a.toNat, 10), (b.toNat, 6), (p.toNat, 2)]
  | .vsub k y d a b p => pack 0x80200000 [(k.toNat, 27), (y.toNat, 18), (d.toNat, 14), (a.toNat, 10), (b.toNat, 6), (p.toNat, 2)]
  | .vmul k y d a b p => pack 0x80400000 [(k.toNat, 27), (y.toNat, 18), (d.toNat, 14), (a.toNat, 10), (b.toNat, 6), (p.toNat, 2)]
  | .vmulh k y d a b p => pack 0x80600000 [(k.toNat, 27), (y.toNat, 18), (d.toNat, 14), (a.toNat, 10), (b.toNat, 6), (p.toNat, 2)]
  | .vmulhn k y d a b p => pack 0x80600001 [(k.toNat, 27), (y.toNat, 18), (d.toNat, 14), (a.toNat, 10), (b.toNat, 6), (p.toNat, 2)]
  | .vmin k y d a b p => pack 0x80800000 [(k.toNat, 27), (y.toNat, 18), (d.toNat, 14), (a.toNat, 10), (b.toNat, 6), (p.toNat, 2)]
  | .vminn k y d a b p => pack 0x80800001 [(k.toNat, 27), (y.toNat, 18), (d.toNat, 14), (a.toNat, 10), (b.toNat, 6), (p.toNat, 2)]
  | .vmax k y d a b p => pack 0x80A00000 [(k.toNat, 27), (y.toNat, 18), (d.toNat, 14), (a.toNat, 10), (b.toNat, 6), (p.toNat, 2)]
  | .vmaxn k y d a b p => pack 0x80A00001 [(k.toNat, 27), (y.toNat, 18), (d.toNat, 14), (a.toNat, 10), (b.toNat, 6), (p.toNat, 2)]
  | .vand k y d a b p => pack 0x80C00000 [(k.toNat, 27), (y.toNat, 18), (d.toNat, 14), (a.toNat, 10), (b.toNat, 6), (p.toNat, 2)]
  | .vor k y d a b p => pack 0x80E00000 [(k.toNat, 27), (y.toNat, 18), (d.toNat, 14), (a.toNat, 10), (b.toNat, 6), (p.toNat, 2)]
  | .vxor k y d a b p => pack 0x81000000 [(k.toNat, 27), (y.toNat, 18), (d.toNat, 14), (a.toNat, 10), (b.toNat, 6), (p.toNat, 2)]
  | .vshl k y d a b p => pack 0x81200000 [(k.toNat, 27), (y.toNat, 18), (d.toNat, 14), (a.toNat, 10), (b.toNat, 6), (p.toNat, 2)]
  | .vshr k y d a b p => pack 0x81400000 [(k.toNat, 27), (y.toNat, 18), (d.toNat, 14), (a.toNat, 10), (b.toNat, 6), (p.toNat, 2)]
  | .vsar k y d a b p => pack 0x81400001 [(k.toNat, 27), (y.toNat, 18), (d.toNat, 14), (a.toNat, 10), (b.toNat, 6), (p.toNat, 2)]
  | .vfshl k y d a b p => pack 0x81600000 [(k.toNat, 27), (y.toNat, 18), (d.toNat, 14), (a.toNat, 10), (b.toNat, 6), (p.toNat, 2)]
  | .vfshr k y d a b p => pack 0x81600001 [(k.toNat, 27), (y.toNat, 18), (d.toNat, 14), (a.toNat, 10), (b.toNat, 6), (p.toNat, 2)]
  | .vclz k y d a p => pack 0x81800000 [(k.toNat, 27), (y.toNat, 18), (d.toNat, 14), (a.toNat, 10), (p.toNat, 2)]
  | .vpopc k y d a p => pack 0x81A00000 [(k.toNat, 27), (y.toNat, 18), (d.toNat, 14), (a.toNat, 10), (p.toNat, 2)]
  | .vadds k y d a b p => pack 0x81C00000 [(k.toNat, 27), (y.toNat, 18), (d.toNat, 14), (a.toNat, 10), (b.toNat, 6), (p.toNat, 2)]
  | .vaddsn k y d a b p => pack 0x81C00001 [(k.toNat, 27), (y.toNat, 18), (d.toNat, 14), (a.toNat, 10), (b.toNat, 6), (p.toNat, 2)]
  | .vsubs k y d a b p => pack 0x81E00000 [(k.toNat, 27), (y.toNat, 18), (d.toNat, 14), (a.toNat, 10), (b.toNat, 6), (p.toNat, 2)]
  | .vsubsn k y d a b p => pack 0x81E00001 [(k.toNat, 27), (y.toNat, 18), (d.toNat, 14), (a.toNat, 10), (b.toNat, 6), (p.toNat, 2)]
  | .vabs k y d a p => pack 0x82000000 [(k.toNat, 27), (y.toNat, 18), (d.toNat, 14), (a.toNat, 10), (p.toNat, 2)]
  | .vabss k y d a p => pack 0x82000001 [(k.toNat, 27), (y.toNat, 18), (d.toNat, 14), (a.toNat, 10), (p.toNat, 2)]
  | .vcmp k y d a b p c => pack 0x82200000 [(k.toNat, 27), (y.toNat, 18), (d.toNat, 14), (a.toNat, 10), (b.toNat, 6), (p.toNat, 2), (c.toNat, 0)]
  | .vcmpn k y d a b p c => pack 0x82400000 [(k.toNat, 27), (y.toNat, 18), (d.toNat, 14), (a.toNat, 10), (b.toNat, 6), (p.toNat, 2), (c.toNat, 0)]
  | .vsel k y d a b p => pack 0x82600000 [(k.toNat, 27), (y.toNat, 18), (d.toNat, 14), (a.toNat, 10), (b.toNat, 6), (p.toNat, 2)]
  | .vaddi k y d a i p => pack 0x82800000 [(k.toNat, 27), (y.toNat, 18), (d.toNat, 14), (a.toNat, 10), (i.toNat, 2), (p.toNat, 0)]
  | .vshli k y d a s p => pack 0x82A00000 [(k.toNat, 27), (y.toNat, 18), (d.toNat, 14), (a.toNat, 10), (s.toNat, 2), (p.toNat, 0)]
  | .vshri k y d a s p => pack 0x82A00100 [(k.toNat, 27), (y.toNat, 18), (d.toNat, 14), (a.toNat, 10), (s.toNat, 2), (p.toNat, 0)]
  | .vsari k y d a s p => pack 0x82A00200 [(k.toNat, 27), (y.toNat, 18), (d.toNat, 14), (a.toNat, 10), (s.toNat, 2), (p.toNat, 0)]
  | .vbcast k y d a p => pack 0x82C00000 [(k.toNat, 27), (y.toNat, 18), (d.toNat, 14), (a.toNat, 10), (p.toNat, 2)]
  | .vbcastVec k y d a p => pack 0x82C00001 [(k.toNat, 27), (y.toNat, 18), (d.toNat, 14), (a.toNat, 10), (p.toNat, 2)]
  | .viota k y d p => pack 0x82E00000 [(k.toNat, 27), (y.toNat, 18), (d.toNat, 14), (p.toNat, 2)]
  | .viotaRank k y d p => pack 0x82E00001 [(k.toNat, 27), (y.toNat, 18), (d.toNat, 14), (p.toNat, 2)]
  | .vfadd k y d a b p r => pack 0x83000000 [(k.toNat, 27), (y.toNat, 18), (d.toNat, 14), (a.toNat, 10), (b.toNat, 6), (p.toNat, 2), (r.toNat, 0)]
  | .vfsub k y d a b p r => pack 0x83200000 [(k.toNat, 27), (y.toNat, 18), (d.toNat, 14), (a.toNat, 10), (b.toNat, 6), (p.toNat, 2), (r.toNat, 0)]
  | .vfmul k y d a b p r => pack 0x83400000 [(k.toNat, 27), (y.toNat, 18), (d.toNat, 14), (a.toNat, 10), (b.toNat, 6), (p.toNat, 2), (r.toNat, 0)]
  | .vfma k y d a b p r => pack 0x83600000 [(k.toNat, 27), (y.toNat, 18), (d.toNat, 14), (a.toNat, 10), (b.toNat, 6), (p.toNat, 2), (r.toNat, 0)]
  | .vfmin k y d a b p n => pack 0x83800000 [(k.toNat, 27), (y.toNat, 18), (d.toNat, 14), (a.toNat, 10), (b.toNat, 6), (p.toNat, 2), (n.toNat, 0)]
  | .vfmax k y d a b p n => pack 0x83A00000 [(k.toNat, 27), (y.toNat, 18), (d.toNat, 14), (a.toNat, 10), (b.toNat, 6), (p.toNat, 2), (n.toNat, 0)]
  | .vfdiv k y d a b p r => pack 0x83C00000 [(k.toNat, 27), (y.toNat, 18), (d.toNat, 14), (a.toNat, 10), (b.toNat, 6), (p.toNat, 2), (r.toNat, 0)]
  | .vfsqrt k y d a p r => pack 0x83E00000 [(k.toNat, 27), (y.toNat, 18), (d.toNat, 14), (a.toNat, 10), (p.toNat, 2), (r.toNat, 0)]
  | .vfrsqrt k y d a p r => pack 0x84000000 [(k.toNat, 27), (y.toNat, 18), (d.toNat, 14), (a.toNat, 10), (p.toNat, 2), (r.toNat, 0)]
  | .vfexp2 k y d a p r => pack 0x84200000 [(k.toNat, 27), (y.toNat, 18), (d.toNat, 14), (a.toNat, 10), (p.toNat, 2), (r.toNat, 0)]
  | .vflog2 k y d a p r => pack 0x84400000 [(k.toNat, 27), (y.toNat, 18), (d.toNat, 14), (a.toNat, 10), (p.toNat, 2), (r.toNat, 0)]
  | .vfcmp k y d a b p c => pack 0x84600000 [(k.toNat, 27), (y.toNat, 18), (d.toNat, 14), (a.toNat, 10), (b.toNat, 6), (p.toNat, 2), (c.toNat, 0)]
  | .vfabs k y d a p => pack 0x84800000 [(k.toNat, 27), (y.toNat, 18), (d.toNat, 14), (a.toNat, 10), (p.toNat, 2)]
  | .vfneg k y d a p => pack 0x84800001 [(k.toNat, 27), (y.toNat, 18), (d.toNat, 14), (a.toNat, 10), (p.toNat, 2)]
  | .vfclass k y d a p => pack 0x84A00000 [(k.toNat, 27), (y.toNat, 18), (d.toNat, 14), (a.toNat, 10), (p.toNat, 2)]
  | .vcvt k f s d a p m => pack 0x84C00000 [(k.toNat, 27), (f.toNat, 17), (s.toNat, 13), (d.toNat, 9), (a.toNat, 5), (p.toNat, 1), (m.toNat, 0)]
  | .vquant k y d a q => pack 0x84E00000 [(k.toNat, 27), (y.toNat, 18), (d.toNat, 14), (a.toNat, 10), (q.toNat, 0)]
  | .vdequant k y d a q => pack 0x85000000 [(k.toNat, 27), (y.toNat, 18), (d.toNat, 14), (a.toNat, 10), (q.toNat, 0)]
  | .vred k y d a o p n => pack 0x85400000 [(k.toNat, 27), (y.toNat, 18), (d.toNat, 14), (a.toNat, 10), (o.toNat, 6), (p.toNat, 2), (n.toNat, 0)]
  | .vgred k y d a o g c n => pack 0x85600000 [(k.toNat, 27), (y.toNat, 18), (d.toNat, 14), (a.toNat, 10), (o.toNat, 6), (g.toNat, 2), (c.toNat, 1), (n.toNat, 0)]
  | .vscan k y d a o p e n => pack 0x85800000 [(k.toNat, 27), (y.toNat, 18), (d.toNat, 14), (a.toNat, 10), (o.toNat, 6), (p.toNat, 2), (e.toNat, 1), (n.toNat, 0)]
  | .vslideup k y d a b s c => pack 0x85A00000 [(k.toNat, 27), (y.toNat, 18), (d.toNat, 14), (a.toNat, 10), (b.toNat, 6), (s.toNat, 2), (c.toNat, 1)]
  | .vslidedn k y d a b s c => pack 0x85A00001 [(k.toNat, 27), (y.toNat, 18), (d.toNat, 14), (a.toNat, 10), (b.toNat, 6), (s.toNat, 2), (c.toNat, 1)]
  | .vperm k y d a b p z => pack 0x85C00000 [(k.toNat, 27), (y.toNat, 18), (d.toNat, 14), (a.toNat, 10), (b.toNat, 6), (p.toNat, 2), (z.toNat, 0)]
  | .vziplo k y d a b p => pack 0x85E00000 [(k.toNat, 27), (y.toNat, 18), (d.toNat, 14), (a.toNat, 10), (b.toNat, 6), (p.toNat, 2)]
  | .vziphi k y d a b p => pack 0x85E00001 [(k.toNat, 27), (y.toNat, 18), (d.toNat, 14), (a.toNat, 10), (b.toNat, 6), (p.toNat, 2)]
  | .vunzipe k y d a b p => pack 0x85E00002 [(k.toNat, 27), (y.toNat, 18), (d.toNat, 14), (a.toNat, 10), (b.toNat, 6), (p.toNat, 2)]
  | .vunzipo k y d a b p => pack 0x85E00003 [(k.toNat, 27), (y.toNat, 18), (d.toNat, 14), (a.toNat, 10), (b.toNat, 6), (p.toNat, 2)]
  | .vcompress k y d a p e => pack 0x86000000 [(k.toNat, 27), (y.toNat, 18), (d.toNat, 14), (a.toNat, 10), (p.toNat, 2), (e.toNat, 0)]
  | .vexpand k y d a p e => pack 0x86200000 [(k.toNat, 27), (y.toNat, 18), (d.toNat, 14), (a.toNat, 10), (p.toNat, 2), (e.toNat, 0)]
  | .plogic k f d a b => pack 0x86400000 [(k.toNat, 27), (f.toNat, 18), (d.toNat, 14), (a.toNat, 10), (b.toNat, 6)]
  | .psetFirsti k y d i => pack 0x86600000 [(k.toNat, 27), (y.toNat, 18), (d.toNat, 14), (i.toNat, 2)]
  | .psetFirst k y d a => pack 0x86600001 [(k.toNat, 27), (y.toNat, 18), (d.toNat, 14), (a.toNat, 10)]
  | .psetRange k y d a c => pack 0x86600002 [(k.toNat, 27), (y.toNat, 18), (d.toNat, 14), (a.toNat, 10), (c.toNat, 2)]
  | .pcnt k y d a p => pack 0x86800000 [(k.toNat, 27), (y.toNat, 18), (d.toNat, 14), (a.toNat, 10), (p.toNat, 2)]
  | .pfirst k y d a p => pack 0x86A00000 [(k.toNat, 27), (y.toNat, 18), (d.toNat, 14), (a.toNat, 10), (p.toNat, 2)]
  | .pfirstLast k y d a p => pack 0x86A00001 [(k.toNat, 27), (y.toNat, 18), (d.toNat, 14), (a.toNat, 10), (p.toNat, 2)]
  | .vmovwPtov k y d a b => pack 0x86C00000 [(k.toNat, 27), (y.toNat, 18), (d.toNat, 14), (a.toNat, 10), (b.toNat, 6)]
  | .vmovwVtop k y d a b => pack 0x86C00001 [(k.toNat, 27), (y.toNat, 18), (d.toNat, 14), (a.toNat, 10), (b.toNat, 6)]
  | .vmovwVtow k y d a => pack 0x86C00002 [(k.toNat, 27), (y.toNat, 18), (d.toNat, 14), (a.toNat, 10)]
  | .mgo k x w z => pack 0x87000000 [(k.toNat, 27), (x.toNat, 14), (w.toNat, 11), (z.toNat, 0)]
  | .mgog k x w g z => pack 0x87200000 [(k.toNat, 27), (x.toNat, 14), (w.toNat, 11), (g.toNat, 2), (z.toNat, 0)]
  | .mouter k y l a b h j => pack 0x87400000 [(k.toNat, 27), (y.toNat, 18), (l.toNat, 10), (a.toNat, 6), (b.toNat, 2), (h.toNat, 1), (j.toNat, 0)]
  | .mvec k y l d b h j => pack 0x87600000 [(k.toNat, 27), (y.toNat, 18), (l.toNat, 10), (d.toNat, 6), (b.toNat, 2), (h.toNat, 1), (j.toNat, 0)]
  | .aczero k n l => pack 0x87800000 [(k.toNat, 27), (n.toNat, 8), (l.toNat, 2)]
  | .acrd k n l => pack 0x87800001 [(k.toNat, 27), (n.toNat, 8), (l.toNat, 2)]
  | .acwr k n l => pack 0x87800002 [(k.toNat, 27), (n.toNat, 8), (l.toNat, 2)]
  | .acpin k x w n l => pack 0x87A00000 [(k.toNat, 27), (x.toNat, 17), (w.toNat, 14), (n.toNat, 8), (l.toNat, 2)]
  | .acfree k n l => pack 0x87A00001 [(k.toNat, 27), (n.toNat, 8), (l.toNat, 2)]
  | .acspill k n l => pack 0x87A00002 [(k.toNat, 27), (n.toNat, 8), (l.toNat, 2)]
  | .acfill k w n l => pack 0x87A00003 [(k.toNat, 27), (w.toNat, 14), (n.toNat, 8), (l.toNat, 2)]
  | .fwstep k f => pack 0x87C00000 [(k.toNat, 27), (f.toNat, 2)]
  | .fwchunk k c m => pack 0x87C00001 [(k.toNat, 27), (c.toNat, 6), (m.toNat, 2)]
  | .assay k w f g => pack 0x87E00000 [(k.toNat, 27), (w.toNat, 11), (f.toNat, 4), (g.toNat, 2)]
  | .mremap k w i d s => pack 0x87E00001 [(k.toNat, 27), (w.toNat, 14), (i.toNat, 4), (d.toNat, 3), (s.toNat, 2)]
  | .mshrink k w i d => pack 0x87E00002 [(k.toNat, 27), (w.toNat, 14), (i.toNat, 4), (d.toNat, 3)]
  | .issueBundle => 0xFFFFFFFF
  | .wfiWake => 0xFFFFFFFF
  | .threadEnd => 0xFFFFFFFF
  | .shufStep => 0xFFFFFFFF
  | .segDeadline => 0xFFFFFFFF
  | .sectorLand => 0xFFFFFFFF
  | .remoteBarrierSignal => 0xFFFFFFFF
  | .nestComplete => 0xFFFFFFFF
  | .queueDeadlock => 0xFFFFFFFF
  | .uiDelivery => 0xFFFFFFFF
  | .clpmQuiesce => 0xFFFFFFFF
  | .clpmSave => 0xFFFFFFFF
  | .gateClk => 0xFFFFFFFF
  | .gateRail => 0xFFFFFFFF
  | .ungateRail => 0xFFFFFFFF
  | .ungateClk => 0xFFFFFFFF
  | .clpmRestore => 0xFFFFFFFF
  | .clpmRelease => 0xFFFFFFFF
  | .clpmCommandComplete => 0xFFFFFFFF
  | .pgoodTimeout => 0xFFFFFFFF
  | .clpmWake => 0xFFFFFFFF
  | .fwtimerExpire => 0xFFFFFFFF
  | .bar0MirrorWrite => 0xFFFFFFFF
  | .modrst => 0xFFFFFFFF
  | .fwdoorbell => 0xFFFFFFFF
  | .read64 => 0xFFFFFFFF
  | .write64 => 0xFFFFFFFF
  | .mgmtOwnerWrite => 0xFFFFFFFF
  | .linkdown => 0xFFFFFFFF
  | .powerOnReset => 0xFFFFFFFF
  | .railPgoodTimeout => 0xFFFFFFFF
  | .moduleReset => 0xFFFFFFFF
  | .fireflyReset => 0xFFFFFFFF
  | .bootRom => 0xFFFFFFFF
  | .attestRequest => 0xFFFFFFFF
  | .throttlePeriod => 0xFFFFFFFF
  | .fastlim => 0xFFFFFFFF
  | .thermlim => 0xFFFFFFFF
  | .thermalCut => 0xFFFFFFFF
  | .securityAlarm => 0xFFFFFFFF
  | .hostBar2Write => 0xFFFFFFFF
  | .launchDoorbell => 0xFFFFFFFF
  | .launchReceive => 0xFFFFFFFF
  | .launchReplyTimeout => 0xFFFFFFFF
  | .dispatchSelect => 0xFFFFFFFF
  | .nodeComplete => 0xFFFFFFFF
  | .cooperativePoint => 0xFFFFFFFF
  | .forcedPreempt => 0xFFFFFFFF
  | .saveDeadline => 0xFFFFFFFF
  | .deathwatch => 0xFFFFFFFF
  | .createCtx => 0xFFFFFFFF
  | .teardownCtx => 0xFFFFFFFF
  | .preemptCtx => 0xFFFFFFFF
  | .haltCtx => 0xFFFFFFFF
  | .resumeCtx => 0xFFFFFFFF
  | .stepThread => 0xFFFFFFFF
  | .tlbinv => 0xFFFFFFFF
  | .tlbinvDone => 0xFFFFFFFF
  | .fqresp => 0xFFFFFFFF
  | .repairOnRead => 0xFFFFFFFF
  | .repairTimeout => 0xFFFFFFFF
  | .planishVisit => 0xFFFFFFFF
  | .combineTimeout => 0xFFFFFFFF
  | .lineDepart => 0xFFFFFFFF
  | .postedWriteReceive => 0xFFFFFFFF
  | .postedAck => 0xFFFFFFFF
  | .postedTimeout => 0xFFFFFFFF
  | .remoteLoadReceive => 0xFFFFFFFF
  | .remoteLoadTimeout => 0xFFFFFFFF
  | .flitReceive => 0xFFFFFFFF
  | .linkDown => 0xFFFFFFFF
  | .fabSwitch => 0xFFFFFFFF
  | .fabSwitchApply => 0xFFFFFFFF
  | .reductionContribution => 0xFFFFFFFF
  | .reductionDeadline => 0xFFFFFFFF
  | .reductionResult => 0xFFFFFFFF
  | .rfreeFrameEnd => 0xFFFFFFFF
  | .deltaReceive => 0xFFFFFFFF
  | .deltaAck => 0xFFFFFFFF
  | .voteReceive => 0xFFFFFFFF
  | .decisionReceive => 0xFFFFFFFF
  | .decisionApply => 0xFFFFFFFF
  | .heartbeatReceive => 0xFFFFFFFF
  | .lossDeclare => 0xFFFFFFFF
  | .lostNotice => 0xFFFFFFFF
  | .recoveryReport => 0xFFFFFFFF
  | .joinGroup => 0xFFFFFFFF
  | .leaveGroup => 0xFFFFFFFF
  | .startSource => 0xFFFFFFFF
  | .stopSource => 0xFFFFFFFF
  | .recastUnit => 0xFFFFFFFF
  | .exportShard => 0xFFFFFFFF
  | .restoreShard => 0xFFFFFFFF
  | .cancelExport => 0xFFFFFFFF
  | .healthEvent => 0xFFFFFFFF
  | .ffReadHallmark => 0xFFFFFFFF
  | .ffReadInfield => 0xFFFFFFFF
  | .ffReadHealth => 0xFFFFFFFF
  | .vmargWrite => 0xFFFFFFFF
  | .vmargSettled => 0xFFFFFFFF
  | .linkMarginStart => 0xFFFFFFFF
  | .linkMarginDone => 0xFFFFFFFF
  | .hostLinkRecovery => 0xFFFFFFFF
  | .fabricLinkUp => 0xFFFFFFFF
  | .heartbeatSend => 0xFFFFFFFF
  | .frameTick => 0xFFFFFFFF
  | .powerLoss => 0xFFFFFFFF
  | .fireflyMailbox => 0xFFFFFFFF
  | .arrayFault => 0xFFFFFFFF
  | .pageRequestResponse => 0xFFFFFFFF
  | .reconstructRequest => 0xFFFFFFFF

/-- The syllable of an instruction. -/
def encodeSyl (i : Instr) : Syl := BitVec.ofNat 32 (encode i)

/-- The slot in which a bare 32-bit word is read when nothing else says it: a control-subset word in slot C; a word with the
half bit set in slot C where one of its token bits 30:27 is set and it decodes there; then in W, L, S and C, the first that
decodes it. DESIGN CHOICE (log entry 2): the words of the private spaces overlap, and the opcode table names no slot. -/
def guessSlot (w : Nat) : Slot :=
  if bits w 31 1 == 0 then .c
  else if bits w 27 4 != 0 && (decodeNat .c w).isSome then .c
  else if (decodeNat .w w).isSome then .w
  else if (decodeNat .l w).isSome then .l
  else if (decodeNat .s w).isSome then .s
  else .c

/-- The instruction this decoder reads from a bare 32-bit word of the opcode table, in the slot `guessSlot` gives. A syllable is one 32-bit little-endian word (R16), so bit 0 of the table is bit 0 of the word. -/
def decodeTableWord (nbits w : Nat) : Option Instr :=
  if nbits = 32 then decodeNat (guessSlot w) (w % 2 ^ 32) else none

end Sys2Proof
end

