-- ==== Sys2Proof/Config.lean ====
section
/-! DEFINITION. What the spec leaves to the implementation: the free values and the functions the spec names but does not define. None has a body, so no proof can see a value of it. -/

namespace Sys2Proof.Config

/-- The public key, 48 bytes, whose SHAKE256 hash is fused (R121): the spec does not say where the boot ROM finds the key itself; the argument is the hash.
DESIGN CHOICE (log entry 19), safe. -/
opaque bootKey : BitVec 512 → List Byte
/-- The signature of an attestation report under the module identity key (R123), over M0, BOOT_STAT and a nonce. -/
opaque reportSignature : List Byte → List Byte
/-- The hash a heartbeat carries of the sender's configuration (R428): the spec names no function. -/
opaque configHash : List Word → Word
/-- The measured value of a rail in mV (R455), a physical quantity; the first argument numbers the readings. -/
opaque railReading : Nat → Nat → BitVec 16
/-- The bytes of a log entry in Firefly's MRAM (R104, R116, R125): the spec gives their number, 64, and not their layout. The arguments are
the kind of event, the entry's number, and what the event names (R358: the two sets of tiles and their signatures). -/
opaque logEntry : Nat → Nat → List Nat → List Byte
/-- The bytes of a health event in a context's event log (R97): the spec says that it names blocks, not how. The arguments are the blocks (tile, number, tag each) and the
event's number. -/
opaque blockEvent : List Nat → Nat → List Byte
/-- A byte of a save frame's header or of a cooperative save's thread area (R368, R371), whose values the spec names without their places: the values and the byte's offset. -/
opaque frameByte : List Nat → Nat → Byte
/-- What a byte holds whose contents the spec calls lost (R95, R310); the argument numbers these bytes. -/
opaque lostByte : Nat → Byte
/-- Whether the logic rail of a cluster reaches regulation when it is raised (R92), a physical fact; the arguments are the cluster (8 + r for the module's rail r at power-on, R114) and the raising's number. -/
opaque railGood : Nat → Nat → Bool
/-- The counts of a margin measurement and of an assay's failing words (R452, R458), which physics decides; the argument numbers the readings. -/
opaque counted : Nat → BitVec 32
end Sys2Proof.Config
end

