-- ==== Sys2Proof/Machine/State.lean ====
section
/-! DEFINITION. The state of the AZ960 module as plain data: tiles, threads, engines, memories, the dispatcher, contexts, the
fabric, the coding group, the service tiles and the module's edges; the reasons a step can stop; and the state after reset. -/

namespace Sys2Proof.Machine

open Host (Cell)

/-- Why the machine stops with a fault. DESIGN CHOICE (log entry 122), safe. -/
inductive Fault where
  /-- The module has no power: the 48 V input is removed or Firefly has cut a main rail, so nothing executes (R114, R116).
  Raised by `step` when no compute die is powered and no event is on the agenda. Safe: no claim about a running machine follows from it. -/
  | unpowered
  deriving DecidableEq, Repr

/-- Why the machine gives an instruction no meaning. -/
inductive Refusal where
  /-- The instruction has no meaning yet. Raised by an arm of `exec`. Safe. -/
  | notModelled (mnemonic : String)
  /-- The agenda holds something that is not a well-formed event: an instruction of a stream, or an event that names a tile, port
  or entry that does not exist. Raised by `step`. Safe: nothing outside the machine can make such an event. -/
  | notAnEvent
  deriving DecidableEq, Repr

/-! ## Memory -/

/-- A byte memory in canonical form: addresses strictly rising, no listed byte 0; an unlisted address reads 0. -/
structure Memory where
  cells : List Cell
  deriving DecidableEq, Repr, Inhabited

/-- A byte memory with a poison bit for each aligned unit of 32 bytes (R204, R210): `poison` lists the poisoned units' numbers. -/
structure PMem where
  mem    : Memory
  poison : List Nat
  deriving DecidableEq, Repr, Inhabited

/-! ## A thread -/

/-- An entry of a loop stack (R71, R74): bundle addresses in the C stream, positions in the replay buffer in an engine stream. -/
structure LoopEnt where
  start     : Word
  last      : Word
  remaining : Word
  index     : Word
  deriving DecidableEq, Repr, Inhabited

/-- The shadow nest and group tables (R293, R299), or a capture of them (R294). -/
structure NestTab where
  nctl : Word
  la   : Vector Word 6
  lb   : Vector Word 6
  gtab : Vector Word 64
  deriving DecidableEq, Repr

/-- A syllable in a macro-op queue or a replay buffer (R18, R74), with the nest capture of an MGO or MGOG (R294), whether an open
segment covers it (R410: the segment's number, 0 for none), and the progress of a started syllable that is held: the steps of FWCHUNK, which a stop keeps (R336), the rows of WRADV, what WFLUSH waits for, and
`[1]` for an array syllable between two refills. -/
structure QEnt where
  syl  : Syl
  cap  : Option NestTab
  seg  : Nat
  prog : List Nat
  deriving DecidableEq, Repr

/-- One engine stream of a thread: its macro-op queue (R19), replay buffer and loop stack (R74), the replay position of its next
syllable, and how many coming syllables a loop of count 0 discards. -/
structure Engine where
  q     : List QEnt
  rb    : List QEnt
  loops : List LoopEnt
  pos   : Nat
  skip  : Nat
  deriving DecidableEq, Repr, Inhabited

/-- The latched nest of a thread (R296, R302): its capture, the views it latched, X(w), the token pushes it owes, the number of the segment that covers it, and whether an array fault
of it is still to be delivered (R415). -/
structure Nest where
  tab   : NestTab
  view  : Word
  aview : Word
  x     : Word
  zinit : Bool
  group : Option Nat
  toks  : BitVec 2
  seg   : Nat
  fault : Bool
  deriving DecidableEq, Repr

/-- The kinds of data movement in flight (R231, R236). -/
inductive CmdKind where
  | cpin | cpinb | gather | cpout | cploc | scatter | cprem | ringRow
  deriving DecidableEq, Repr, Inhabited

/-- A byte that a copy moves, with whether it carries poison (R228). -/
abbrev PByte := Byte × Bool

/-- A copy command in flight (R222): its operands as read at acceptance, its byte count, the bytes that a GATHER has read of the element that its next sector goes on with, the sectors landed, the sectors sent to a
peer and not yet acknowledged and the cycle the last one left, the fault tag it waits on (R225) and the address that faulted, and whether it has stopped issuing sectors (R363, R370, R377). -/
structure Cmd where
  id     : Nat
  kind   : CmdKind
  queue  : Slot
  dst    : Word
  src    : Word
  len    : Word
  bar    : Word
  local_ : Bool
  pol    : Bool
  total  : Nat
  landed : List Nat
  sent   : List Nat
  since  : Nat
  wait   : Option Nat
  stop   : Bool
  cols   : List Nat
  ring   : Nat
  req    : Option RemoteReq
  peer   : Nat
  rest   : List PByte
  va     : Word
  deriving DecidableEq, Repr, Inhabited

/-- A window ring (R214, R236): the descriptor, the head, the next row to fetch, and the faults deferred by row (R215). -/
structure Ring where
  valid  : Bool
  base   : Word
  pitch  : Word
  n      : Nat
  slot0  : Nat
  bar    : Nat
  b      : Nat
  s      : Nat
  l      : Nat
  head   : Nat
  next   : Nat
  faults : List (Nat × Nat × Word)
  deriving DecidableEq, Repr, Inhabited

/-- A shuffle program handed to the shuffle engine (R240, R242): its address, barrier operand, parameter, next step and flags. -/
structure ShufProg where
  id    : Nat
  addr  : Nat
  bar   : Word
  par   : Word
  step  : Nat
  flags : BitVec 6
  stop  : Bool
  deriving DecidableEq, Repr, Inhabited

/-- An open containment region (R414); `cmd` is the number of the first command accepted inside it (R416). -/
structure Region where
  handler : Word
  tok     : Word
  depth   : Nat
  ui      : Bool
  cmd     : Nat
  deriving DecidableEq, Repr, Inhabited

/-- The segment of a thread (R409, R413), with its number among the thread's segments; `sig` is the CRC register before the final XOR, `budget` whether a budget was given, `bad` the INFO of a mismatch
whose trap is due at the boundary after SEGEND's bundle, 0 for none; `arrays` the sub-arrays that its syllables computed on and `lanes` whether vector syllables ran (R452). -/
structure Segment where
  isOpen : Bool
  count  : BitVec 40
  sig    : BitVec 32
  left   : BitVec 40
  budget : Bool
  bad    : Nat
  id     : Nat
  arrays : List Nat
  lanes  : Bool
  deriving DecidableEq, Repr, Inhabited

/-- A line of a combining buffer (R386): its window offset, byte mask and data, the peer and the target of its first byte, whether it is to be sent, and the
streams that wait for its departure (R387). -/
structure Line where
  off  : Nat
  mask : BitVec 64
  data : BitVec 512
  send : Bool
  waits : List Slot
  dst  : BitVec 20
  req  : RemoteReq
  deriving DecidableEq, Repr, Inhabited

/-- The bytes of a store that a combining buffer has not yet taken, by window offset, because a line must leave first (R387): the stream that waits, the peer and the target of window offset 0, and
whether the lines they come to are to be sent at once. -/
structure PendStore where
  slot  : Slot
  dst   : BitVec 20
  req   : RemoteReq
  cells : List Cell
  flush : Bool
  deriving DecidableEq, Repr, Inhabited

/-- A posted flit not yet acknowledged (R387, R388): its number, window offset, the cycle it left and its peer. -/
structure PostedFlit where
  num   : Nat
  off   : Nat
  since : Nat
  dst   : BitVec 20
  deriving DecidableEq, Repr, Inhabited

/-- An alias window of a thread (R219, R386 to R388). The lines stand in the order of their allocation; `flits` are the posted flits not yet acknowledged;
`idle` counts the cycles since the last store to it; `pend` holds the stores that wait for a line to leave. -/
structure Window where
  handle : BitVec 16
  bound  : Bool
  limit  : BitVec 10
  lines  : List Line
  flits  : List PostedFlit
  wstat  : Word
  idle   : Nat
  pend   : List PendStore
  deriving DecidableEq, Repr, Inhabited

/-- A remote request a stream waits on (R389, R255, R393): not yet answered, answered, or failed. -/
inductive Answer where
  | waiting
  | bytes (poison : Bool) (data : List Byte)
  | word (code : Nat) (lo hi : Word)
  | failed
  deriving DecidableEq, Repr, Inhabited

/-- A remote request of a stream and its answer; `since` is the cycle it was sent, `kept` the bytes that a remote load found in the combining buffer, by place (R389). -/
structure Remote where
  id     : Nat
  stream : Slot
  since  : Nat
  ans    : Answer
  kept   : List (Option Byte)
  deriving DecidableEq, Repr, Inhabited

/-- What a held C syllable keeps from before a stop (R462). -/
inductive Held where
  | no
  /-- PHASE has arrived and waits for its instance's counter to leave `from_` (R259) -/
  | phase (level : Nat) (from_ : Nat)
  /-- RNDPREP has passed step 2 of round `r` (R405) -/
  | prep (r : Word)
  /-- RNDABORT has voted in round `r`, or holds on it (R407) -/
  | decide (r : Word)
  /-- RNDCOMMIT waits on round `r` (R406) -/
  | commit (r : Word)
  /-- LAUNCH has sent its packet (R393) -/
  | launch
  deriving DecidableEq, Repr, Inhabited

/-- What stands of a held syllable once it is stopped: of an RNDCOMMIT nothing, so that it executes again from the start (R462). -/
def Held.stands : Held → Held
  | .commit _ => .no
  | h => h

/-- Whether a thread exists and runs. -/
inductive TStatus where
  | absent | running | ended
  deriving DecidableEq, Repr, Inhabited

/-- The registers of a thread (R57, R192) and its two shadow banks of s24 to s31 (R251, R361). -/
structure Regs where
  x      : Vector Word 32
  la     : Vector Word 8
  wa     : Vector Word 8
  sa     : Vector Word 8
  p      : Vector PredVal 16
  shUi   : Vector Word 8
  shTrap : Vector Word 8
  deriving DecidableEq, Repr

/-- Where the C stream of a thread stands (R66, R71, R82, R87, R462). `exiting` is the drain of EXIT; `ctl` says that only the C syllable
of the bundle at `pc` is still to execute; `inWfi` that it is held in WFI;
`stack` the held syllables' marks that a running handler has put aside. -/
structure Flow where
  status  : TStatus
  rank    : Nat
  pc      : Word
  ctl     : Bool
  exiting : Bool
  inWfi   : Bool
  held    : Held
  stack   : List Held
  loops   : List LoopEnt
  deriving DecidableEq, Repr

/-- The data queues of a thread (R261) and its token FIFOs as TOKCFG shows them (R262, R263). -/
structure Queues where
  qlw : List VecVal
  qws : List (VecVal × PredVal)
  qcl : List Word
  qlc : List Word
  tok : Word
  deriving DecidableEq, Repr

/-- The user CSRs of a thread that software reads and writes (R38, R135, R139, R146, R154, R205, R206, R229, R246, R251, R330, R360). -/
structure UCsr where
  warn      : Word
  flags     : Word
  rmode     : BitVec 3
  srseed    : BitVec 32
  uivec     : Word
  uicause   : Word
  uimask    : Word
  uiepc     : Word
  uiCtl     : Bool
  tbreg     : Vector Word 16
  cperr     : Word
  cperraddr : Word
  gpstat    : BitVec 32
  tvec      : Word
  tcause    : Word
  tepc      : Word
  taddr     : Word
  vview     : Word
  tview     : Vector Word 16
  aview     : Word
  fwcfg     : Vector Word 4
  fwadr     : Vector Word 4
  fwstr     : Vector Word 4
  crcause   : Word
  craddr    : Word
  fwcause   : Word
  fwepc     : Word
  deriving DecidableEq, Repr

/-- A thread: registers, control flow, the three engine streams, queues, CSRs, the shadow nest table, the latched nest, the segment and
region state, windows, rings, commands and programs in flight, remote requests, the cycle after the one since which nothing but the thread itself could free it (R267; 0: not so), the number of the last store before its
latest FENCE (R80), the W1C bits that hardware has set in this tile cycle, by CSR number (R8), and the streams whose store has entered a combining buffer and is held until the lines it forced out
have left (R387). -/
structure Thread where
  regs    : Regs
  flow    : Flow
  eL      : Engine
  eW      : Engine
  eS      : Engine
  qs      : Queues
  csr     : UCsr
  ntab    : NestTab
  nest    : Option Nest
  seg     : Segment
  crs     : List Region
  win     : Vector Window 64
  rings   : Vector Ring 4
  cmds    : List Cmd
  nextCmd : Nat
  progs   : List ShufProg
  remotes : List Remote
  stuck   : Nat
  fenced  : Nat
  fresh   : List (Nat × Word)
  posting : List Slot
  deriving DecidableEq, Repr

/-! ## A tile -/

/-- The states of a logical accumulator block (R312). A migrating block is never seen between two steps of this model. -/
inductive BState where
  | free | owned | pinned | spilled | migrating
  deriving DecidableEq, Repr, Inhabited

/-- An entry of the ownership table (R312). `origin` is this model's: the tile that wrote a spilled block's image (DEDUCED, log entry 92). -/
structure OwnEnt where
  st     : BState
  pin    : Bool
  slot   : BitVec 2
  fmt    : Bool
  hold   : Bool
  thread : BitVec 2
  ctx    : BitVec 6
  tag    : BitVec 16
  sgen   : BitVec 16
  home   : Word
  origin : Nat
  deriving DecidableEq, Repr, Inhabited

/-- A physical unit that fails its test patterns (R306): target, kind (0 row, 1 column, slice or bank, 2 cell), index and row, and
whether it passes on retry. A fact of the silicon, held as data. -/
structure Defect where
  target : Nat
  kind   : Nat
  index  : Nat
  row    : Nat
  weak   : Bool
  deriving DecidableEq, Repr, Inhabited

/-- The shape of a tile's array (R287 to R291): the physical row of each logical row and the same for columns, the retired indices,
the generation, and the faults found and not cured (FPEND). -/
structure Geom where
  rows   : List Nat
  cols   : List Nat
  retR   : List Nat
  retC   : List Nat
  gen    : BitVec 16
  faulty : List Defect
  deriving DecidableEq, Repr, Inhabited

/-- The L1 of a tile (R207, R208): the superblocks held, oldest first, the valid lines, the bytes, the bytes stored since the fill, the
poisoned units. -/
structure L1 where
  blocks : List Nat
  valid  : List Nat
  data   : Memory
  dirty  : List Nat
  poison : List Nat
  deriving DecidableEq, Repr, Inhabited

/-- A tile. `ctx` is the context whose node holds it (0 on a service tile); `node` the dispatcher's number of that node; `twin` the primary
tile a shadow tile of a dual run mirrors (R358); `acc` the 4,096 elements of each physical
block 16 · slot + position by row, none listed for a block of zeros (R287); `bst` the B stratum by physical column. -/
structure Tile where
  th        : Vector Thread 4
  ctx       : Nat
  node      : Option Nat
  twin      : Option Nat
  localBase : BitVec 25
  domid     : Vector Word 5
  spad      : PMem
  tags      : List Nat
  regs      : PMem
  bst       : PMem
  acc       : Vector (List (BitVec 32)) 64
  own       : Vector OwnEnt 64
  geom      : Geom
  hallmark  : BitVec 256
  defects   : List Defect
  l1        : L1
  halted    : Bool
  sig       : Word
  deriving DecidableEq, Repr

/-! ## Contexts and the dispatcher -/

/-- A context record as the dispatcher last read it (R341). -/
structure CtxRec where
  dwact     : Bool
  brkHalt   : Bool
  weight    : Nat
  key       : BitVec 32
  ptroot    : Nat
  pasid     : BitVec 20
  wtCount   : Nat
  wtBase    : Word
  acsp      : Word
  logBase   : Word
  logLen    : Nat
  tvec      : Word
  localBase : BitVec 25
  saveBase  : Nat
  dwlimit   : Word
  domain    : BitVec 32
  frames    : Nat
  dtiles    : Nat
  deriving DecidableEq, Repr, Inhabited

/-- The states of a context (R341). -/
inductive CState where
  | none | idle | running | preempted | halted | savedLate | lost | dead
  deriving DecidableEq, Repr, Inhabited

/-- A phase counter of a domain instance and the threads that have arrived (R274); `level` is the scope code, `tiles` the member tiles on every module, `gone` those of
this module whose nodes have ended, `told` how many tiles of this module the other modules have been told of in this phase (DESIGN CHOICE, log entry 131). -/
structure PhaseInst where
  level   : Nat
  inst    : BitVec 32
  ctx     : Nat
  count   : Nat
  arrived : List Nat
  tiles   : Nat
  gone    : Nat
  told    : Nat
  deriving DecidableEq, Repr, Inhabited

/-- What another module has said of its share of a group's or a domain's instance (R259; DESIGN CHOICE, log entry 131): the instance, the context's key, whether it is the instance of a
dual run's shadow tiles, the phase, the tiles whose threads have all arrived or ended, those among them whose nodes have ended, and whether a thread has arrived. -/
structure PeerPhase where
  level : BitVec 3
  inst  : BitVec 32
  key   : BitVec 32
  twin  : Bool
  peer  : BitVec 20
  count : Nat
  tiles : Nat
  gone  : Nat
  live  : Bool
  deriving DecidableEq, Repr, Inhabited

/-- A declared range of a node (R349). -/
structure Range where
  base : Word
  len  : Nat
  out  : Bool
  deriving DecidableEq, Repr, Inhabited

/-- A stream transfer that belongs to a kernel node (R350). -/
structure Xfer where
  src : Word
  len : Nat
  dst : Nat
  deriving DecidableEq, Repr, Inhabited

/-- A kernel node's descriptor with its view records and its stream transfers (R349, R350). -/
structure NodeDesc where
  entry   : Word
  param   : Word
  tiles   : Nat
  minRows : Nat
  minCols : Nat
  group   : BitVec 32
  gtiles  : Nat
  views   : List (Nat × Word)
  ranges  : List Range
  xfers   : List Xfer
  deriving DecidableEq, Repr, Inhabited

/-- An accepted packet (R345, R348). `plan` holds its kernels not yet admitted, with their indices, once its descriptors have been read and checked; `wait` the fault tag
that the reading waits on and the node it concerns; `fail` the status, cause and node of a failure not yet recorded; `last` the index of the last node run; `since` the cycle it
was accepted in (R364). -/
structure Packet where
  id     : Nat
  queue  : Nat
  seq    : Nat
  ctx    : Nat
  nodes  : Nat
  prio   : Nat
  flags  : BitVec 8
  vector : Nat
  chain  : Word
  record : Word
  tag    : BitVec 32
  sig    : Word
  plan   : Option (List (Nat × NodeDesc))
  wait   : Option (Nat × Nat)
  fail   : Option (Nat × Nat × Nat)
  last   : Nat
  since  : Nat
  deriving DecidableEq, Repr, Inhabited

/-- Where a node stands (R350, R352 to R356, R368 to R373): waiting for others, ready, placed with its stream transfers under way, running, saved. -/
inductive NPhase where
  | waiting | ready | loading | running | saved
  deriving DecidableEq, Repr, Inhabited

/-- A thread's state kept for a saved node (R368, R370, R371), with its tile's table entries and, of a dual run, its tile's signature so far (R358).
DESIGN CHOICE (log entry 118), unsafe. -/
structure SavedTile where
  threads : Vector Thread 4
  tile    : Nat
  lrows   : Nat
  lcols   : Nat
  own     : Vector OwnEnt 64
  domid   : Vector Word 5
  sig     : Word
  deriving DecidableEq, Repr

/-- An admitted node (R352): its packet, its index there, the nodes it waits for, its tiles in ascending order and its shadow tiles, the
frame it became ready, its placement number, the effective level it was placed with (R353, R355), a pre-emption request with its cycle, the frame it is saved in and whether cooperatively, a trap in its shadow set, the
cycle its save began, what was saved of it, how many of its stream transfers have landed, and the fault tag they wait on. -/
structure Node where
  id     : Nat
  pkt    : Packet
  idx    : Nat
  desc   : NodeDesc
  deps   : List Nat
  phase  : NPhase
  tiles  : List Nat
  shadow : List Nat
  since  : Nat
  placed : Nat
  level  : Nat
  req    : Option Nat
  frame  : Option Nat
  coop   : Bool
  abort  : Bool
  saving : Option Nat
  saved  : List SavedTile
  xdone  : Nat
  wait   : Option Nat
  deriving DecidableEq, Repr

/-- A kill of a context that its teardown still has to perform (R361, R375, R376): the trap cause, whether the context is LOST rather than
KILLED, the node, and the fields of the fault record (R367). -/
structure Kill where
  cause  : Nat
  lost   : Bool
  node   : Option Nat
  addr   : Word
  tile   : Nat
  thread : Nat
  access : Nat
  deriving DecidableEq, Repr, Inhabited

/-- A context: its state, the state a halt interrupted, the record, LOGHEAD's count, the deathwatch count (R375), a PREEMPT in progress
(R343), a breakpoint whose halt is due (R361), whether its saves end in SAVED_LATE (R376), whether a syllable of it has retired in this tile cycle (R375), the cycle after the one of its last teardown (R364; 0: none), and the accumulator entries it keeps while off its tiles (R327) by tile index, and the map of R374: a tile's number, a node placed
on it and the tile's index in the node, latest last. DEDUCED (log entry 97), unsafe. -/
structure Ctx where
  st      : CState
  before  : CState
  record  : CtxRec
  dw      : Nat
  preempt : Bool
  brk     : Bool
  late    : Bool
  ret     : Bool
  down    : Nat
  kill    : Option Kill
  logHead : BitVec 32
  kept    : List (Nat × Vector OwnEnt 64)
  map     : List (Nat × Nat × Nat)
  deriving DecidableEq, Repr

/-- An entry of the device fault queue that has not been answered, or that waits for room (R367): its tag, the thread it concerns, its bytes, and whether it
has been appended. Tag 0 is for entries that need no answer. -/
structure PendFault where
  tag    : Nat
  tile   : Nat
  thread : Nat
  entry  : List Byte
  listed : Bool
  deriving DecidableEq, Repr, Inhabited

/-- The dispatcher (R342, R352, R353): its CSRs, accepted packets not yet finished, admitted nodes, deficits, current contexts, the last command's outcome, and the device fault queue's counters (R367). -/
structure Disp where
  ctl      : Word
  ctxtab   : Word
  lqtab    : Word
  dwlim    : Word
  fqbase   : Word
  clen     : BitVec 8
  error    : BitVec 4
  packets  : List Packet
  nodes    : List Node
  nextId   : Nat
  deficit  : Vector Nat 64
  cur      : Vector Nat 8
  tlbBusy  : Bool
  fqTail   : Word
  fqHead   : Word
  fqPend   : List PendFault
  nextTag  : Nat
  msix     : List Nat
  stopped  : Bool
  deriving DecidableEq, Repr

/-! ## Clusters and service tiles -/

/-- The CLPM group of a cluster (R90 to R98): the state code, the running command, the refused command's error, parked signals with their senders of this or another module, and the
service tile's list of pinned blocks (tile, block, context, tag) kept at SAVE (R97), the shapes that the remap settings in the records stand for with the origins of the blocks (DEDUCED, log entry 92), whether the tiles
are unreachable (R98), when the running command began, and the number of the last raising of the rail. -/
structure Cluster where
  st      : BitVec 4
  cmd     : BitVec 4
  busy    : Bool
  pgood   : Bool
  error   : BitVec 4
  wakereq : Bool
  retbase : Word
  parked  : List (RemoteReq × Option Origin × Option (BitVec 20 × Origin × Nat))
  pinned  : List (Nat × Nat × Nat × Nat)
  shapes  : List (Nat × Geom × List Nat)
  gated   : Bool
  since   : Nat
  raised  : Nat
  deriving DecidableEq, Repr, Inhabited

/-- The registers of one service tile (R106); `timerOn` says that the compare of FWTIMER has already set its bit. -/
structure Svc where
  fwtvec   : Word
  fwtimer  : Word
  wakepend : BitVec 8
  wakemask : BitVec 8
  timerOn  : Bool
  deriving DecidableEq, Repr, Inhabited

/-- The module's edges (R108 to R126): BAR0 registers, ownership, power, alarms, boot, Firefly and its answers, rails and keys. `svn` is the running image's,
`pubHash` the fused SHAKE256 hash of the public key (R121; its 512 bits are DESIGN CHOICE, log entry 160: the rule gives no length). `rails` are the rails that have reported power-good (R114): bit 0 STBY, 1 and
2 the SOC rails of the dies, 3 and 4 their SRAM rails, 5 to 16 those of the HBM stacks, 17 to 24 those of the clusters; `rising` are the rails that are enabled and have not reported yet. `hours` are the power-on
hours (R450). `aer` (an uncorrectable internal error reported), `bar2` (its size in GiB as a power of two) and `hostData` (what the host's last BAR2 read
returned) stand for the part of the PCIe configuration space and of the host link that the spec names. -/
structure Edge where
  apbase    : BitVec 10
  hosterr   : BitVec 17
  owner     : BitVec 2
  linkDown  : Bool
  seized    : Bool
  drops     : BitVec 8
  pwrCap    : BitVec 12
  pwrNow    : BitVec 12
  level     : Nat
  fastlim   : Bool
  thermlim  : Bool
  tmax      : BitVec 8
  tinlet    : BitVec 8
  alarmCfg  : BitVec 3
  alarmStat : BitVec 4
  alarmBusy : Bool
  bootStat  : Word
  keysGone  : Bool
  m0        : BitVec 512
  minSvn    : BitVec 32
  svn       : BitVec 32
  pubHash   : BitVec 512
  logHead   : Nat
  ffStatus  : Nat
  ffReply   : List Byte
  rails     : BitVec 25
  rising    : List (BitVec 5)
  aer       : Bool
  bar2      : BitVec 4
  hostData  : List Byte
  dead      : Bool
  fwHalt    : Bool
  hours     : BitVec 16
  revision  : BitVec 12
  deriving DecidableEq, Repr

/-- The margining registers (R455, R457), with each rail's applied offset and each port's running measurement: LMCTL as START latched it, and the frame that ends it (R458). -/
structure Margin where
  vmarg   : Vector Word 24
  vmctl   : BitVec 2
  applied : Vector (BitVec 8) 24
  lmctl   : Vector Word 24
  lmrun   : Vector (Option (BitVec 48 × Nat)) 24
  lmerr   : Vector Word 24
  lmcrc   : Vector Word 24
  lmlane  : Vector Word 24
  deriving DecidableEq, Repr

/-! ## The fabric -/

/-- The states of a reduction slot (R396). -/
inductive RState where
  | idle | opened | sent | done
  deriving DecidableEq, Repr, Inhabited

/-- A router reduction slot (R394 to R400, R444 to R446): who holds it, its configuration and tree entry, its epoch and state, the local
and the children's contributions of this epoch and of the next, the result, the status bits, and what arrived while unheld. -/
structure RSlot where
  holder : Option Nat
  cfg    : Word
  tree   : Word
  epoch  : BitVec 16
  st     : RState
  own    : Option Contribution
  kids   : List (Nat × Contribution)
  later  : List (Nat × Contribution)
  result : Option Contribution
  miss   : BitVec 24
  lmiss  : Bool
  kept   : List (Nat × Contribution)
  keptR  : List Contribution
  first  : Nat
  dying  : Bool
  deriving DecidableEq, Repr, Inhabited

/-- A flit the module originates or forwards, waiting for a slot its input owns (R382): input port 24 is local injection. `held`: it was originated in a frame that holds new open flits (R385). -/
structure OutFlit where
  input : Nat
  src   : BitVec 20
  dst   : BitVec 20
  hops  : Nat
  port  : Option Nat
  held  : Bool
  flit  : Flit
  deriving DecidableEq, Repr, Inhabited

/-- The fabric unit (R379 to R388): its CSRs, the ports whose links have been trained since reset (R457), the frame clock, the flits waiting to leave, those that have left, the reduction slots. -/
structure Fabric where
  id       : Word
  ext      : Word
  dom      : Word
  portA    : Word
  portB    : Word
  split    : Word
  sched    : Word
  route    : Word
  rtree    : Word
  switch   : List Word
  frame    : BitVec 48
  slot     : BitVec 13
  up       : BitVec 24
  usable   : BitVec 24
  failed   : BitVec 24
  trained  : BitVec 24
  hold     : Bool
  latesw   : Bool
  schederr : Bool
  rlate    : BitVec 32
  rquota   : Vector Word 8
  out      : List OutFlit
  sent     : List (Nat × OutFlit)
  rslots   : Vector RSlot 256
  nextId   : Nat
  deriving DecidableEq, Repr

/-! ## The coding group -/

/-- The round states of R408. -/
inductive GState where
  | none | opened | preparing | voted | applying | recovering | lost
  deriving DecidableEq, Repr, Inhabited

/-- A protected region (R402): its base and PROT's X(b) word, whether it entered in the current round, and whether UNPROT removes it. -/
structure PRegion where
  index  : Nat
  base   : Word
  pa     : List (Nat × Nat)
  spec   : Word
  fresh  : Bool
  going  : Bool
  deriving DecidableEq, Repr, Inhabited

/-- A holder's copy of an entry of a member's region table (R426): `fresh` the round that it entered in, until that round is decided, and `going` the round that removes it. -/
structure PeerRegion where
  member : BitVec 4
  index  : BitVec 6
  base   : Word
  spec   : Word
  fresh  : Option Word
  going  : Option Word
  deriving DecidableEq, Repr, Inhabited

/-- A protected write held for the next round, for LOGFULL or while the group recovers (R405, R426, R428). -/
structure HeldWrite where
  cells : List Cell
  deriving DecidableEq, Repr, Inhabited

/-- A read that waits for the coding group (R212): the physical atom, the cycle at which the attempt fails (0: it has failed), how far the request has
gone (0 not sent, 1 the members are asked, 2 the holders too), whether a program's own read waits, which consumes the poison of an attempt that has failed, and whether the atom
has just been found uncorrectable: that is reported as a poisoning when the attempt fails (R210). -/
structure Ask where
  atom     : Nat
  deadline : Nat
  sent     : Nat
  reads    : Bool
  found    : Bool
  deriving DecidableEq, Repr, Inhabited

/-- The coding group of the module (R402 to R408, R421 to R443). `asked` says that an RNDABORT has voted; `heard` the frame after each entry's last
heartbeat, 0 for none; `joined` the spares and replacements, each its entry, its module and whether it is rebuilt; `sel` the selections of a restore of
`selRound`, `restoring` that holders still rebuild after one. `units` are the recast units already rebuilt here; `asks` and `got` belong to repair-on-read,
`wants`, `frozen` to a rebuild source (requests that wait for acknowledgements, units held for a target), `sources`, `parts`, `pending` to a
rebuild target (its sources, the bytes that came by unit and sources, the units asked for). `expWait`: an export waits for an atom before it begins (R439); `holderUnits` are the
units that a replacement holder has rebuilt, by holder index (R440). -/
structure Group where
  cfg       : Word
  round     : Word
  cmdErr    : BitVec 4
  busy      : Bool
  st        : GState
  logFull   : Bool
  recast    : Bool
  lostSelf  : Bool
  mlost     : BitVec 16
  hlost     : BitVec 4
  log       : Word
  holders   : Vector Word 4
  members   : Vector Word 16
  domains   : Vector Word 5
  unrep     : Bool
  lastAbort : Bool
  lastRound : Word
  used      : Nat
  regions   : List PRegion
  held      : List HeldWrite
  unacked   : List (BitVec 2 × Delta)
  votes     : List (BitVec 4)
  decision  : Option (Word × Bool × BitVec 48 × Option Word)
  asked     : Bool
  heard     : Vector (BitVec 48) 20
  joined    : List (BitVec 5 × BitVec 20 × Bool)
  heldDelta : List (BitVec 20 × Delta)
  peerReg   : List PeerRegion
  reports   : List Report
  rcCfg     : Word
  rcActive  : Bool
  units     : List Nat
  expA      : Word
  expB      : Word
  expBusy   : BitVec 2
  expSlot   : Bool
  expRes    : BitVec 4
  expMiss   : BitVec 16
  expWait   : Bool
  restoring : Bool
  sel       : List (Nat × Option Nat × Bool)
  selRound  : Nat
  asks      : List Ask
  got       : List (BitVec 5 × Nat × Option (BitVec 256))
  wants     : List (Flit × BitVec 20)
  frozen    : List (Nat × BitVec 20)
  sources   : List Nat
  parts     : List (Nat × BitVec 20 × List Byte)
  pending   : List Nat
  holderUnits : List (Nat × Nat)
  deriving DecidableEq, Repr

/-! ## The module -/

/-- A byte that a store replaced on an executable page (R80): its place, the old byte, the writing thread (4 · tile + thread), the store's number, and the
threads that fetch the new byte. DEDUCED (log entry 22), unsafe. -/
structure StaleByte where
  place  : Nat
  old    : Byte
  writer : Nat
  num    : Nat
  seen   : List Nat
  deriving DecidableEq, Repr, Inhabited

/-- The stream or unit whose turn it is. -/
inductive Turn where
  | stream (sl : Slot)
  | copy | shuffle | array
  deriving DecidableEq, Repr, Inhabited

/-- Who acts next: a tile, its stream or unit, a thread of it, and how many threads have had the unit's offer in this cycle in vain. -/
structure Cur where
  tile   : Fin 130
  thread : Fin 4
  turn   : Turn
  tries  : Nat
  deriving DecidableEq, Repr

/-- How the syllable that `exec` ran last went: completed; completed with a transfer of control; held, to execute again; not issued because
earlier engine syllables must complete first (R85, R257); stopped by a trap; or the thread has begun to end (R87). -/
inductive SylRes where
  | done | jumped | held | waitIssue | trapped
  deriving DecidableEq, Repr, Inhabited

/-- Machine-wide progress counters of this model: the tile cycle, the turn, the thread that each stream and unit of each tile served last (R265, R266), the result of the last syllable, the events that are due, the input of the event that is running,
the plain-data counter to which the free values of Config are applied, the cycle of the last module reset (R106), and the W1C and RS bits of privileged registers that hardware has set in this tile cycle (R8). -/
structure Run where
  cycle  : Nat
  cur    : Cur
  served : Vector (Vector (Fin 4) 7) 130
  res    : SylRes
  agenda : List Event
  input  : Input
  free   : Nat
  cycle0 : Nat
  fresh  : List (Nat × Word)
  deriving DecidableEq, Repr

/-- What waits at a module for a tile (R374, R377): a flit with the module it came from, or a completion signal with its sender of this or of another module;
and what waits for the coding group (R212, R439). -/
inductive Arrival where
  | flit (f : Flit) (src : BitVec 20)
  | signal (req : RemoteReq) (who : Option Origin) (src : Option (BitVec 20 × Origin × Nat))
  /-- bytes that the hardware writes under a context's translation, whose tables wait for the coding group (R439) -/
  | write (c va : Nat) (bs : List Byte)
  /-- the host's read through BAR2 of an atom that the coding group has to supply (R212) -/
  | hostRead (off : BitVec 40) (len : BitVec 13)
  deriving DecidableEq, Repr

/-- An arrival that waits: for a halted context by its number (R377), for the coding group (64, R212) or for a node that is being saved (65 and its number, R374); and the
die whose buffer holds it. -/
structure HeldIn where
  key  : Nat
  die  : Nat
  what : Arrival
  deriving DecidableEq, Repr

/-- The memories outside the tiles (R103, R119, R209, R220): HBM, the two synchronisation SRAMs, host memory with its present pages,
the atoms the engines cache nothing of, the MRAM, and the bytes fetch does not see yet. DESIGN CHOICE (log entry 21), unsafe. -/
structure Mems where
  hbm      : PMem
  sync0    : Memory
  sync1    : Memory
  host     : Memory
  hostGone : List Nat
  mram     : Memory
  stale    : List StaleByte
  stores   : Nat
  phases   : List PhaseInst
  peerPh   : List PeerPhase
  heldIn   : List HeldIn
  deriving DecidableEq, Repr

/-- The state of the module. -/
structure State where
  tiles    : Vector Tile 130
  ctxs     : Vector Ctx 64
  disp     : Disp
  clusters : Vector Cluster 8
  svc      : Vector Svc 2
  edge     : Edge
  margin   : Margin
  fab      : Fabric
  grp      : Group
  mems     : Mems
  run      : Run
  deriving DecidableEq, Repr

end Sys2Proof.Machine

/-- A byte of a thread's area in a save frame after a forced save (R370, R371): the spec names what it holds of the thread, not where. -/
opaque Sys2Proof.Config.areaByte : Sys2Proof.Machine.Thread → Nat → Sys2Proof.Byte

namespace Sys2Proof.Machine

/-! ## The state after reset -/

def Memory.empty : Memory := ⟨[]⟩
def PMem.empty : PMem := ⟨⟨[]⟩, []⟩

/-- A vector of equal entries, by its list, so that the kernel can evaluate it. -/
def vrep (n : Nat) {α : Type} (a : α) : Vector α n := ⟨⟨List.replicate n a⟩, by simp⟩

def NestTab.reset : NestTab := ⟨0, vrep 6 0, vrep 6 0, vrep 64 0⟩
def Engine.empty : Engine := ⟨[], [], [], 0, 0⟩
def Window.reset : Window := ⟨0, false, 64, [], [], 0, 0, []⟩
def Ring.reset : Ring := ⟨false, 0, 0, 0, 0, 0, 64, 1, 1, 0, 0, []⟩
def Segment.closed : Segment := ⟨false, 0, 0xFFFFFFFF, 0, false, 0, 0, [], false⟩

/-- The registers after reset. The spec gives no reset value of s, la, wa, sa, the predicates and the shadow banks; they are 0 here, with p0
all ones (R192). DESIGN CHOICE (log entry 1), unsafe. -/
def Regs.reset : Regs :=
  { x := vrep 32 0, la := vrep 8 0, wa := vrep 8 0, sa := vrep 8 0, p := vrep 16 0, shUi := vrep 8 0, shTrap := vrep 8 0 }

def UCsr.reset : UCsr :=
  { warn := 0, flags := 0, rmode := 0, srseed := 1, uivec := 0, uicause := 0, uimask := 0, uiepc := 0, uiCtl := false, tbreg := vrep 16 0,
    cperr := 0, cperraddr := 0, gpstat := 0, tvec := 0, tcause := 0, tepc := 0, taddr := 0, vview := 0, tview := vrep 16 0, aview := 0,
    fwcfg := vrep 4 0, fwadr := vrep 4 0, fwstr := vrep 4 0, crcause := 0, craddr := 0, fwcause := 0, fwepc := 0 }

/-- TOKCFG holds 0x2108_4210 at reset: six enabled FIFOs with count 0 (R263). -/
def Queues.reset : Queues := ⟨[], [], [], [], 0x21084210⟩

def Flow.reset : Flow := ⟨.absent, 0, 0, false, false, false, .no, [], []⟩

/-- A thread that no kernel has been given (R57, R118). -/
def Thread.reset : Thread :=
  { regs := Regs.reset, flow := Flow.reset, eL := Engine.empty, eW := Engine.empty, eS := Engine.empty, qs := Queues.reset, csr := UCsr.reset,
    ntab := NestTab.reset, nest := none, seg := Segment.closed, crs := [], win := vrep 64 Window.reset, rings := vrep 4 Ring.reset, cmds := [],
    nextCmd := 0, progs := [], remotes := [], stuck := 0, fenced := 0, fresh := [], posting := [] }

def OwnEnt.free : OwnEnt := ⟨.free, false, 0, false, false, 0, 0, 0, 0, 0, 0⟩

/-- The shape of an array with no retired index: 256 by 256, sixteen spares each way (R289). -/
def Geom.full : Geom := ⟨List.range 256, List.range 256, [], [], 0, []⟩
def Geom.none : Geom := ⟨[], [], [], [], 0, []⟩

/-- A hallmark map of version 1 with no entry: byte 0 is 0x01 and byte 31 NOT(0x01) (R448). -/
def hallmarkClean : BitVec 256 := BitVec.ofNat 256 (0x01 + 0xFE * 2 ^ 248)

/-- A compute tile after reset. That the fused map is clean and no unit is defective is a DESIGN CHOICE (log entry 3): the spec leaves both to manufacture. -/
def Tile.reset : Tile :=
  { th := vrep 4 Thread.reset, ctx := 0, node := Option.none, twin := Option.none, localBase := 0, domid := vrep 5 0, spad := PMem.empty, tags := [],
    regs := PMem.empty, bst := PMem.empty, acc := vrep 64 [], own := vrep 64 OwnEnt.free, geom := Geom.full, hallmark := hallmarkClean, defects := [],
    l1 := ⟨[], [], Memory.empty, [], []⟩, halted := false, sig := 0 }

/-- A service tile after reset: no array (R102), LOCALBASE 0x200 (R86, R103). -/
def Tile.resetSvc : Tile := { Tile.reset with localBase := 0x200, geom := Geom.none }

def CtxRec.blank : CtxRec := ⟨false, false, 1, 0, 0, 0, 0, 0, 0, 0, 1, 0, 0, 0, 0, 0, 1, 0⟩
def Ctx.reset : Ctx := ⟨.none, .none, CtxRec.blank, 0, false, false, false, false, 0, Option.none, 0, [], []⟩

def Disp.reset : Disp :=
  { ctl := 0x0000004000200000, ctxtab := 0, lqtab := 0, dwlim := 0x1000000, fqbase := 0, clen := 0xFF, error := 0, packets := [], nodes := [],
    nextId := 0, deficit := vrep 64 0, cur := vrep 8 0, tlbBusy := false, fqTail := 0, fqHead := 0, fqPend := [], nextTag := 1, msix := [], stopped := false }

def Cluster.reset : Cluster := ⟨0, 0, false, true, 0, false, 0, [], [], [], false, 0, 0⟩

/-- FWTIMER is all ones and only CLWAKE is unmasked (R106). -/
def Svc.reset : Svc := ⟨0, BitVec.allOnes 64, 0, 1, false⟩

/-- The edges after reset. The fields the spec marks HW (the silicon revision, the fused minimum SVN, the key's hash) and the power-on hours
are 0 here: DESIGN CHOICE (log entry 4). -/
def Edge.reset : Edge :=
  { apbase := 0, hosterr := 0, owner := 0, linkDown := false, seized := false, drops := 0, pwrCap := 2700, pwrNow := 0, level := 0, fastlim := false,
    thermlim := false, tmax := 0, tinlet := 0, alarmCfg := 1, alarmStat := 0, alarmBusy := false, bootStat := 0, keysGone := false, m0 := 0, minSvn := 0, svn := 0,
    pubHash := 0, logHead := 0, ffStatus := 0, ffReply := [], rails := 0x1FFFFFF, rising := [], aer := false, bar2 := 10, hostData := [], dead := false, fwHalt := false, hours := 0, revision := 0 }

/-- VMARG reads SETTLED 1, LMCTL DWELL 1; LIMIT, NOMINAL and INUSE are HW fields and are 0, 0 and eight lanes here: DESIGN CHOICE (log entry 4). -/
def Margin.reset : Margin :=
  { vmarg := vrep 24 0x10000, vmctl := 0, applied := vrep 24 0, lmctl := vrep 24 0x100000000, lmrun := vrep 24 none, lmerr := vrep 24 0,
    lmcrc := vrep 24 0, lmlane := vrep 24 0xFF }

def RSlot.free : RSlot :=
  { holder := none, cfg := 0, tree := 0, epoch := 0, st := .idle, own := none, kids := [], later := [], result := none, miss := 0, lmiss := false,
    kept := [], keptR := [], first := 0, dying := false }

/-- FAB_ID.NDIM is 1 and every port map 0xF; no link is up before bring-up trains it (R380). -/
def Fabric.reset : Fabric :=
  { id := 0x100000, ext := 0, dom := 0, portA := BitVec.allOnes 64, portB := 0xFFFFFFFF, split := 0, sched := 0, route := 0, rtree := 0, switch := [],
    frame := 0, slot := 0, up := 0, usable := 0, failed := 0, trained := 0, hold := false, latesw := false, schederr := false, rlate := 0, rquota := vrep 8 0,
    out := [], sent := [], rslots := vrep 256 RSlot.free, nextId := 0 }

def Group.reset : Group :=
  { cfg := 0, round := 0, cmdErr := 0, busy := false, st := .none, logFull := false, recast := false, lostSelf := false, mlost := 0, hlost := 0, log := 0,
    holders := vrep 4 0, members := vrep 16 0, domains := vrep 5 0, unrep := false, lastAbort := false, lastRound := 0, used := 0, regions := [], held := [],
    unacked := [], votes := [], decision := none, asked := false, heard := vrep 20 0, joined := [], heldDelta := [], peerReg := [], reports := [], rcCfg := 0,
    rcActive := false, units := [], expA := 0, expB := 0, expBusy := 0, expSlot := false, expRes := 0, expMiss := 0, expWait := false, restoring := false, sel := [], selRound := 0, asks := [], got := [], wants := [], frozen := [], sources := [],
    parts := [], pending := [], holderUnits := [] }

/-- The memories after power-on: HBM, the SRAMs and host memory list nothing, the MRAM WEAKTH's default 4 (R453). That an unlisted byte reads 0 is a DESIGN CHOICE (log entry 5), unsafe. -/
def Mems.reset : Mems :=
  { hbm := PMem.empty, sync0 := Memory.empty, sync1 := Memory.empty, host := Memory.empty, hostGone := [], mram := ⟨[(0xAF0000, 4)]⟩, stale := [], stores := 0,
    phases := [], peerPh := [], heldIn := [] }

/-- The first turn is the C stream of thread 0 of tile 128, the boot tile; the boot ROM runs first (R121). DESIGN CHOICE (log entry 123), unsafe. -/
def Run.reset : Run :=
  { cycle := 0, cur := ⟨⟨128, by omega⟩, 0, .stream .c, 0⟩, served := vrep 130 (vrep 7 3), res := .done, agenda := [⟨.bootRom, .none⟩], input := .none, free := 0, cycle0 := 0, fresh := [] }

/-- The module right after a power-on reset (R9, R118, R121). DEDUCED (log entry 12), unsafe. DESIGN CHOICE (log entry 119), safe. -/
def State.reset : State :=
  { tiles := ⟨⟨List.replicate 128 Tile.reset ++ [Tile.resetSvc, Tile.resetSvc]⟩, by simp⟩, ctxs := vrep 64 Ctx.reset, disp := Disp.reset,
    clusters := vrep 8 Cluster.reset, svc := vrep 2 Svc.reset, edge := Edge.reset, margin := Margin.reset, fab := Fabric.reset, grp := Group.reset,
    mems := Mems.reset, run := Run.reset }

end Sys2Proof.Machine
end

