-- ==== Sys2Proof/Machine/Bits.lean ====
section
/-! DEFINITION. Bit fields of words, byte order, sign extension, CRC-32C (R15) and the field GF(2^8) of the coding group (R424). -/

namespace Sys2Proof.Machine

/-- NAME[lo+n-1:lo] of a word, as a number (R4). -/
def wbits (w : Word) (lo n : Nat) : Nat := w.toNat / 2 ^ lo % 2 ^ n

/-- Bit `i` of a word (R4). -/
def wbit (w : Word) (i : Nat) : Bool := w.toNat / 2 ^ i % 2 == 1

/-- A word with bits `lo+n-1..lo` replaced by `v` (reduced to `n` bits). -/
def wput (w : Word) (lo n v : Nat) : Word :=
  BitVec.ofNat 64 (w.toNat % 2 ^ lo + v % 2 ^ n * 2 ^ lo + w.toNat / 2 ^ (lo + n) * 2 ^ (lo + n))

/-- A word with bit `i` set. -/
def wset (w : Word) (i : Nat) : Word := w ||| BitVec.ofNat 64 (2 ^ i)

/-- A word with bit `i` cleared. -/
def wclr (w : Word) (i : Nat) : Word := w &&& ~~~BitVec.ofNat 64 (2 ^ i)

def wofNat (n : Nat) : Word := BitVec.ofNat 64 n
def wofBool (b : Bool) : Word := if b then 1 else 0
def natOfBool (b : Bool) : Nat := if b then 1 else 0

/-- Sext(x, n) as an integer (R12). -/
def sextInt (x n : Nat) : Int :=
  if n = 0 then 0 else if x % 2 ^ n < 2 ^ (n - 1) then (x % 2 ^ n : Nat) else (x % 2 ^ n : Nat) - (2 ^ n : Nat)

/-- Trunc(x, n) of an exact integer (R12), as a number. -/
def truncInt (x : Int) (n : Nat) : Nat := (x % (2 ^ n : Nat)).toNat

/-- Trunc(x, 64) of an exact integer. -/
def wofInt (x : Int) : Word := BitVec.ofNat 64 (truncInt x 64)

/-- A little-endian number from bytes in ascending address order (R4). -/
def leNat : List Byte → Nat
  | [] => 0
  | b :: r => b.toNat + 256 * leNat r

/-- The `n` low bytes of a number, little-endian (R4). -/
def leBytes : Nat → Nat → List Byte
  | 0, _ => []
  | n + 1, v => BitVec.ofNat 8 v :: leBytes n (v / 256)

/-- Bytes `off` to `off + n - 1` of a byte list, as a number. -/
def leAt (bs : List Byte) (off n : Nat) : Nat := leNat ((bs.drop off).take n)

/-- The smallest list order without repeats: insert a number into a rising list. -/
def insNat (a : Nat) : List Nat → List Nat
  | [] => [a]
  | b :: r => if a < b then a :: b :: r else if a = b then b :: r else b :: insNat a r

def delNat (a : Nat) (l : List Nat) : List Nat := l.filter (· != a)

/-- A rising list without repeats. -/
def rising : List Nat → Bool
  | a :: b :: r => a < b && rising (b :: r)
  | _ => true

/-- The list with entry `i` replaced; unchanged when `i` is out of range. -/
def setAt {α : Type} (l : List α) (i : Nat) (a : α) : List α := l.set i a

/-! ## CRC-32C (R15) -/

/-- One bit of the reflected CRC with polynomial 0x1EDC_6F41 (0x82F6_3B78 reflected). -/
def crcBit (c : Nat) : Nat := if c % 2 = 1 then (c / 2) ^^^ 0x82F63B78 else c / 2

/-- One byte into the CRC register. -/
def crcByte (c : Nat) (b : Byte) : Nat :=
  let x := c ^^^ b.toNat
  crcBit (crcBit (crcBit (crcBit (crcBit (crcBit (crcBit (crcBit x)))))))

/-- The CRC register after a byte string. -/
def crcRun (c : Nat) (bs : List Byte) : Nat := bs.foldl crcByte c

/-- CRC-32C: initial value and final XOR are all ones. -/
def crc32c (bs : List Byte) : Nat := crcRun 0xFFFFFFFF bs ^^^ 0xFFFFFFFF

/-! ## GF(2^8) modulo 0x11D (R424) -/

/-- Multiplication by α = 2. -/
def gfDouble (a : Nat) : Nat := if a < 128 then 2 * a else (2 * a) ^^^ 0x11D

/-- The product, bit by bit of `b` from its lowest (`n` bits left). -/
def gfMulAux : Nat → Nat → Nat → Nat
  | 0, _, _ => 0
  | n + 1, a, b => (if b % 2 = 1 then a else 0) ^^^ gfMulAux n (gfDouble a) (b / 2)

def gfMul (a b : Nat) : Nat := gfMulAux 8 a b

/-- a^n. -/
def gfPow (a : Nat) : Nat → Nat
  | 0 => 1
  | n + 1 => gfMul a (gfPow a n)

/-- The inverse: a^254, since a^255 = 1 for every a other than 0. -/
def gfInv (a : Nat) : Nat :=
  let a2 := gfMul a a
  let a4 := gfMul a2 a2
  let a8 := gfMul a4 a4
  let a16 := gfMul a8 a8
  let a32 := gfMul a16 a16
  let a64 := gfMul a32 a32
  let a128 := gfMul a64 a64
  gfMul a2 (gfMul a4 (gfMul a8 (gfMul a16 (gfMul a32 (gfMul a64 a128)))))

/-- The code's coefficient g_{j,i} = y_i / (x_j + y_i), x_j = j, y_i = 4 + i (R424). -/
def gfCoef (j i : Nat) : Nat := gfMul (4 + i) (gfInv (j ^^^ (4 + i)))

/-- A byte string multiplied by a coefficient, byte by byte. -/
def gfScale (c : Nat) (bs : List Byte) : List Byte := bs.map (fun b => BitVec.ofNat 8 (gfMul c b.toNat))

/-- The sum (XOR) of two byte strings. -/
def gfAdd (a b : List Byte) : List Byte := List.zipWith (· ^^^ ·) a b

end Sys2Proof.Machine
end

