-- ==== Sys2Proof/Machine/Mem.lean ====
section
/-! DEFINITION. The operations of a byte memory in canonical form and of a memory with poison units (R204, R210, R211). -/

namespace Sys2Proof.Machine

open Host (Cell)

/-- The byte that a list of cells gives an address; an unlisted address reads 0. -/
def cellsAt : List Cell → Nat → Byte
  | [], _ => 0
  | (k, b) :: r, a => if k = a then b else cellsAt r a

/-- One byte of a memory. -/
def Memory.byte (m : Memory) (a : Nat) : Byte := cellsAt m.cells a

/-- The canonical form: addresses strictly rising, no listed 0. -/
def cellsWf : List Cell → Bool
  | [] => true
  | [(_, b)] => b != 0
  | (k, b) :: (k', b') :: r => b != 0 && k < k' && cellsWf ((k', b') :: r)

/-- The memory has the canonical form. -/
def Memory.wf (m : Memory) : Bool := cellsWf m.cells

/-- The cells of bytes that stand from address `a` upward, without the zeros. -/
def cellsOf (a : Nat) : List Byte → List Cell
  | [] => []
  | b :: r => if b = 0 then cellsOf (a + 1) r else (a, b) :: cellsOf (a + 1) r

/-- `n` bytes from address `a` upward. -/
def Memory.read (m : Memory) (a n : Nat) : List Byte :=
  let cs := m.cells.filter (fun c => a ≤ c.1 && c.1 < a + n)
  (List.range n).map (fun i => cellsAt cs (a + i))

/-- A memory with bytes written from address `a` upward. -/
def Memory.write (m : Memory) (a : Nat) (bs : List Byte) : Memory :=
  ⟨m.cells.filter (fun c => c.1 < a) ++ (cellsOf a bs ++ m.cells.filter (fun c => a + bs.length ≤ c.1))⟩

/-- A memory with one byte written. -/
def Memory.put (m : Memory) (a : Nat) (v : Byte) : Memory := m.write a [v]

/-- A memory with the given (address, byte) pairs written in order. -/
def Memory.writeCells (m : Memory) : List Cell → Memory
  | [] => m
  | (a, b) :: r => (m.put a b).writeCells r

/-- A little-endian value of `n` bytes. -/
def Memory.readN (m : Memory) (a n : Nat) : Nat := leNat (m.read a n)

def Memory.writeN (m : Memory) (a n v : Nat) : Memory := m.write a (leBytes n v)

/-- The 32-byte units that bytes `a` to `a + n - 1` touch. -/
def unitsOf (a n : Nat) : List Nat := if n = 0 then [] else (List.range ((a + n - 1) / 32 - a / 32 + 1)).map (· + a / 32)

/-- Whether a read of bytes `a` to `a + n - 1` touches a poisoned unit (R204). -/
def PMem.poisoned (m : PMem) (a n : Nat) : Bool := m.poison.any (fun u => a < 32 * u + 32 && 32 * u < a + n)

/-- One access that writes consecutive bytes: a unit all of whose 32 bytes it covers loses its poison (R204, R211). -/
def PMem.write (m : PMem) (a : Nat) (bs : List Byte) : PMem :=
  { mem := m.mem.write a bs,
    poison := if m.poison.isEmpty then [] else m.poison.filter (fun u => !(a ≤ 32 * u && 32 * u + 32 ≤ a + bs.length)) }

/-- Units marked poisoned. -/
def PMem.taint (m : PMem) (us : List Nat) : PMem := { m with poison := us.foldr insNat m.poison }

/-- One access that writes the given bytes, not all adjacent: a unit loses its poison when all 32 of its bytes are among them. -/
def PMem.writeCells (m : PMem) (cs : List Cell) : PMem :=
  { mem := m.mem.writeCells cs,
    poison := if m.poison.isEmpty then [] else
      m.poison.filter (fun u => !((List.range 32).all (fun i => cs.any (fun c => c.1 == 32 * u + i)))) }

def PMem.wf (m : PMem) : Bool := m.mem.wf && rising m.poison

end Sys2Proof.Machine
end

