-- ==== Sys2Proof/Machine/Tin.lean ====
section
/-! DEFINITION. Memory behind the controllers: HBM with the tinning engines in front of it (R402, R405, R419, R420, R424 to R426, R438, R439), repair
on read (R212), host memory, and the flits the module originates (R382). -/

namespace Sys2Proof.Machine

open Host (Cell)

/-! ## Flits -/

/-- FAB_ID.NUM (R380). -/
def State.modNum (s : State) : BitVec 20 := BitVec.ofNat 20 (wbits s.fab.id 0 20)

/-- A flit the module originates: it waits for a local-injection slot (R382). DEDUCED (log entry 79), unsafe. DESIGN CHOICE (log entry 99), unsafe. -/
def State.emit (s : State) (dst : BitVec 20) (f : Flit) : State :=
  { s with fab := { s.fab with out := s.fab.out ++ [⟨24, s.modNum, dst, 0, none, s.fab.hold, f⟩] } }

/-- The streams of a rebuild's sources for one unit and target become one where they meet (R437): two such flits that wait in a module leave as one, their bytes XORed.
DEDUCED (log entry 159), unsafe. -/
def mergeUnit (out : List OutFlit) (f : OutFlit) : List OutFlit :=
  match f.flit with
  | .unitData es u d =>
    let meets := fun (x : OutFlit) =>
      match x.flit with
      | .unitData es' u' _ => x.dst == f.dst && u' == u && es' &&& es == 0
      | _ => false
    match out.findIdx? meets with
    | none => out ++ [f]
    | some i => out.modify i (fun x => match x.flit with | .unitData es' _ d' => { x with flit := .unitData (es' ||| es) u (gfAdd d' d) } | _ => x)
  | _ => out ++ [f]

/-- A flit that waits to leave. -/
def State.queueOut (s : State) (f : OutFlit) : State := { s with fab := { s.fab with out := mergeUnit s.fab.out f } }

/-! ## The coding group's configuration (R421) -/

def Group.number (g : Group) : Nat := wbits g.cfg 0 16
def Group.k (g : Group) : Nat := wbits g.cfg 16 5
def Group.m (g : Group) : Nat := wbits g.cfg 21 2 + 1
def Group.index (g : Group) : Nat := wbits g.cfg 24 5
def Group.role (g : Group) : Nat := wbits g.cfg 29 2
def Group.ctxNo (g : Group) : Nat := wbits g.cfg 31 6

/-- The module's own entry of the code word: 0 to 15 members, 16 to 19 holders. -/
def Group.own (g : Group) : Nat := if g.role = 2 then 16 + g.index else g.index

/-- The word that configures an entry of the code word. -/
def Group.entryWord (g : Group) (e : Nat) : Word :=
  if e < 16 then g.members[Fin.ofNat 16 e] else g.holders[Fin.ofNat 4 (e - 16)]

def Group.valid (g : Group) (e : Nat) : Bool := wbit (g.entryWord e) 63
def Group.moduleOf (g : Group) (e : Nat) : BitVec 20 :=
  match g.joined.find? (fun j => j.1.toNat == e) with
  | some j => j.2.1
  | none => BitVec.ofNat 20 (wbits (g.entryWord e) 0 20)
def Group.entries (g : Group) : List Nat := (List.range 20).filter g.valid
def Group.isLost (g : Group) (e : Nat) : Bool :=
  if e < 16 then g.mlost.toNat / 2 ^ e % 2 == 1 else g.hlost.toNat / 2 ^ (e - 16) % 2 == 1

/-- The other modules of the code word, and those of them that are not lost. -/
def Group.peers (g : Group) : List Nat := g.entries.filter (· != g.own)
def Group.livePeers (g : Group) : List Nat := g.peers.filter (fun e => !g.isLost e)

/-- The holders that deltas go to: those not lost, and a replacement that has joined (R440). DEDUCED (log entry 30), unsafe. -/
def Group.deltaHolders (g : Group) : List Nat :=
  g.peers.filter (fun e => 16 ≤ e && (!g.isLost e || g.joined.any (fun j => j.1.toNat == e)))

/-- The holders that a delta goes to: of a unit that a replacement has not rebuilt yet it gets none (R440). DEDUCED (log entry 30), unsafe. -/
def Group.deltaGoes (g : Group) (off : Nat) : List Nat :=
  g.deltaHolders.filter (fun e => !g.isLost e || g.holderUnits.contains (e - 16, off / 0x10000))

/-- The loss count of R435. -/
def Group.lossCount (g : Group) : Nat := ((List.range 20).filter g.isLost).length

/-- The group answers for this module. -/
def Group.serving (g : Group) : Bool := g.st != .none && g.st != .lost

/-- The image offset of a physical address in a protected region. -/
def PRegion.find (r : PRegion) (a : Nat) : Option Nat :=
  (r.pa.find? (fun p => p.1 ≤ a && a < p.1 + 0x10000)).map (fun p => p.2 + (a - p.1))
def Group.imageOff (g : Group) (a : Nat) : Option Nat := g.regions.findSome? (fun r => r.find a)

/-- The physical address of an offset of the protected image. -/
def Group.imagePa (g : Group) (o : Nat) : Option Nat :=
  g.regions.findSome? (fun r => (r.pa.find? (fun p => p.2 ≤ o && o < p.2 + 0x10000)).map (fun p => p.1 + (o - p.2)))

/-- The image size: the largest end offset over the regions (R402). -/
def Group.imageSize (g : Group) : Nat :=
  g.regions.foldl (fun n r => r.pa.foldl (fun n p => max n (p.2 + 0x10000)) n) 0

/-- PBASE of the module's own holder entry (R421). -/
def Group.parityBase (g : Group) : Nat := wbits (g.entryWord g.own) 20 41 * 0x10000

/-- A recast unit that this module holds whole (R436, R439). -/
def Group.unitBuilt (g : Group) (off : Nat) : Bool := !g.recast || g.units.contains (off / 0x10000)

/-- The group still has to supply atoms of this module: its image is protected, or it rebuilds a holder's parity (R212, R439, R440). -/
def Group.covers (g : Group) : Bool := !g.regions.isEmpty || (g.role = 2 && g.recast)

/-- The offset of a physical address in the protected image, or in the parity that this module rebuilds. -/
def Group.askOff (g : Group) (a : Nat) : Option Nat :=
  match g.imageOff a with
  | some o => some o
  | none => if g.role = 2 && g.recast && g.parityBase ≤ a && a < g.parityBase + 0x6000000000 then some (a - g.parityBase) else none

/-! ## The undo log and the first-touch bitmap (R419, R426) -/

def bitmapBase : Nat := 0x8E00000000
def Group.logBase (g : Group) : Nat := wbits g.log 16 41 * 0x10000
def Group.logCap (g : Group) : Nat := (wbits g.log 0 12 * 0x100000 - 0x10000) / 64

/-- Whether an atom of the image has been logged in the current round. -/
def State.touched (s : State) (off : Nat) : Bool :=
  (s.mems.hbm.mem.byte (bitmapBase + off / 32 / 8)).toNat / 2 ^ (off / 32 % 8) % 2 == 1

def State.rawWrite (s : State) (a : Nat) (bs : List Byte) : State := { s with mems := { s.mems with hbm := s.mems.hbm.write a bs } }
def State.rawWriteCells (s : State) (cs : List Cell) : State := { s with mems := { s.mems with hbm := s.mems.hbm.writeCells cs } }

def State.setTouched (s : State) (off : Nat) : State :=
  let a := bitmapBase + off / 32 / 8
  s.rawWrite a [s.mems.hbm.mem.byte a ||| BitVec.ofNat 8 (2 ^ (off / 32 % 8))]

/-- An undo record (R419). -/
def undoRecord (before : List Byte) (off round : Nat) : List Byte :=
  let body := before ++ leBytes 8 off ++ leBytes 8 round ++ List.replicate 12 0
  body ++ leBytes 4 (crc32c body)

/-- The first touch of an atom in a round: one record, one bit (R420); the record that fills the log area sets LOGFULL (R421, R426). -/
def State.firstTouch (s : State) (before : List Byte) (off round : Nat) : State :=
  if s.touched off then s
  else
    let s := (s.rawWrite (s.grp.logBase + 0x10000 + 64 * s.grp.used) (undoRecord before off round)).setTouched off
    { s with grp := { s.grp with used := s.grp.used + 1, logFull := s.grp.logFull || decide (s.grp.logCap ≤ s.grp.used + 1) } }

/-- A delta to every holder (R420, R430). -/
def State.sendDelta (s : State) (off : Nat) (d : List Byte) : State :=
  let dl : Delta := ⟨BitVec.ofNat 4 s.grp.index, off, s.grp.round, BitVec.ofNat 256 (leNat d)⟩
  (s.grp.deltaGoes off).foldl (fun s e =>
    let s := s.emit (s.grp.moduleOf e) (.delta dl)
    { s with grp := { s.grp with unacked := s.grp.unacked ++ [(BitVec.ofNat 2 (e - 16), dl)] } }) s

/-! ## The stacks and their health records (R209, R210, R452) -/

/-- The stack of a physical address, and its place in it (R209). DEDUCED (log entry 127), safe. -/
def stackOf (pa : Nat) : Nat := pa / 2048 % 12
def inStack (pa : Nat) : Nat := pa / 24576 * 2048 + pa % 2048
/-- Stacks 0 to 5 lie on die 0, 6 to 11 on die 1 (R209). -/
def dieOfStack (st : Nat) : Nat := st / 6

def healthBase (t : Nat) : Nat := 0xB00000 + 0x10000 * t

def State.mramWrite (s : State) (a : Nat) (b : List Byte) : State := { s with mems := { s.mems with mram := s.mems.mram.write a b } }

/-- A saturating count of two bytes goes up by one. -/
def State.bump (s : State) (a : Nat) : State := s.mramWrite a (leBytes 2 (min (s.mems.mram.readN a 2 + 1) 0xFFFF))

/-- What the service tile of a stack's die records of an atom (R210): a correction or a repair in ECC (`off` 6), a poisoning in FAULTS (`off` 4). That the record is that of sub-array
stack mod 6 of the service tile's own health block, and that a repair counts as a correction, is a DESIGN CHOICE (log entry 141): the spec names no place. -/
def State.stackEvent (s : State) (atom off : Nat) : State :=
  let st := stackOf (32 * atom)
  s.bump (healthBase (128 + dieOfStack st) + 16 * (st % 6) + off)

/-! ## Repair on read (R212, R439) -/

/-- An atom whose contents the group still has to supply: poisoned in a protected region, or in a unit not yet rebuilt, of the image or of a replacement holder's parity. -/
def State.mustAsk (s : State) (atom : Nat) : Bool :=
  match s.grp.askOff (32 * atom) with
  | none => false
  | some off =>
    !s.grp.unitBuilt off ||
      ((s.grp.imageOff (32 * atom)).isSome && s.mems.hbm.poison.contains atom && s.grp.serving && !s.grp.asks.any (fun a => a.atom == atom && a.deadline == 0))

/-- The first atom of a range that must be asked for. -/
def State.needAsk (s : State) (a n : Nat) : Option Nat :=
  if s.grp.covers then (unitsOf a n).find? s.mustAsk else none

/-- The other members, or the holders, that are not lost. -/
def Group.liveMembers (g : Group) : List Nat := g.livePeers.filter (· < 16)
def Group.liveHolders (g : Group) : List Nat := g.livePeers.filter (16 ≤ ·)

def State.setAsk (s : State) (atom : Nat) (f : Ask → Ask) : State :=
  { s with grp := { s.grp with asks := s.grp.asks.map (fun b => if b.atom == atom then f b else b) } }

/-- A request for an atom's reconstruction to some entries. -/
def State.sendAsk (s : State) (atom off : Nat) (stage : Nat) (es : List Nat) : State :=
  (es.foldl (fun (s : State) e => s.emit (s.grp.moduleOf e) (.reconstruct (BitVec.ofNat 5 s.grp.own) (off / 32))) s).setAsk atom ({ · with sent := stage })

/-- The requests of an ask: to the members once every delta shipped for its atom is acknowledged, to the holders once every member has answered, so that the answers
belong together (R212). DEDUCED (log entry 73), unsafe. -/
def State.sendAsks (s : State) : State :=
  s.grp.asks.foldl (fun (s : State) a =>
    match s.grp.imageOff (32 * a.atom) with
    | none => s
    | some off =>
      if a.deadline = 0 then s
      else if a.sent = 0 && s.grp.unacked.any (fun d => d.2.offset == off) then s
      else if a.sent = 0 && !s.grp.liveMembers.isEmpty then s.sendAsk a.atom off 1 s.grp.liveMembers
      else if a.sent < 2 && s.grp.liveMembers.all (fun e => s.grp.got.any (fun x => x.1.toNat == e && x.2.1 == off / 32)) then
        s.sendAsk a.atom off 2 s.grp.liveHolders
      else s) s

/-- A source's bit tells members from holders: a unit is asked of every source, and the holders may read at once when no member is a source (R438). -/
def State.requestUnit (s : State) (u : Nat) : State :=
  let b := BitVec.ofNat 23 u
  let s := s.grp.sources.foldl (fun (s : State) e => s.emit (s.grp.moduleOf e) (.unitReq b)) s
  let s := if s.grp.sources.any (· < 16) then s else s.grp.sources.foldl (fun (s : State) e => s.emit (s.grp.moduleOf e) (.unitGo b)) s
  { s with grp := { s.grp with pending := s.grp.pending ++ [u] } }

/-- A read asks the group for an atom, or for the recast unit that holds it: at most eight units are in progress, and none before k sources stream (R439). The attempt fails after 120,000 cycles, and at
once when fewer than k modules can answer (R212, `askHopeless`). `reads` says that a program's own read waits. -/
def State.askFor (s : State) (reads : Bool) (atom : Nat) : State :=
  match s.grp.askOff (32 * atom) with
  | none => s
  | some off =>
    if !s.grp.unitBuilt off then
      if s.grp.pending.contains (off / 0x10000) || s.grp.sources.length < s.grp.k || 8 ≤ s.grp.pending.length then s
      else s.requestUnit (off / 0x10000)
    else if s.grp.asks.any (fun a => a.atom == atom) then s.setAsk atom (fun a => { a with reads := a.reads || reads })
    else { s with grp := { s.grp with asks := s.grp.asks ++ [Ask.mk atom (s.run.cycle + 120000) 0 reads false] } }.sendAsks

/-- A scalar or vector access, a fetch or a command of a thread asks. -/
def State.ask (s : State) (atom : Nat) : State := s.askFor true atom

/-- Failed attempts are forgotten when the reads that waited have consumed the poison: the next read tries again. DEDUCED (log entry 25), unsafe. -/
def State.forgetAsks (s : State) : State := { s with grp := { s.grp with asks := s.grp.asks.filter (fun a => a.deadline != 0) } }
def State.forgetAtoms (s : State) (us : List Nat) : State :=
  if s.grp.asks.isEmpty then s else { s with grp := { s.grp with asks := s.grp.asks.filter (fun a => a.deadline != 0 || !us.contains a.atom) } }

/-! ## Writes (R402, R405, R420) -/

/-- Bytes from address `a` upward as cells, zeros included. -/
def cellList (a : Nat) : List Byte → List Cell
  | [] => []
  | b :: r => (a, b) :: cellList (a + 1) r

/-- Whether a protected write to an atom at image offset `off` has to wait: the round is closing or the group recovers or is lost (R405, R428), a restore
is not complete (R443), the unit is not rebuilt (R439) or is being streamed (R438), the log is full (R426), the old atom must first be repaired
(R212), or an earlier write to the atom waits. -/
def State.mustHold (s : State) (atom off : Nat) : Bool :=
  !(s.grp.st == .opened || s.grp.st == .none) || s.grp.restoring || !s.grp.unitBuilt off ||
    s.grp.frozen.any (fun u => u.1 == off / 0x10000) || (!s.touched off && s.grp.logCap ≤ s.grp.used) || s.mustAsk atom ||
    s.grp.held.any (fun w => w.cells.any (fun c => c.1 / 32 == atom))

/-- A write to one atom. In a protected region it is logged at its first touch and sends its delta, or it is held; in a unit of parity not yet rebuilt it waits for the unit (R439).
DEDUCED (log entry 26), unsafe. -/
def State.writeAtom (s : State) (atom : Nat) (cs : List Cell) : State :=
  match s.grp.imageOff (32 * atom) with
  | none =>
    if s.mustAsk atom then
      let s := s.askFor false atom
      { s with grp := { s.grp with held := s.grp.held ++ [HeldWrite.mk cs] } }
    else s.rawWriteCells cs
  | some off =>
    if s.mustHold atom off then
      let full := !s.touched off && s.grp.logCap ≤ s.grp.used
      let s := if s.mustAsk atom then s.askFor false atom else s
      { s with grp := { s.grp with held := s.grp.held ++ [HeldWrite.mk cs], logFull := s.grp.logFull || full } }
    else
      let old := s.mems.hbm.mem.read (32 * atom) 32
      let s := (s.firstTouch old off s.grp.round.toNat).rawWriteCells cs
      s.sendDelta off (gfAdd old (s.mems.hbm.mem.read (32 * atom) 32))

/-- One access that writes the given bytes of HBM. -/
def State.hbmWriteCells (s : State) (cs : List Cell) : State :=
  if !s.grp.covers then s.rawWriteCells cs
  else ((cs.map (fun c => c.1 / 32)).eraseDups).foldl (fun s u => s.writeAtom u (cs.filter (fun c => c.1 / 32 == u))) s

/-- One access that writes consecutive bytes of HBM. -/
def State.hbmWrite (s : State) (a : Nat) (bs : List Byte) : State :=
  if !s.grp.covers then s.rawWrite a bs else s.hbmWriteCells (cellList a bs)

/-- Held writes proceed in order (R406, R438). -/
def State.releaseHeld (s : State) : State :=
  s.grp.held.foldl (fun s w => s.hbmWriteCells w.cells) { s with grp := { s.grp with held := [] } }

/-- Atoms written with the poison pattern, each reported as a poisoning (R210); an atom of a protected region never is (R228, R126). -/
def State.hbmTaint (s : State) (us : List Nat) : State :=
  let us := us.filter (fun u => (s.grp.imageOff (32 * u)).isNone)
  us.foldl (fun (s : State) u => s.stackEvent u 4) { s with mems := { s.mems with hbm := s.mems.hbm.taint us } }

/-! ## Reads -/

/-- The byte that a held write gives an address, the latest first: a write that the tinning engine holds is seen by later reads. -/
def heldByte (ws : List HeldWrite) (a : Nat) : Option Byte :=
  ws.reverse.findSome? (fun w => (w.cells.reverse.find? (fun c => c.1 == a)).map (·.2))

/-- `n` bytes of HBM from address `a`. -/
def State.hbmBytes (s : State) (a n : Nat) : List Byte :=
  let bs := s.mems.hbm.mem.read a n
  if s.grp.held.isEmpty then bs
  else (cellList a bs).map (fun c => (heldByte s.grp.held c.1).getD c.2)

def State.hbmNat (s : State) (a n : Nat) : Nat := leNat (s.hbmBytes a n)

/-- The poisoned atoms of a range of HBM; a held write that covers a whole atom cures it. -/
def State.hbmPoison (s : State) (a n : Nat) : List Nat :=
  if s.mems.hbm.poison.isEmpty then []
  else (unitsOf a n).filter (fun u => s.mems.hbm.poison.contains u &&
    !(s.grp.held.any (fun w => (List.range 32).all (fun i => w.cells.any (fun c => c.1 == 32 * u + i)))))

/-! ## Places in HBM and in host memory

A location is a physical address of HBM, or 2^60 plus a host I/O virtual address (R365). -/

def hostLoc : Nat := 2 ^ 60

/-- A host page that the page request interface has to bring in (R365). DEDUCED (log entry 7), unsafe. -/
def State.hostAbsent (s : State) (loc : Nat) : Bool := hostLoc ≤ loc && s.mems.hostGone.contains ((loc - hostLoc) / 0x10000)

def State.locBytes (s : State) (loc n : Nat) : List Byte :=
  if loc < hostLoc then s.hbmBytes loc n else s.mems.host.read (loc - hostLoc) n

def State.locWriteCells (s : State) (cs : List Cell) : State :=
  let h := cs.filter (fun c => hostLoc ≤ c.1)
  let s := s.hbmWriteCells (cs.filter (fun c => c.1 < hostLoc))
  if h.isEmpty then s
  else { s with mems := { s.mems with host := s.mems.host.writeCells (h.map (fun c => (c.1 - hostLoc, c.2))) } }

def State.locWrite (s : State) (loc : Nat) (bs : List Byte) : State :=
  if loc < hostLoc then s.hbmWrite loc bs else { s with mems := { s.mems with host := s.mems.host.write (loc - hostLoc) bs } }

def State.locPoison (s : State) (loc n : Nat) : List Nat := if loc < hostLoc then s.hbmPoison loc n else []
def State.locAsk (s : State) (loc n : Nat) : Option Nat := if loc < hostLoc then s.needAsk loc n else none

/-! ## Decoding the code (R425) -/

/-- Row `e` of the identity stacked over g, for code-word entry `e` with `k` members (R424). -/
def codeRow (k e : Nat) : List Nat :=
  if e < 16 then (List.range k).map (fun i => if i = e then 1 else 0) else (List.range k).map (fun i => gfCoef (e - 16) i)

def rowScale (c : Nat) (r : List Nat) : List Nat := r.map (gfMul c)
def rowAdd (a b : List Nat) : List Nat := List.zipWith (· ^^^ ·) a b

/-- Gauss–Jordan elimination of column `c` in an augmented matrix whose rows from `c` downward are not yet reduced. -/
def elimCol (c : Nat) (m : List (List Nat)) : List (List Nat) :=
  match (m.drop c).findIdx? (fun r => r[c]?.getD 0 != 0) with
  | none => m
  | some j =>
    let p := m[c + j]?.getD []
    let p := rowScale (gfInv (p[c]?.getD 0)) p
    let rest := m.eraseIdx (c + j)
    let clear := fun r => rowAdd r (rowScale (r[c]?.getD 0) p)
    (rest.take c).map clear ++ [p] ++ (rest.drop c).map clear

/-- The inverse of a k × k matrix over GF(2^8). -/
def gfInverse (k : Nat) (m : List (List Nat)) : List (List Nat) :=
  let aug := m.zipIdx.map (fun p => p.1 ++ (List.range k).map (fun i => if i = p.2 then 1 else 0))
  ((List.range k).foldl (fun m c => elimCol c m) aug).map (fun r => r.drop k)

/-- The decode coefficients of target `t` over the source set `src`: the target's row times the inverse of the sources' rows (R425). -/
def decodeCoef (k : Nat) (src : List Nat) (t : Nat) : List Nat :=
  let inv := gfInverse k (src.map (codeRow k))
  (List.range k).map (fun j =>
    ((codeRow k t).zipIdx.map (fun p => gfMul p.1 (((inv[p.2]?).getD [])[j]?.getD 0))).foldl (· ^^^ ·) 0)

/-- The target's bytes from the sources' bytes (R425). -/
def decodeAtom (k t : Nat) (src : List (Nat × List Byte)) : List Byte :=
  (List.zipWith (fun c p => gfScale c p.2) (decodeCoef k (src.map (·.1)) t) src).foldl gfAdd (List.replicate 32 0)

end Sys2Proof.Machine
end

