-- ==== Sys2Proof/Machine/Ops.lean ====
section
/-! DEFINITION. The shared operations over the state: who acts, registers, status bits, tokens and queues, transaction barriers, and taking
an exception and returning from one (R27, R60, R104, R247, R261 to R264, R361, R362, R416). -/

namespace Sys2Proof.Machine

open Host (Cell)

/-! ## Tiles and threads -/

def State.tileF (s : State) (t : Fin 130) : Tile := s.tiles[t]
/-- The tile of a number; a number above 129 is reduced and never used so. -/
def State.tileAt (s : State) (t : Nat) : Tile := s.tiles[Fin.ofNat 130 t]
def State.threadAt (s : State) (t h : Nat) : Thread := (s.tileAt t).th[Fin.ofNat 4 h]

def State.updTile (s : State) (t : Nat) (f : Tile → Tile) : State :=
  { s with tiles := s.tiles.set (Fin.ofNat 130 t) (f (s.tileAt t)) }

def Tile.updTh (x : Tile) (h : Nat) (f : Thread → Thread) : Tile :=
  { x with th := x.th.set (Fin.ofNat 4 h) (f x.th[Fin.ofNat 4 h]) }

def State.updThread (s : State) (t h : Nat) (f : Thread → Thread) : State := s.updTile t (·.updTh h f)

/-- The tile and the thread whose turn it is. -/
def State.ct (s : State) : Nat := s.run.cur.tile.val
def State.ch (s : State) : Nat := s.run.cur.thread.val
def State.tile (s : State) : Tile := s.tileAt s.ct
def State.thr (s : State) : Thread := s.threadAt s.ct s.ch
def State.modTile (s : State) (f : Tile → Tile) : State := s.updTile s.ct f
def State.modThr (s : State) (f : Thread → Thread) : State := s.updThread s.ct s.ch f

/-- The slot whose syllable is executing; a turn of another unit counts as the C slot. -/
def State.slot (s : State) : Slot :=
  match s.run.cur.turn with
  | .stream sl => sl
  | _ => .c

def State.setRes (s : State) (r : SylRes) : State := { s with run := { s.run with res := r } }
def State.pushAgenda (s : State) (l : List Event) : State := { s with run := { s.run with agenda := s.run.agenda ++ l } }
def State.urgent (s : State) (i : Instr) (a : Input) : State := { s with run := { s.run with agenda := ⟨i, a⟩ :: s.run.agenda } }

/-- A service tile, whose threads run at firmware privilege (R101). -/
def isService (t : Nat) : Bool := 128 ≤ t
def State.isFw (s : State) : Bool := isService s.ct

/-- The next free value's number: the counter the step reads and advances. DESIGN CHOICE (log entry 128), safe. -/
def State.takeFree (s : State) : Nat × State := (s.run.free, { s with run := { s.run with free := s.run.free + 1 } })

/-- `n` bytes that the spec leaves open. -/
def State.freeBytes (s : State) (n : Nat) : List Byte × State :=
  ((List.range n).map (fun i => Config.lostByte (256 * s.run.free + i)), { s with run := { s.run with free := s.run.free + n / 256 + 1 } })

/-- The cycle that CYCLE.COUNT shows (R106). -/
def State.cycleCount (s : State) : Nat := s.run.cycle - s.run.cycle0

/-! ## Status bits -/

/-- A W1C bit of one of the thread's CSRs is set by hardware in this cycle: it outlives a clearing write of the same cycle (R8). -/
def Thread.mark (t : Thread) (n : Nat) (b : Nat) : Thread := { t with fresh := (n, wofNat (2 ^ b)) :: t.fresh }

/-- The bits of a register that hardware has set in this cycle. -/
def freshBits (l : List (Nat × Word)) (n : Nat) : Word := l.foldl (fun (v : Word) p => if p.1 = n then v ||| p.2 else v) 0

/-- The key under which the bits of a privileged register are kept: the registers of each die have their own. -/
def privKey (die n : Nat) : Nat := if n = 0x808 || (0x880 ≤ n && n ≤ 0x88F) then n + 0x1000 * die else n

/-- Bits of a privileged register are set by hardware in this cycle (R8). -/
def State.markPriv (s : State) (key : Nat) (m : Word) : State := { s with run := { s.run with fresh := (key, m) :: s.run.fresh } }

/-- SetWarn(bit) (R12, R38): 0 ORD, 1 SCOPE, 2 SLOT, 3 TYPE, 4 REG, 5 TOKEN. -/
def State.setWarn (s : State) (b : Nat) : State := s.modThr (fun t => { t with csr := { t.csr with warn := wset t.csr.warn b } })
def State.warnIf (s : State) (c : Bool) (b : Nat) : State := if c then s.setWarn b else s

/-- The flags of R146: 0 INV, 1 DIV, 2 OVF, 3 UNF, 4 INX, 5 SAT. -/
abbrev Flags := BitVec 6

/-- Flags ORed into FLAGS. -/
def State.orFlagsAt (s : State) (t h : Nat) (f : Flags) : State :=
  s.updThread t h (fun x => { x with csr := { x.csr with flags := x.csr.flags ||| f.setWidth 64 } })
def State.orFlags (s : State) (f : Flags) : State := s.orFlagsAt s.ct s.ch f

/-! ## Registers (R27, R57, R60) -/

def Thread.eng (t : Thread) : Slot → Engine
  | .c => t.eL
  | .l => t.eL
  | .w => t.eW
  | .s => t.eS

def Thread.modEng (t : Thread) (sl : Slot) (f : Engine → Engine) : Thread :=
  match sl with
  | .c => t
  | .l => { t with eL := f t.eL }
  | .w => { t with eW := f t.eW }
  | .s => { t with eS := f t.eS }

/-- The index of the loop at depth `d` of a stack kept innermost first; 0 while depth `d` holds no entry (R71, R86). -/
def loopIndex (l : List LoopEnt) (d : Nat) : Word :=
  match l.reverse[d]? with
  | some e => e.index
  | none => 0

/-- Engine address register `n` of a slot. -/
def Regs.engReg (r : Regs) (sl : Slot) (n : BitVec 3) : Word :=
  match sl with
  | .l => r.la[n.toFin]
  | .w => r.wa[n.toFin]
  | .s => r.sa[n.toFin]
  | .c => 0

def Regs.setEngReg (r : Regs) (sl : Slot) (n : BitVec 3) (v : Word) : Regs :=
  match sl with
  | .l => { r with la := r.la.set n.toFin v }
  | .w => { r with wa := r.wa.set n.toFin v }
  | .s => { r with sa := r.sa.set n.toFin v }
  | .c => r

/-- X(n) in a slot of a thread (R60): s0 reads 0; in an engine slot 0 to 7 the address registers, 8 to 11 the loop indexes, 12 to 31 read 0. -/
def Thread.readX (t : Thread) (sl : Slot) (n : BitVec 5) : Word :=
  if sl = .c then (if n = 0 then 0 else t.regs.x[n.toFin])
  else if n.toNat < 8 then t.regs.engReg sl (n.setWidth 3)
  else if n.toNat < 12 then loopIndex (t.eng sl).loops (n.toNat - 8)
  else 0

/-- W(n, v) in a slot of a thread (R60): s0 and the engine fields 8 to 31 discard. -/
def Thread.writeX (t : Thread) (sl : Slot) (n : BitVec 5) (v : Word) : Thread :=
  if sl = .c then (if n = 0 then t else { t with regs := { t.regs with x := t.regs.x.set n.toFin v } })
  else if n.toNat < 8 then { t with regs := t.regs.setEngReg sl (n.setWidth 3) v }
  else t

/-- X(n) of the acting stream. -/
def State.X (s : State) (n : BitVec 5) : Word := s.thr.readX s.slot n

/-- Reading field `n` records WARN.REG where the field names no register (R37). -/
def State.readWarn (s : State) (n : BitVec 5) : State := s.warnIf (s.slot != .c && 12 ≤ n.toNat) 4

/-- W(n, v) of the acting stream, with WARN.REG where the write is discarded in an engine slot (R37). -/
def State.W (s : State) (n : BitVec 5) (v : Word) : State :=
  (s.modThr (·.writeX s.slot n v)).warnIf (s.slot != .c && 8 ≤ n.toNat) 4

/-- The acting engine's own address register of a 3-bit field (R179, R230). -/
def State.A (s : State) (n : BitVec 3) : Word := s.thr.regs.engReg s.slot n
def State.setA (s : State) (n : BitVec 3) (v : Word) : State :=
  s.modThr (fun t => { t with regs := t.regs.setEngReg s.slot n v })

/-- The W-engine register of a 4-bit field (R165, R194): wa0 to wa7, then lc0 to lc3. -/
def State.wreg (s : State) (n : BitVec 4) : Word := s.thr.readX .w (n.setWidth 5)

/-- Predicate p (R192): p0 is all ones. -/
def State.pred (s : State) (p : BitVec 4) : PredVal := if p = 0 then BitVec.allOnes 512 else s.thr.regs.p[p.toFin]
/-- A write to p0 is discarded (R192). -/
def State.setPred (s : State) (p : BitVec 4) (v : PredVal) : State :=
  if p = 0 then s else s.modThr (fun t => { t with regs := { t.regs with p := t.regs.p.set p.toFin v } })

/-- The swap of s24 to s31 with a shadow bank (R252, R361). -/
def swapHigh (x : Vector Word 32) (sh : Vector Word 8) : Vector Word 32 × Vector Word 8 :=
  ((((((((x.set 24 sh[0]).set 25 sh[1]).set 26 sh[2]).set 27 sh[3]).set 28 sh[4]).set 29 sh[5]).set 30 sh[6]).set 31 sh[7],
   (((((((sh.set 0 x[24]).set 1 x[25]).set 2 x[26]).set 3 x[27]).set 4 x[28]).set 5 x[29]).set 6 x[30]).set 7 x[31])

def Regs.swapTrap (r : Regs) : Regs := let p := swapHigh r.x r.shTrap; { r with x := p.1, shTrap := p.2 }
def Regs.swapUi (r : Regs) : Regs := let p := swapHigh r.x r.shUi; { r with x := p.1, shUi := p.2 }

/-! ## How a syllable ends -/

/-- What a trap carries (R359, R360): the cause code, TCAUSE.INFO, TADDR, the deferred fault's cause (R271), and for a reserved encoding the slot (R36). -/
structure Trap where
  cause : Nat
  info  : Nat := 0
  addr  : Word := 0
  defer : Option Nat := none
  slot  : Option Slot := none
  deriving DecidableEq, Repr

/-- Why a syllable does not complete: it is held, it is held while the coding group supplies an atom (R212, R439), it is held after sending a request to a
peer (R255, R389, R393) with the bytes it keeps here, it is held while its posted bytes wait for lines to leave, the thread's windows being as given (R387), its bundle waits to issue, or it raises
a trap. -/
inductive Stop where
  | hold
  | post (win : Vector Window 64)
  | ask (atom : Nat)
  | send (dst : BitVec 20) (f : Flit) (kept : List (Option Byte))
  | waitIssue
  | trap (t : Trap)
  deriving DecidableEq, Repr

/-- The state a syllable reaches, or why it does not (R11: a trap leaves no write). -/
abbrev Res := Except Stop State

def illegal : Stop := .trap { cause := 1 }
def misaligned (access : Nat) (a : Word) : Stop := .trap { cause := 2, info := access, addr := a }
def pageFault (access : Nat) (a : Word) : Stop := .trap { cause := 3, info := access, addr := a }
def accessViol (access : Nat) (a : Word) : Stop := .trap { cause := 4, info := access, addr := a }
def poisoned (a : Word) : Stop := .trap { cause := 5, addr := a }
def barrierViol (a : Word) : Stop := .trap { cause := 7, addr := a }

/-! ## Token FIFOs (R262, R263) -/

/-- CNTf and ENf of TOKCFG. -/
def tokCnt (c : Word) (f : Nat) : Nat := wbits c (5 * f) 4
def tokEn (c : Word) (f : Nat) : Bool := wbit c (5 * f + 4)
def tokSet (c : Word) (f n : Nat) : Word := wput c (5 * f) 4 n

/-- The FIFOs of a slot's token bits (R29, R262): pop from previous, pop from next, push to previous, push to next. -/
def tokFifo : Slot → Nat × Nat × Nat × Nat
  | .l => (2, 3, 5, 0)
  | .w => (0, 4, 3, 1)
  | .s => (1, 5, 4, 2)
  | .c => (0, 0, 0, 0)

/-- Whether the pops and the room a syllable's token bits need are there (R262). Bit 3 is !wp, 2 !wn, 1 !sp, 0 !sn. -/
def tokReady (c : Word) (sl : Slot) (k : BitVec 4) : Bool :=
  let (wp, wn, sp, sn) := tokFifo sl
  let pop := fun (b : Bool) (f : Nat) => !b || !tokEn c f || 1 ≤ tokCnt c f
  let room := fun (b : Bool) (f : Nat) => !b || !tokEn c f || tokCnt c f ≤ 7
  pop k[3] wp && pop k[2] wn && room k[1] sp && room k[0] sn

/-- One pop or push on an enabled FIFO. -/
def tokPop (c : Word) (b : Bool) (f : Nat) : Word := if b && tokEn c f then tokSet c f (tokCnt c f - 1) else c
def tokPush (c : Word) (b : Bool) (f : Nat) : Word := if b && tokEn c f then tokSet c f (min (tokCnt c f + 1) 8) else c

/-- The pops of a syllable; a disabled FIFO sets WARN.TOKEN (R37). -/
def State.popTokens (s : State) (k : BitVec 4) : State :=
  let (wp, wn, _, _) := tokFifo s.slot
  let c := s.thr.qs.tok
  (s.modThr (fun t => { t with qs := { t.qs with tok := tokPop (tokPop c k[3] wp) k[2] wn } })).warnIf
    ((k[3] && !tokEn c wp) || (k[2] && !tokEn c wn)) 5

/-- The pushes of a syllable that completes; a disabled FIFO discards them and sets WARN.TOKEN (R37). -/
def State.pushTokens (s : State) (k : BitVec 4) : State :=
  let (_, _, sp, sn) := tokFifo s.slot
  let c := s.thr.qs.tok
  (s.modThr (fun t => { t with qs := { t.qs with tok := tokPush (tokPush c k[1] sp) k[0] sn } })).warnIf
    ((k[1] && !tokEn c sp) || (k[0] && !tokEn c sn)) 5

/-- A private engine syllable with token bits `k` (R29, R262): its pops and its room are taken together at its start, its pushes made at its
completion; while either is missing it is held. A W syllable that pushes a token also waits for the thread's nest (R298). -/
def withTokens (k : BitVec 4) (s : State) (body : State → Res) : Res :=
  if !tokReady s.thr.qs.tok s.slot k then .error .hold
  else if s.slot = .w && (k[1] || k[0]) && s.thr.nest.isSome then .error .hold
  else (body (s.popTokens k)).map (·.pushTokens k)

/-- TCAUSE.ACTIVE of a thread on a compute tile, FWCAUSE.ACTIVE on a service tile. -/
def Thread.active (t : Thread) (fw : Bool) : Bool := wbit (if fw then t.csr.fwcause else t.csr.tcause) 13

def State.active (s : State) : Bool := s.thr.active s.isFw

/-! ## Waiting for earlier engine syllables (R85, R257, R298, R362) -/

/-- An engine stream has completed every syllable appended to it: its queue is empty and it has nothing left to replay. -/
def Engine.idle (e : Engine) : Bool := e.q.isEmpty && (e.loops.isEmpty || e.rb.length ≤ e.pos)

def Thread.enginesIdle (x : Thread) : Bool := x.eL.idle && x.eW.idle && x.eS.idle && x.nest.isNone

/-- An instruction waits, before its bundle issues, for the engine syllables of earlier bundles. In a control-only resumption the bundle has issued; inside a
trap handler the frozen syllables are not waited for. DEDUCED (log entry 43), unsafe. -/
def waitEngines (s : State) (body : State → Res) : Res :=
  if s.active || s.thr.flow.ctl || s.thr.enginesIdle then body s else .error .waitIssue

/-! ## Data queues (R261) -/

def State.modQs (s : State) (f : Queues → Queues) : State := s.modThr (fun t => { t with qs := f t.qs })

/-! ## Addresses of scratchpad granules -/

/-- A barrier operand as a command keeps it: all ones for none (R224), else tile · 2^32 + offset. -/
def noBar : Word := BitVec.allOnes 64
def barAt (tile off : Nat) : Word := wofNat (tile * 2 ^ 32 + off)
def barTile (b : Word) : Nat := wbits b 32 32
def barOff (b : Word) : Nat := wbits b 0 32

/-- Whether the granule at a scratchpad offset holds a live barrier (R245). -/
def Tile.live (x : Tile) (off : Nat) : Bool := x.tags.contains (off / 16 * 16)

/-- Whether bytes `a` to `a + n - 1` of a scratchpad touch a live granule (R245). -/
def Tile.touchesLive (x : Tile) (a n : Nat) : Bool := x.tags.any (fun g => a < g + 16 && g < a + n)

/-! ## Transaction barriers (R244 to R250) -/

/-- The fields of a barrier's low half: phase, arr, NOTIFY, STICKY, DROPPED. -/
structure Bar where
  phase  : Nat
  arr    : Nat
  notify : Bool
  sticky : Bool
  dropped : Bool
  sec    : Nat
  reload : Nat
  deriving DecidableEq, Repr

def Bar.ofNat (lo hi : Nat) : Bar :=
  { phase := lo % 16, arr := lo / 16 % 2 ^ 20, notify := lo / 2 ^ 24 % 2 == 1, sticky := lo / 2 ^ 25 % 2 == 1,
    dropped := lo / 2 ^ 26 % 2 == 1, sec := hi % 2 ^ 40, reload := hi / 2 ^ 40 % 2 ^ 20 }

def Bar.lo (b : Bar) : Nat :=
  b.phase % 16 + b.arr % 2 ^ 20 * 16 + natOfBool b.notify * 2 ^ 24 + natOfBool b.sticky * 2 ^ 25 + natOfBool b.dropped * 2 ^ 26
def Bar.hi (b : Bar) : Nat := b.sec % 2 ^ 40 + b.reload % 2 ^ 20 * 2 ^ 40

def Tile.bar (x : Tile) (off : Nat) : Bar := Bar.ofNat (x.spad.mem.readN off 8) (x.spad.mem.readN (off + 8) 8)
def Tile.setBar (x : Tile) (off : Nat) (b : Bar) : Tile :=
  { x with spad := { x.spad with mem := x.spad.mem.write off (leBytes 8 b.lo ++ leBytes 8 b.hi) } }

/-- The fields of a TBREG entry (R246). -/
def tbValid (w : Word) : Bool := wbit w 0
def tbArrived (w : Word) : Bool := wbit w 1
def tbNotify (w : Word) : Bool := wbit w 2
def tbPhase (w : Word) : Nat := wbits w 4 4
def tbOff (w : Word) : Nat := wbits w 8 22
def tbEntry (off : Nat) (notify arrived : Bool) (phase : Nat) : Word :=
  wofNat (1 + natOfBool arrived * 2 + natOfBool notify * 4 + phase % 16 * 16 + off * 256)

/-- The TBREG of a thread that names a barrier, if any. -/
def Thread.tbFind (t : Thread) (off : Nat) : Option (Fin 16) :=
  (List.finRange 16).find? (fun i => tbValid t.csr.tbreg[i] && tbOff t.csr.tbreg[i] == off)

/-- SetUiPending(NotifyingThread(g)) (R247): sets bit i of UICAUSE.BAR of the thread whose TBREGi registered `off` with NOTIFY. -/
def Tile.notifyBar (x : Tile) (off : Nat) : Tile :=
  (List.range 4).foldl (fun x h =>
    x.updTh h (fun t =>
      match t.tbFind off with
      | some i => if tbNotify t.csr.tbreg[i] then ({ t with csr := { t.csr with uicause := wset t.csr.uicause i.val } } : Thread).mark 0x009 i.val else t
      | none => t)) x

/-- BarrierUpdate (R247), at a granule of a tile's scratchpad. -/
def Tile.barUpdate (x : Tile) (off arrivals expect landed drops : Nat) : Tile :=
  if arrivals = 0 && expect = 0 && landed = 0 && drops = 0 then x else
  let g := x.bar off
  let reload := (g.reload + (2 ^ 20 - drops % 2 ^ 20)) % 2 ^ 20
  let arr := (g.arr + (2 ^ 20 - arrivals % 2 ^ 20)) % 2 ^ 20
  let sec := truncInt ((g.sec : Int) + expect - landed) 40
  if arr = 0 && sec = 0 then
    let x := x.setBar off { g with reload := reload, arr := reload, sec := sec, phase := (g.phase + 1) % 16 }
    if g.notify then x.notifyBar off else x
  else x.setBar off { g with reload := reload, arr := arr, sec := sec }

/-- The sticky-error flag of a barrier (R227). -/
def Tile.barSticky (x : Tile) (off : Nat) : Tile := if x.live off then x.setBar off { x.bar off with sticky := true } else x

/-- The tag of a granule that no TBREG of the tile names any longer is cleared (R245). -/
def Tile.untag (x : Tile) (off : Nat) : Tile :=
  if (List.range 4).any (fun h => (x.th[Fin.ofNat 4 h].tbFind off).isSome) then x else { x with tags := delNat off x.tags }

/-- The drop of registration `i` of thread `h` (R250); `exit` also sets DROPPED. -/
def Tile.tbDrop (x : Tile) (h : Nat) (i : Fin 16) (exit : Bool) : Tile :=
  let t := x.th[Fin.ofNat 4 h]
  let r := t.csr.tbreg[i]
  let off := tbOff r
  let g := x.bar off
  let arrived := tbArrived r && tbPhase r == g.phase
  let g1 := { g with notify := g.notify && !tbNotify r, dropped := g.dropped || exit }
  let clear := fun (t : Thread) =>
    { t with csr := { t.csr with tbreg := t.csr.tbreg.set i 0, uicause := if tbNotify r then wclr t.csr.uicause i.val else t.csr.uicause },
             fresh := if tbNotify r then t.fresh.filter (· != (0x009, wofNat (2 ^ i.val))) else t.fresh }
  (((x.setBar off g1).updTh h clear).barUpdate off (if arrived then 0 else 1) 0 0 1).untag off

/-- The implicit drops of EXIT and of teardown, in ascending index (R250). -/
def Tile.dropAll (x : Tile) (h : Nat) : Tile :=
  (List.finRange 16).foldl (fun x i => if tbValid x.th[Fin.ofNat 4 h].csr.tbreg[i] then x.tbDrop h i true else x) x

/-- A command-status event of a thread (R229): its CPERR bit, LAST, and the address. -/
def State.cpErr (s : State) (t h bit : Nat) (addr : Word) : State :=
  s.updThread t h (fun x => ({ x with csr := { x.csr with cperr := wput (wset x.csr.cperr bit) 16 4 (bit + 1), cperraddr := addr } } : Thread).mark 0x030 bit)

/-- The address of an index of a list (R233). The event of a bad index is named by it. -/
def Cmd.indexAt (c : Cmd) (e : Nat) : Nat := (c.cols[0]?).getD 0 + 4 * e

/-- The first address of sector `q`, as the command named it (R229): at the destination, under CPREM a handle and an offset; of a CPINB, which names no address there, at the source; of a scatter
that of the index of its first element. DEDUCED (log entry 142), unsafe. -/
def Cmd.named (c : Cmd) (q : Nat) : Word :=
  match c.kind with
  | .cprem => wput c.dst 0 48 (wbits c.dst 0 48 + 256 * q)
  | .cpinb => let row := max 1 (c.cols.length * 2 ^ wbits c.len 24 2); wofNat (c.src.toNat + 256 * q / row * wbits c.len 32 32 + 256 * q % row)
  | .scatter => wofNat (c.indexAt (256 * q / max 1 ((c.cols[4]?).getD 2)))
  | _ => c.dst + wofNat (256 * q)

/-- The first sector of a command that has not landed. -/
def Cmd.firstOpen (c : Cmd) : Nat := ((List.range c.landed.length).find? (fun q => !c.landed.contains q)).getD c.landed.length

/-- `k` sectors of a command of thread (t, h) land at its barrier (R224, R245): a barrier no longer live records ORPHAN. -/
def State.landBar (s : State) (t h : Nat) (bar : Word) (k : Nat) (addr : Word) : State :=
  if bar = noBar || k = 0 then s
  else if (s.tileAt (barTile bar)).live (barOff bar) then s.updTile (barTile bar) (·.barUpdate (barOff bar) 0 0 k 0)
  else s.cpErr t h 8 addr

/-- The sticky-error flag of a command's barrier. -/
def State.stickyBar (s : State) (bar : Word) : State :=
  if bar = noBar then s else s.updTile (barTile bar) (·.barSticky (barOff bar))

def Cmd.sectors (c : Cmd) : Nat := (c.total + 255) / 256

/-- The scratchpad offset of the remote barrier that a CPLOC or CPREM names (R235). -/
def Cmd.rb (c : Cmd) : Option Nat := if wbit c.len 63 then some (wbits c.len 32 22) else none

/-- The stream of a command, as a peer and a barrier signal name it, with a number. -/
def Cmd.who (c : Cmd) (t h n : Nat) : Origin :=
  ⟨BitVec.ofNat 8 t, BitVec.ofNat 2 h, (match c.queue with | .l => 1 | .w => 2 | .s => 3 | .c => 0), n⟩

/-- `k` signals to a command's remote barrier (R224, R235): to the tile `c.peer` of this module, or to the peer `c.peer` in sectors without bytes. A local
signal names the issuing context by its number, under kind 0, and the sender's own barrier. -/
def State.signalRemote (s : State) (t h : Nat) (c : Cmd) (k : Nat) : State :=
  match c.rb, c.req with
  | none, _ => s
  | some off, some r => (List.range k).foldl (fun s _ => s.emit (BitVec.ofNat 20 c.peer) (.sector r [] [] (some off) (c.who t h c.id) c.sectors)) s
  | some off, none =>
    let ctx := if isService t then 0 else (s.tileAt t).ctx
    s.pushAgenda (List.replicate k
      ⟨.remoteBarrierSignal, .signal ⟨BitVec.ofNat 32 ctx, 0, BitVec.ofNat 8 c.peer, wofNat off⟩ (some (c.who t h c.bar.toNat))⟩)

/-- A command ends with the sectors it has not landed counted as landed and sticky-error set (R227, R416). Those already on their way to a peer signal its barrier when they arrive; the others signal
it now (R98, R235). DEDUCED (log entry 41), unsafe. DEDUCED (log entry 173), unsafe. -/
def State.abandonCmd (s : State) (t h : Nat) (c : Cmd) : State :=
  let n := c.sectors - c.landed.length
  let s := ((s.stickyBar c.bar).landBar t h c.bar n (c.named c.firstOpen)).signalRemote t h c (n - c.sent.length)
  s.updThread t h (fun x => { x with cmds := x.cmds.filter (·.id != c.id) })

/-! ## What a stream has started (R266, R268) -/

/-- The head of an engine stream: its replay position inside a loop whose body it holds, else its queue's head. -/
def Engine.head (e : Engine) : Option QEnt :=
  if !e.loops.isEmpty && e.pos < e.rb.length then e.rb[e.pos]? else e.q.head?

/-- The head is replaced. -/
def Engine.setHead (e : Engine) (x : QEnt) : Engine :=
  if !e.loops.isEmpty && e.pos < e.rb.length then { e with rb := e.rb.set e.pos x }
  else { e with q := x :: e.q.drop 1 }

/-- The progress of the syllable at the head. -/
def Engine.prog (e : Engine) : List Nat := e.head.elim [] (·.prog)

def Engine.setProg (e : Engine) (l : List Nat) : Engine := if e.prog = l then e else match e.head with | some q => e.setHead { q with prog := l } | none => e

/-- The W stream has started an array syllable that is held: an FWCHUNK between two steps (R336), or a syllable between two refills (R314). -/
def Thread.chunking (t : Thread) : Bool := !t.eW.prog.isEmpty

/-- A stream has started the syllable at its head, which is held: its request to a peer is under way, its bytes have entered a combining buffer, or it has progress behind it. -/
def Thread.started (t : Thread) (sl : Slot) : Bool :=
  t.remotes.any (fun r => r.stream == sl) || t.posting.contains sl || (sl != .c && !(t.eng sl).prog.isEmpty)

/-- A stream has started a syllable that completes before the stream stops (R268): a request to a peer (R255, R389), a store whose bytes have entered a combining buffer (R387; DEDUCED, log entry 166), an
array syllable (R298, R336). WRADV and WFLUSH are none: they are abandoned. -/
def Thread.bound (t : Thread) (sl : Slot) : Bool := t.remotes.any (fun r => r.stream == sl) || t.posting.contains sl || (sl == .w && t.chunking)

/-- What a trap of a stream waits for: the syllables that the thread's other streams have started and that complete (R268), and a LAUNCH whose packet has left (R462). -/
def Thread.awaits (t : Thread) (sl : Slot) : Bool :=
  (sl ≠ .c && t.flow.held == .launch) || [Slot.c, .l, .w, .s].any (fun x => x != sl && t.bound x)

/-- A WRADV, a WFLUSH and an RNDCOMMIT that wait are abandoned at a stop, and execute again from the start (R268, R462). -/
def Thread.abandon (t : Thread) : Thread := { t with eL := t.eL.setProg [], eS := t.eS.setProg [], flow := { t.flow with held := t.flow.held.stands } }

/-- The refills behind an array syllable count for nothing once it stops (R314, R340); the steps of an FWCHUNK stay (R336, R339). -/
def Thread.unrefill (t : Thread) : Thread := if t.eW.prog = [1] then { t with eW := t.eW.setProg [] } else t

/-! ## Stopping a thread and taking an exception -/

/-- The code of a stream in TCAUSE.STREAM (R360). -/
def slotCode : Slot → Nat
  | .c => 0 | .l => 1 | .w => 2 | .s => 3

/-- The stream a trap names: the acting stream, or for a reserved encoding the slot (R36). -/
def trapStream (s : State) (t : Trap) : Nat := slotCode (t.slot.getD s.slot)

def trapInfo (t : Trap) : Nat := match t.defer with | some c => c | none => t.info

/-- TCAUSE, CRCAUSE or FWCAUSE as a trap writes it (R106, R360): CAUSE, STREAM, DEFER, CTLONLY and INFO; ACTIVE is added at entry. -/
def causeWord (s : State) (t : Trap) (ctl : Bool) : Word :=
  wofNat (t.cause % 256 + trapStream s t * 2 ^ 8 + natOfBool t.defer.isSome * 2 ^ 10 + natOfBool ctl * 2 ^ 11 + trapInfo t % 2 ^ 16 * 2 ^ 16)

/-- An entry appended to Firefly's log ring at MRAM 0x090_0000 (R119), with what it names. -/
def State.logEntry (s : State) (kind : Nat) (names : List Nat := []) : State :=
  let e := Config.logEntry kind s.edge.logHead names
  { s with mems := { s.mems with mram := s.mems.mram.write (0x900000 + 64 * (s.edge.logHead % 0x4000)) (e.take 64) },
           edge := { s.edge with logHead := s.edge.logHead + 1 } }

/-- A trap inside a firmware handler, or with no handler: both service tiles halt and the module accepts no launch (R104). -/
def State.fwHalted (s : State) : State :=
  (((s.updTile 128 (fun x => { x with halted := true })).updTile 129 (fun x => { x with halted := true })).logEntry 1)
  |> fun s => { s with edge := { s.edge with fwHalt := true }, disp := { s.disp with stopped := true } }

/-- Entry into a handler, shared by user and firmware threads (R104, R361): the held syllable is put aside (R462), s24 to s31 are swapped with the
trap shadow bank, and the C stream continues at `vec`. The streams stay stopped while ACTIVE is 1 (R362). -/
def Thread.enter (t : Thread) (vec : Word) : Thread :=
  { t.abandon with
    regs := t.regs.swapTrap,
    flow := { t.flow with pc := vec, ctl := false, exiting := false, inWfi := false, held := .no, stack := t.flow.held.stands :: t.flow.stack } }

/-- The trap of a firmware thread (R104). -/
def State.trapFw (s : State) (t : Trap) : State :=
  let vec := s.svc[Fin.ofNat 2 (s.ct - 128)].fwtvec
  if s.thr.active true || vec = 0 then s.fwHalted
  else
    let fl := s.thr.flow
    s.modThr (fun x =>
      (x.enter vec) |> fun x => { x with csr := { x.csr with fwcause := wset (causeWord s t fl.ctl) 13, fwepc := fl.pc } })

/-- The user handler is entered (R361, step 2). -/
def State.trapUser (s : State) (t : Trap) : State :=
  let fl := s.thr.flow
  let vec := s.thr.csr.tvec
  s.modThr (fun x =>
    (x.enter vec) |> fun x => { x with csr := { x.csr with tcause := wset (causeWord s t fl.ctl) 13, tepc := fl.pc, taddr := t.addr } })

/-- A context is to be killed (R361, step 3): the teardown is the very next event. -/
def State.killCtx (s : State) (c : Nat) (k : Kill) : State :=
  { s with ctxs := s.ctxs.set (Fin.ofNat 64 c) { s.ctxs[Fin.ofNat 64 c] with kill := some k } }.urgent .teardownCtx (.ctx (BitVec.ofNat 6 c))

/-- Every combining line of a thread is to be sent (R386). -/
def Thread.sendLines (t : Thread) : Thread :=
  { t with win := t.win.map (fun w => { w with lines := w.lines.map (fun l => { l with send := true }), pend := w.pend.map (fun p => { p with flush := true }) }) }

def Engine.clear (_ : Engine) : Engine := Engine.empty

/-- The unwind to the innermost region of a thread (R416). DEDUCED (log entry 23), unsafe. DEDUCED (log entry 24), unsafe. -/
def State.unwind (s : State) (t : Trap) (r : Region) : State :=
  let h := s.ch
  let tile := s.ct
  let n := s.thr.crs.length
  let uiOut := wbit s.thr.csr.uimask 8 && !r.ui
  -- step 4: the commands and shuffle programs accepted since the region's CROPEN
  let s4 := ((s.thr.cmds.filter (fun c => r.cmd ≤ c.id && c.kind != .ringRow)).foldl (fun s c => s.abandonCmd tile h c) s)
  let s4 := (s4.thr.progs.filter (fun p => r.cmd ≤ p.id)).foldl
    (fun s p => ((s.stickyBar p.bar).landBar tile h p.bar 1 0).modThr (fun x => { x with progs := x.progs.filter (·.id != p.id) })) s4
  s4.modThr (fun x =>
    let x := x.sendLines
    { x with
      -- step 2
      eL := x.eL.clear, eW := x.eW.clear, eS := x.eS.clear,
      qs := { qlw := [], qws := [], qcl := [], qlc := [],
              tok := (List.range 6).foldl (fun c f => tokSet c f (tokCnt r.tok f)) x.qs.tok },
      -- step 3
      nest := none,
      remotes := [],
      posting := [],
      -- step 6
      seg := { x.seg with isOpen := false },
      regs := if uiOut then x.regs.swapUi else x.regs,
      -- step 7
      crs := x.crs.drop 1,
      csr := { x.csr with
        uimask := if uiOut then wclr x.csr.uimask 8 else x.csr.uimask,
        crcause := wput (causeWord s t false) 32 3 n, craddr := t.addr },
      flow := { x.flow with pc := r.handler, ctl := false, exiting := false, inWfi := false, held := .no,
                            stack := if uiOut then x.flow.stack.drop 1 else x.flow.stack,
                            loops := x.flow.loops.drop (x.flow.loops.length - r.depth) } })

/-- A trap in the shadow set ends the dual run: the node completes with DUAL_ABORT (R358). -/
def State.abortDual (s : State) : State :=
  { s with disp := { s.disp with nodes := s.disp.nodes.map (fun (n : Node) => if some n.id == s.tile.node then { n with abort := true } else n) } }
    |>.modTile (fun x => { x with halted := true })

/-- TAKING AN EXCEPTION (R104, R361): the one way every trap of a thread is delivered. Causes 5 and 10 unwind to an open region (R185, R415). Else a trap in a shadow set ends
its dual run (R358). Else on a service tile the firmware handler is entered; on a compute tile a breakpoint of a context with BRKHALT halts it; else the user handler is entered where there
is one and it is not running; else the context is killed. That a region of a firmware thread is passed over while its FWCAUSE.ACTIVE is 1, as one of a user thread while TCAUSE.ACTIVE is,
is DEDUCED from R106, which codes FWCAUSE as TCAUSE (DEDUCED, log entry 130). -/
def State.deliver (s : State) (t : Trap) : State :=
  let x := s.thr
  let c := s.tile.ctx
  let rec_ := s.ctxs[Fin.ofNat 64 c].record
  match x.crs, !s.active && (t.cause == 5 || t.cause == 10) with
  | r :: _, true => s.unwind t r
  | _, _ =>
    if s.tile.twin.isSome then s.abortDual
    else if s.isFw then s.trapFw t
    else if t.cause = 11 && rec_.brkHalt then
      { s with ctxs := s.ctxs.set (Fin.ofNat 64 c) { s.ctxs[Fin.ofNat 64 c] with brk := true } }.urgent .haltCtx (.ctx (BitVec.ofNat 6 c))
    else if x.csr.tvec ≠ 0 && !x.active false then s.trapUser t
    else s.killCtx c { cause := t.cause, lost := false, node := s.tile.node, addr := t.addr, tile := s.ct, thread := s.ch,
                       access := if 2 ≤ t.cause && t.cause ≤ 4 then t.info else 0 }

/-- The stream of the acting syllable as a peer names it, with the number of its next request. -/
def State.origin (s : State) : Origin :=
  ⟨BitVec.ofNat 8 s.ct, BitVec.ofNat 2 s.ch, BitVec.ofNat 2 (slotCode s.slot), s.thr.nextCmd⟩

/-- A request leaves for a peer; its answer is awaited under the number `origin` gave it. -/
def State.sendRemote (s : State) (dst : BitVec 20) (f : Flit) (kept : List (Option Byte)) : State :=
  (s.emit dst f).modThr (fun x =>
    { x with remotes := x.remotes ++ [⟨x.nextCmd, s.slot, s.run.cycle, .waiting, kept⟩], nextCmd := x.nextCmd + 1 })

/-- The progress of the acting stream's syllable. -/
def State.prog (s : State) : List Nat := if s.slot = .c then [] else (s.thr.eng s.slot).prog

def State.setProg (s : State) (l : List Nat) : State := s.modThr (·.modEng s.slot (·.setProg l))

/-- Requests of the acting stream are done with when its syllable traps. -/
def State.dropRemotes (s : State) : State := s.modThr (fun x => { x with remotes := x.remotes.filter (fun r => r.stream != s.slot) })

/-- What the acting stream's syllable had begun, when it traps. -/
def State.endStarted (s : State) : State := s.dropRemotes.modThr (fun x => if s.slot = .w then x.unrefill else x)

/-- The end of a syllable: its state; or the state before it, held, waiting, or with its trap delivered (R11). A trap waits while another stream
is in a syllable that a trap lets complete (R268, R462); a bundle whose C syllable traps has then not issued (R20). -/
def finish (s : State) (body : State → Res) : Host.Outcome State Fault Refusal :=
  match body (s.setRes .done) with
  | .ok s' => .next s'
  | .error .hold => .next (s.setRes .held)
  | .error (.ask u) => .next ((s.ask u).setRes .held)
  | .error (.send dst f kept) => .next ((s.sendRemote dst f kept).setRes .held)
  | .error (.post w) => .next ((s.modThr (fun x => { x with win := w, posting := x.posting ++ [s.slot] })).setRes .held)
  | .error .waitIssue => .next (s.setRes .waitIssue)
  | .error (.trap t) =>
    if s.thr.awaits s.slot then .next (s.setRes (if s.slot = .c then .waitIssue else .held))
    else .next (((if t.cause = 5 then s.forgetAsks else s).endStarted.deliver t).setRes .trapped)

/-- A syllable of the C stream moves control to `pc` (R66, R71). -/
def State.jump (s : State) (pc : Word) : State :=
  (s.modThr (fun t => { t with flow := { t.flow with pc := pc, ctl := false, inWfi := false } })).setRes .jumped

/-- The loop-end test of an engine after the syllable at replay position `at_` (R74). -/
def engineLoopEnd (at_ : Nat) : List LoopEnt → List LoopEnt × Nat
  | [] => ([], at_ + 1)
  | top :: rest =>
    if top.last.toNat = at_ then
      if 1 < top.remaining.toNat then ({ top with remaining := top.remaining - 1, index := top.index + 1 } :: rest, top.start.toNat)
      else engineLoopEnd at_ rest
    else (top :: rest, at_ + 1)

/-- The head leaves: it is popped, and inside a loop copied into the replay buffer, where its next iteration finds no progress; then the loop-end test (R74). `was` is the loop stack before the
syllable executed: a LOOP that opens the outermost loop is itself outside its body. -/
def Engine.retire (e : Engine) (was : List LoopEnt) : Engine :=
  if was.isEmpty then { e with q := e.q.drop 1 }
  else
    let e := if e.pos < e.rb.length then { e with rb := e.rb.modify e.pos (fun x => { x with prog := [] }) }
             else { e with q := e.q.drop 1, rb := e.rb ++ (e.q.take 1).map (fun x => { x with prog := [] }) }
    let p := engineLoopEnd e.pos e.loops
    { e with loops := p.1, pos := p.2 }

/-- The faulting engine syllable that SKIP discards at TRET (R362): the next syllable of the stream STREAM names leaves without executing. -/
def Engine.skipOne (e : Engine) : Engine := e.retire e.loops

/-- RETURN FROM AN EXCEPTION (R104, R362): s24 to s31 are swapped back, ACTIVE and SKIP clear, the C stream resumes at the saved bundle (control-only
when CTLONLY is 1) with its held syllable's mark, and the engine streams restart, first discarding the faulting syllable when SKIP is 1. -/
def Thread.leave (t : Thread) (fw : Bool) : Thread :=
  let c := if fw then t.csr.fwcause else t.csr.tcause
  let sl : Slot := match wbits c 8 2 with | 1 => .l | 2 => .w | 3 => .s | _ => .c
  let t := if wbit c 12 then t.modEng sl Engine.skipOne else t
  let c' := wclr (wclr c 13) 12
  { t with regs := t.regs.swapTrap,
           flow := { t.flow with pc := (if fw then t.csr.fwepc else t.csr.tepc), ctl := wbit c 11, exiting := false, inWfi := false,
                                 held := t.flow.stack.headD .no, stack := t.flow.stack.drop 1 },
           csr := if fw then { t.csr with fwcause := c' } else { t.csr with tcause := c' } }

end Sys2Proof.Machine
end

