-- ==== Sys2Proof/Machine/Translate.lean ====
section
/-! DEFINITION. Where an address leads: the local map (R77, R98, R201, R358), the firmware map (R103), the page tables (R200, R365), and the window table with
the checks a remote access passes at its source (R216, R217, R381, R460). -/

namespace Sys2Proof.Machine

/-- What an access is for (R200, R360, R365): scalar and vector accesses, atomics, fetch, and the engines' reads and writes. -/
inductive Acc where
  | load | store | atomic | fetch | copyIn | copyOut | gather | scatter | cpinb
  deriving DecidableEq, Repr

/-- The access kind of TCAUSE.INFO (R360). -/
def Acc.code : Acc → Nat
  | .store => 1 | .copyOut => 1 | .scatter => 1
  | .atomic => 2
  | .fetch => 3
  | _ => 0

/-- Where one run of bytes lies: a location of HBM or host memory with its page type, a scratchpad, a register space, an alias window, a
synchronisation SRAM, the BAR0 map. -/
inductive Place where
  | mem (loc type : Nat)
  | spad (tile off : Nat)
  | regs (tile off : Nat)
  | win (w off : Nat)
  | sync (die off : Nat)
  | bar0 (off : Nat)
  deriving DecidableEq, Repr

/-- Why a walk fails, or that it waits: the group has to supply an atom of a table (R212, R439). -/
inductive WalkErr where
  | fault | viol
  | absent (loc : Nat)
  | ask (atom : Nat)
  deriving DecidableEq, Repr

/-! ## Tiles -/

def dieOf (t : Nat) : Nat := if t < 128 then t / 64 else t - 128
/-- An arrival for tile `t` waits under number `key`. -/
def State.hold (s : State) (key t : Nat) (a : Arrival) : State := { s with mems := { s.mems with heldIn := s.mems.heldIn ++ [⟨key, dieOf t, a⟩] } }

/-- The cluster of a compute tile, 4 · die + cluster (R1). -/
def clusterOf (t : Nat) : Nat := t / 16

/-- The cluster's tiles are unreachable (R98). -/
def State.gated (s : State) (t : Nat) : Bool := t < 128 && s.clusters[Fin.ofNat 8 (clusterOf t)].gated

/-- The tile number a thread sees: a shadow tile reads its twin's (R358). -/
def State.seenTile (s : State) (t : Nat) : Nat := ((s.tileAt t).twin).getD t

/-- The tile whose scratchpad a slot reaches: for a shadow tile, a primary tile's slot reaches that tile's twin (R358). -/
def State.slotTile (s : State) (t n : Nat) : Nat :=
  if (s.tileAt t).twin.isNone then n
  else ((List.range 128).find? (fun x => (s.tileAt x).twin == some n && (s.tileAt x).node == (s.tileAt t).node)).getD n

/-! ## Page tables (R365) -/

def pteV (e : Nat) : Bool := e % 2 == 1
def pteLeaf (e : Nat) : Bool := e / 2 % 2 == 1
def pteHost (e : Nat) : Bool := e / 128 % 2 == 1
def pteType (e : Nat) : Nat := e / 32 % 4
def pteAddr (e : Nat) : Nat := e / 65536 % 2 ^ 41 * 65536
def pteReserved (e : Nat) : Bool := e / 256 % 256 != 0 || e / 2 ^ 57 % 128 != 0

def pteRight (e : Nat) : Acc → Bool
  | .load => e / 4 % 2 == 1
  | .copyIn => e / 4 % 2 == 1
  | .gather => e / 4 % 2 == 1
  | .cpinb => e / 4 % 2 == 1
  | .store => e / 8 % 2 == 1
  | .atomic => e / 8 % 2 == 1
  | .copyOut => e / 8 % 2 == 1
  | .scatter => e / 8 % 2 == 1
  | .fetch => e / 16 % 2 == 1

/-- The page types an access may use (R200, R231): SYNC atomics only; DEV scalar and vector loads and stores, and CPIN and CPOUT, which R231 names beside R200's list (DEDUCED, log entry
165); atomics never host memory. DEDUCED (log entry 165), unsafe. -/
def typeAllows (type : Nat) (host : Bool) : Acc → Bool
  | .atomic => !host && type != 2
  | .load => type != 3
  | .store => type != 3
  | .copyIn => type != 3
  | .copyOut => type != 3
  | _ => type != 2 && type != 3

/-- A leaf that maps a page of `size` bytes (R365). A HOST address is the context's PASID's own: each PASID has 2^57 bytes of host locations, the first 2^57 being those that
devices reach without one (DESIGN CHOICE, log entry 134). -/
def leaf (pasid e size va : Nat) (acc : Acc) : Except WalkErr (Nat × Nat) :=
  let a := pteAddr e
  if pteReserved e || a % size ≠ 0 || !pteRight e acc || (!pteHost e && 0x8800000000 ≤ a) || (pteHost e && pteType e = 3) ||
      !typeAllows (pteType e) (pteHost e) acc then .error .viol
  else .ok ((if pteHost e then hostLoc + (pasid + 1) * 2 ^ 57 else 0) + a + va % size, pteType e)

/-- The walk from a table at `level` (4 to 1), whose entries cover `size` bytes each (R365). The read of an entry may wait for the coding group (R212, R439). -/
def State.walkFrom (s : State) (pasid va : Nat) (acc : Acc) : Nat → Nat → Except WalkErr (Nat × Nat)
  | 0, _ => .error .viol
  | level + 1, table =>
    let (lo, bits) : Nat × Nat := match level with | 3 => (39, 18) | 2 => (30, 9) | 1 => (21, 9) | _ => (16, 5)
    let a := table + 8 * (va / 2 ^ lo % 2 ^ bits)
    match s.needAsk a 8 with
    | some u => .error (.ask u)
    | none =>
      let e := s.hbmNat a 8
      if !pteV e then .error .fault
      else if pteLeaf e then (if level = 3 then .error .viol else leaf pasid e (2 ^ lo) va acc)
      else if level = 0 || pteReserved e || pteHost e || 0x8800000000 ≤ pteAddr e then .error .viol
      else s.walkFrom pasid va acc level (pteAddr e)

/-- Where a firmware address leads, and the end of its range (R103): HBM, through the service tile's L1 (R102; that its pages count as WB is DEDUCED, log entry 6), or the BAR0 map. That only scalar and vector loads and stores reach the BAR0 map, while a copy command, an atomic
and a fetch there raise the access violation, is a DESIGN CHOICE (log entry 139): the spec does not say which accesses it serves. -/
def firmwarePlace (va : Nat) (acc : Acc) : Option (Place × Nat) :=
  if va < 0x9000000000 then some (.mem va 0, 0x9000000000)
  else if 0x10000000000 ≤ va && va < 0x10001000000 && (acc == .load || acc == .store) then some (.bar0 (va - 0x10000000000), 0x10001000000)
  else none

/-- The translation of a global address in a context; context 0 is the firmware's physical map (R103, DEDUCED, log entry 6). DEDUCED (log entry 96), unsafe. -/
def State.walk (s : State) (c va : Nat) (acc : Acc) : Except WalkErr Place :=
  if c = 0 then
    match firmwarePlace va acc with
    | some (p, _) => .ok p
    | none => .error .viol
  else
    match s.walkFrom s.ctxs[Fin.ofNat 64 c].record.pasid.toNat va acc 4 s.ctxs[Fin.ofNat 64 c].record.ptroot with
    | .error e => .error e
    | .ok (loc, ty) => if s.hostAbsent loc then .error (.absent loc) else .ok (.mem loc ty)

/-- Runs of at most one page each, with the first address and the length of each. -/
def pageRuns : Nat → Nat → Nat → List (Nat × Nat)
  | 0, _, _ => []
  | fuel + 1, va, n =>
    if n = 0 then [] else
    let k := min n (0x10000 - va % 0x10000)
    (va, k) :: pageRuns fuel (va + k) (n - k)

/-- A run of bytes of an access and where it lies. -/
structure Piece where
  place : Place
  va    : Nat
  n     : Nat
  deriving DecidableEq, Repr

/-- `n` bytes of the firmware's map from `va`: one piece, which lies in one range (R103). -/
def firmwarePieces (va n : Nat) (acc : Acc) : Except (WalkErr × Nat) (List Piece) :=
  if n = 0 then .ok []
  else match firmwarePlace va acc with
    | none => .error (.viol, va)
    | some (p, last) => if va + n ≤ last then .ok [⟨p, va, n⟩] else .error (.viol, last)

/-- The pieces of `n` bytes of global space from `va`: an access violation of any page first, then a page fault of any (R185). The address is the first
byte of the access that lies in the failing page. A walk that waits comes before them: its page is not judged yet. -/
def State.globalPieces (s : State) (c va n : Nat) (acc : Acc) : Except (WalkErr × Nat) (List Piece) :=
  if c = 0 then firmwarePieces va n acc else
  let runs := (pageRuns (n / 0x10000 + 2) va n).map (fun r => (r, s.walk c (r.1 % 2 ^ 57) acc))
  let bad := fun (p : WalkErr → Bool) =>
    runs.findSome? (fun r => match r.2 with | .error e => if p e then some (e, r.1.1) else none | .ok _ => none)
  let waits := fun (e : WalkErr) => match e with | .ask _ => true | _ => false
  match if 2 ^ 57 < va + n then some (.viol, max va (2 ^ 57)) else (bad waits).or (bad (· == .viol)) with
  | some e => .error e
  | none =>
    match bad (fun _ => true) with
    | some e => .error e
    | none => .ok (runs.filterMap (fun r => match r.2 with | .ok p => some ⟨p, r.1.1, r.1.2⟩ | .error _ => none))

/-! ## The local map (R201, R202) -/

/-- `n` bytes at a local offset of thread `h` of tile `t`; none outside every mapped range, across two of them, or in an unreachable tile (R98).
DEDUCED (log entry 29), unsafe. -/
def State.localPlace (s : State) (t h off n : Nat) : Option Place :=
  if off + n ≤ 0x300000 then some (.spad t off)
  else if 0x800000 ≤ off && off + n ≤ 0x880000 then some (.regs t (off - 0x800000))
  else if 0x880000 ≤ off && off + n ≤ 0x8A0000 then some (.regs t (h * 0x20000 + (off - 0x880000)))
  else if 0x10000000 ≤ off && off < 0x30000000 then
    let x := s.slotTile t ((off - 0x10000000) / 0x400000)
    let o := (off - 0x10000000) % 0x400000
    if o + n ≤ 0x300000 then some (.spad x o) else none
  else if 0x40000000 ≤ off && off < 0x80000000 then
    let o := off % 0x1000000
    if o + n ≤ 0x1000000 then some (.win ((off - 0x40000000) / 0x1000000) o) else none
  else if 0xF0000000 ≤ off && off + n ≤ 0xF0800000 then some (.sync (dieOf t) (off - 0xF0000000))
  else none

/-- The mapped range of the local map that an offset lies in (R201): the own scratchpad, the register space, the thread's window of it, the synchronisation SRAM, a tile's scratchpad by its slot,
an alias window. -/
def localRange (off : Nat) : Nat :=
  if off < 0x800000 then 0
  else if off < 0x880000 then 1
  else if off < 0x10000000 then 2
  else if off < 0x40000000 then 16 + (off - 0x10000000) / 0x400000
  else if off < 0xF0000000 then 1024 + (off - 0x40000000) / 0x1000000
  else 3

/-- A place in another tile that is unreachable (R98). -/
def State.unreachable (s : State) (t : Nat) : Place → Bool
  | .spad x _ => x != t && s.gated x
  | _ => false

/-! ## Addresses of a thread (R77) -/

/-- The context whose translation a tile's threads use: 0 on a service tile (R103). -/
def State.ctxOf (s : State) (t : Nat) : Nat := if isService t then 0 else (s.tileAt t).ctx

/-- An address lies in the local aperture. -/
def State.isLocal (s : State) (t : Nat) (a : Word) : Bool := wbits a 32 25 == (s.tileAt t).localBase.toNat && wbits a 57 7 == 0

/-- Where the bytes of a scalar, vector or atomic access of thread (t, h) lie (R77, R182), or the trap it raises. A place of the synchronisation SRAM is
given back for every kind: only an atomic may use it (R220). Bytes of the local aperture never go through the page tables (R199): a run that starts below it ends in the own scratchpad. -/
def State.resolve (s : State) (t h : Nat) (a : Word) (n : Nat) (acc : Acc) : Except Stop (List Piece) :=
  if wbits a 57 7 ≠ 0 then .error (accessViol acc.code a)
  else if s.isLocal t a then
    match s.localPlace t h (wbits a 0 32) n with
    | none => .error (accessViol acc.code a)
    | some p => if s.unreachable t p then .error (accessViol acc.code a) else .ok [⟨p, wbits a 0 32, n⟩]
  else
    let base := (s.tileAt t).localBase.toNat * 2 ^ 32
    let low := if a.toNat < base then min n (base - a.toNat) else n
    match s.globalPieces (s.ctxOf t) a.toNat low acc with
    | .error (.viol, va) => .error (accessViol acc.code (wofNat va))
    | .error (.ask u, _) => .error (.ask u)
    | .error (_, va) => .error (pageFault acc.code (wofNat va))
    | .ok ps => .ok (ps ++ (if low < n then [⟨.spad t 0, 0, n - low⟩] else []))

/-! ## The window table (R216, R217) -/

/-- Coordinate `k` of a module number (R381). -/
def coordOf (ext : Word) : Nat → Nat → Nat
  | 0, n => n % (wbits ext 0 12 + 1)
  | k + 1, n => coordOf (ext >>> 12) k (n / (wbits ext 0 12 + 1))

def State.ndim (s : State) : Nat := wbits s.fab.id 20 3
def State.extent (s : State) (k : Nat) : Nat := wbits s.fab.ext (12 * k) 12 + 1
def State.systemSize (s : State) : Nat := (List.range s.ndim).foldl (fun p k => p * s.extent k) 1

/-- Two modules lie in one load-store domain (R381). -/
def State.sameDomain (s : State) (a b : Nat) : Bool :=
  (List.range s.ndim).all (fun k =>
    coordOf s.fab.ext k a / (wbits s.fab.dom (12 * k) 12 + 1) == coordOf s.fab.ext k b / (wbits s.fab.dom (12 * k) 12 + 1))

/-- A window-table entry (R216). -/
structure WEnt where
  peer   : Nat
  kind   : Nat
  rights : Nat
  key    : Nat
  base   : Nat
  limit  : Nat
  target : Nat
  deriving DecidableEq, Repr

/-- The address of entry `h` of a context's window table; none above its entry count. -/
def CtxRec.winAddr (r : CtxRec) (h : Nat) : Option Nat := if r.wtCount ≤ h then none else some ((r.wtBase.toNat + 32 * h) % 2 ^ 57)

/-- The atom that the group has to supply before an entry of the window table can be read (R212, R439). -/
def State.winAsk (s : State) (c h : Nat) : Option Nat :=
  match (s.ctxs[Fin.ofNat 64 c].record.winAddr h).map (fun a => s.walk c a .load) with
  | some (.ok (.mem loc _)) => s.locAsk loc 32
  | some (.error (.ask u)) => some u
  | _ => none

/-- Entry `h` of a context's window table; none above its entry count, of no valid kind, or in a page that cannot be read.
The table is read at each use, so a new entry holds at once; R218 would allow the old one up to the next WINBIND, resumption or node: DESIGN CHOICE (log entry 156).
DEDUCED (log entry 28), unsafe. -/
def State.winEntry (s : State) (c h : Nat) : Option WEnt :=
  match (s.ctxs[Fin.ofNat 64 c].record.winAddr h).map (fun a => s.walk c a .load) with
  | some (.ok (.mem loc _)) =>
    let b := s.locBytes loc 32
    let w := leAt b 0 8
    let kind := w / 2 ^ 20 % 16
    if kind = 0 || 4 ≤ kind then none
    else some ⟨w % 2 ^ 20, kind, w / 2 ^ 24 % 16, w / 2 ^ 32, leAt b 8 8, leAt b 16 8, leAt b 24 1⟩
  | _ => none

/-- The use of a window-table entry waits where the group has to supply it. -/
def State.awaitEntry (s : State) (c h : Nat) : Except Stop Unit :=
  match s.winAsk c h with
  | some u => .error (.ask u)
  | none => .ok ()

/-- A remote address `o` bytes further on. Bytes never wrap (R217): an address past 2^64 stands at the top, where no byte of a target lies. -/
def pastReq (r : RemoteReq) (o : Nat) : RemoteReq := { r with addr := wofNat (min (r.addr.toNat + o) (2 ^ 64 - 1)) }

/-- The checks of R217 at the source of a remote access of `n` bytes at offset `o` through handle `h`: `right` 0 read, 1 write, 2 atomic, 3 launch; `far` when
any module of the system may be named. The entry's target address is BASE + o. -/
def State.remoteCheck (s : State) (c h o n right : Nat) (far : Bool) : Option (WEnt × RemoteReq) :=
  match s.winEntry c h with
  | none => none
  | some e =>
    if e.rights / 2 ^ right % 2 = 1 && o + n ≤ e.limit && e.peer < s.systemSize && (far || s.sameDomain s.modNum.toNat e.peer) then
      some (e, pastReq ⟨BitVec.ofNat 32 e.key, BitVec.ofNat 4 e.kind, BitVec.ofNat 8 e.target, wofNat e.base⟩ o)
    else none

end Sys2Proof.Machine
end

