-- ==== Sys2Proof/Machine/Csr.lean ====
section
/-! DEFINITION. The CSRs: their values as a thread reads them, the access codes of their fields (R7), the effect of a write on each, and the BAR0 map as it reads (R108, R109). -/

namespace Sys2Proof.Machine

/-! ## Values made from state -/

/-- Physical indices 0 to 271 of a dimension that are neither retired nor mapped: the spares (R289). -/
def sparesOf (map ret : List Nat) : List Nat := (List.range 272).filter (fun i => !map.contains i && !ret.contains i)
def Geom.spareRows (g : Geom) : List Nat := sparesOf g.rows g.retR
def Geom.spareCols (g : Geom) : List Nat := sparesOf g.cols g.retC

/-- A fault that ASSAY found and no retirement has cured (R290, R306): a cell needs both its row and its column mapped. -/
def Geom.pending (g : Geom) (d : Defect) : Bool :=
  match d.kind with
  | 0 => d.target == 0 && g.rows.contains d.index
  | 1 => d.target ≤ 1 && g.cols.contains d.index
  | 2 => d.target == 0 && g.cols.contains d.index && g.rows.contains d.row
  | _ => false

def Geom.fpend (g : Geom) : Bool := g.faulty.any g.pending

/-- GEOM of a compute tile (R290). -/
def Geom.word (g : Geom) : Word :=
  wofNat (g.rows.length + g.cols.length * 2 ^ 9 + min g.spareRows.length 31 * 2 ^ 18 + min g.spareCols.length 31 * 2 ^ 23 + g.gen.toNat * 2 ^ 28 +
    natOfBool g.fpend * 2 ^ 44)

/-- GEOMSP (R291). -/
def Geom.spWord (g : Geom) : Word := wofNat (g.spareRows.length + g.spareCols.length * 2 ^ 9 + g.gen.toNat * 2 ^ 18)

def BState.code : BState → Nat
  | .free => 0 | .owned => 1 | .pinned => 2 | .spilled => 3 | .migrating => 4

/-- Bytes 0 to 7 of an ownership entry (R312). -/
def OwnEnt.word (e : OwnEnt) : Word :=
  wofNat (e.st.code + natOfBool e.pin * 2 ^ 3 + e.slot.toNat * 2 ^ 4 + natOfBool e.fmt * 2 ^ 6 + natOfBool e.hold * 2 ^ 7 + e.thread.toNat * 2 ^ 8 +
    e.ctx.toNat * 2 ^ 10 + e.tag.toNat * 2 ^ 16 + e.sgen.toNat * 2 ^ 32)

/-- ACENT as a context reads it: of another context's entry only STATE and CONTEXT (R313). -/
def OwnEnt.seen (e : OwnEnt) (c : Nat) : Word :=
  if e.ctx.toNat = c then e.word else wofNat (e.st.code + e.ctx.toNat * 2 ^ 10)

def GState.code : GState → Nat
  | .none => 0 | .opened => 1 | .preparing => 2 | .voted => 3 | .applying => 4 | .recovering => 5 | .lost => 6

/-- TGRP_STAT (R421). -/
def Group.stat (g : Group) : Word :=
  wofNat (g.st.code + natOfBool g.busy * 2 ^ 3 + g.cmdErr.toNat * 2 ^ 4 + natOfBool g.logFull * 2 ^ 8 + natOfBool g.recast * 2 ^ 9 + natOfBool g.lostSelf * 2 ^ 10 +
    g.mlost.toNat * 2 ^ 16 + g.hlost.toNat * 2 ^ 32)

/-- TGRP_EXPSTAT (R441). -/
def Group.expStat (g : Group) : Word :=
  wofNat (g.expBusy.toNat + natOfBool g.expSlot * 2 ^ 2 + g.expRes.toNat * 2 ^ 8 + g.expMiss.toNat * 2 ^ 12)

/-- The parity image's size on a holder: the largest end over the members' region tables it keeps (R426). -/
def Group.paritySize (g : Group) : Nat :=
  g.peerReg.foldl (fun n r => max n ((wbits r.spec 23 23 + wbits r.spec 0 23) * 0x10000)) 0

/-- The recast units of the image of this module, or of the parity it keeps (R437). -/
def Group.unitTotal (g : Group) : Nat := (if g.role = 2 then g.paritySize else g.imageSize) / 0x10000

/-- TGRP_RCPROG (R437). -/
def Group.rcProg (g : Group) : Word := wofNat (g.units.length % 2 ^ 23 + g.unitTotal % 2 ^ 23 * 2 ^ 23 + natOfBool (g.unitTotal != 0 && g.units.length == g.unitTotal) * 2 ^ 63)

/-- CLPM_STAT (R91). -/
def Cluster.stat (c : Cluster) : Word :=
  wofNat (c.st.toNat + natOfBool c.busy * 2 ^ 4 + natOfBool c.pgood * 2 ^ 5 + c.error.toNat * 2 ^ 8 + natOfBool c.wakereq * 2 ^ 12 + min c.parked.length 0xFFFF * 2 ^ 16)

/-- WAKEPEND with CLWAKE, the OR of WAKEREQ over the die's clusters (R106). -/
def State.wakePend (s : State) (die : Nat) : Word :=
  let cl := (List.range 4).any (fun c => s.clusters[Fin.ofNat 8 (4 * die + c)].wakereq)
  wofNat (s.svc[Fin.ofNat 2 die].wakepend.toNat / 2 * 2 + natOfBool cl)

/-- PWR_STAT (R115). -/
def Edge.pwrStat (e : Edge) : Word :=
  wofNat (e.pwrNow.toNat + e.level % 16 * 2 ^ 12 + natOfBool e.fastlim * 2 ^ 16 + natOfBool e.thermlim * 2 ^ 17)

/-- MGMT_OWNER (R111). -/
def Edge.ownerWord (e : Edge) : Word :=
  wofNat (e.owner.toNat + natOfBool e.linkDown * 2 ^ 2 + natOfBool e.seized * 2 ^ 3 + e.drops.toNat * 2 ^ 8)

/-- FAB_STAT and FAB_FRAME (R380). -/
def Fabric.stat (f : Fabric) : Word :=
  wofNat (f.up.toNat + f.failed.toNat * 2 ^ 24 + natOfBool f.latesw * 2 ^ 48 + natOfBool f.schederr * 2 ^ 49)
def Fabric.frameWord (f : Fabric) : Word := wofNat (f.frame.toNat + f.slot.toNat * 2 ^ 48)

/-- WBINDw, WALLOWw (R219, R387). -/
def Window.bind (w : Window) : Word := wofNat (w.handle.toNat + natOfBool w.bound * 2 ^ 16)
def Window.allow (w : Window) : Word := wofNat (w.limit.toNat + w.flits.length % 1024 * 2 ^ 16 + w.lines.length % 16 * 2 ^ 32)

/-- QUOTA of a context (R380, R401), and the slots it holds. -/
def State.quota (s : State) (c : Nat) : Nat := wbits s.fab.rquota[Fin.ofNat 8 (c / 8)] (8 * (c % 8)) 8
def State.slotsHeld (s : State) (c : Nat) : Nat :=
  ((List.range 256).filter (fun i => s.fab.rslots[Fin.ofNat 256 i].holder == some c && !s.fab.rslots[Fin.ofNat 256 i].dying)).length

/-- TILEID (R2, R358). -/
def State.tileId (s : State) (t h : Nat) : Word := wofNat (s.seenTile t + h * 2 ^ 8 + natOfBool (isService t) * 2 ^ 10)

/-! ## Reading -/

/-- A CSR in 0x000 to 0x7FF as thread (t, h) reads it; none when the number is unassigned. -/
def State.userCsr (s : State) (t h n : Nat) : Option Word :=
  let x := s.threadAt t h
  let u := x.csr
  if n = 0x000 then some u.warn
  else if n = 0x001 then some u.flags
  else if n = 0x002 then some (u.rmode.setWidth 64)
  else if n = 0x003 then some (u.srseed.setWidth 64)
  else if n = 0x008 then some u.uivec
  else if n = 0x009 then some u.uicause
  else if n = 0x00A then some u.uimask
  else if n = 0x00B then some u.uiepc
  else if n = 0x00C then some (wofNat ((s.tileAt t).localBase.toNat * 2 ^ 32))
  else if 0x010 ≤ n && n ≤ 0x013 then some (loopIndex x.flow.loops (n - 0x010))
  else if 0x020 ≤ n && n ≤ 0x02F then some u.tbreg[Fin.ofNat 16 (n - 0x020)]
  else if n = 0x030 then some u.cperr
  else if n = 0x031 then some u.cperraddr
  else if n = 0x032 then some (u.gpstat.setWidth 64)
  else if n = 0x040 then some u.tvec
  else if n = 0x041 then some u.tcause
  else if n = 0x042 then some u.tepc
  else if n = 0x043 then some u.taddr
  else if n = 0x100 then some u.vview
  else if 0x110 ≤ n && n ≤ 0x11F then some u.tview[Fin.ofNat 16 (n - 0x110)]
  else if n = 0x120 then some u.aview
  else if n = 0x130 then some x.qs.tok
  else if n = 0x200 then some x.ntab.nctl
  else if 0x202 ≤ n && n ≤ 0x20D then
    some (if n % 2 = 0 then x.ntab.la[Fin.ofNat 6 ((n - 0x202) / 2)] else x.ntab.lb[Fin.ofNat 6 ((n - 0x202) / 2)])
  else if 0x240 ≤ n && n ≤ 0x27F then some x.ntab.gtab[Fin.ofNat 64 (n - 0x240)]
  else if 0x300 ≤ n && n ≤ 0x30F then
    match n % 4 with
    | 0 => some u.fwcfg[Fin.ofNat 4 ((n - 0x300) / 4)]
    | 1 => some u.fwadr[Fin.ofNat 4 ((n - 0x300) / 4)]
    | 2 => some u.fwstr[Fin.ofNat 4 ((n - 0x300) / 4)]
    | _ => none
  else if 0x400 ≤ n && n ≤ 0x43F then some x.win[Fin.ofNat 64 (n - 0x400)].allow
  else if 0x440 ≤ n && n ≤ 0x47F then some x.win[Fin.ofNat 64 (n - 0x440)].bind
  else if 0x480 ≤ n && n ≤ 0x4BF then some x.win[Fin.ofNat 64 (n - 0x480)].wstat
  else if n = 0x500 then some (wofNat (s.slotsHeld (s.ctxOf t) + s.quota (s.ctxOf t) * 2 ^ 8))
  else if n = 0x510 then some (x.seg.count.setWidth 64)
  else if n = 0x511 then some ((x.seg.sig ^^^ 0xFFFFFFFF).setWidth 64)
  else if n = 0x512 then some (wofNat (x.seg.left.toNat + natOfBool x.seg.isOpen * 2 ^ 63))
  else if n = 0x518 then some u.crcause
  else if n = 0x519 then some u.craddr
  else if n = 0x51A then some (wofNat x.crs.length)
  else if 0x51C ≤ n && n ≤ 0x51F then some (match x.crs.reverse[n - 0x51C]? with | some r => r.handler | none => 0)
  else none

/-- A CSR in 0xC00 to 0xFFF, the identity range (R2, R273, R290, R291, R313). -/
def State.identCsr (s : State) (t h n : Nat) : Option Word :=
  let x := s.tileAt t
  if n = 0xC00 then some (if isService t then 0 else x.geom.word)
  else if n = 0xC01 then some (s.tileId t h)
  else if n = 0xC02 then some (if isService t then 0 else x.geom.spWord)
  else if 0xC08 ≤ n && n ≤ 0xC0C then some x.domid[Fin.ofNat 5 (n - 0xC08)]
  else if 0xC40 ≤ n && n ≤ 0xC7F then some (x.own[Fin.ofNat 64 (n - 0xC40)].seen (s.ctxOf t))
  else none

/-- A privileged CSR in 0x800 to 0xBFF as thread `h` of the service tile of `die` reads it (R105). -/
def State.privCsr (s : State) (die h n : Nat) : Option Word :=
  let x := s.threadAt (128 + die) h
  let v := s.svc[Fin.ofNat 2 die]
  let e := s.edge
  let d := s.disp
  let f := s.fab
  let g := s.grp
  if n = 0x800 then some v.fwtvec
  else if n = 0x801 then some x.csr.fwcause
  else if n = 0x802 then some x.csr.fwepc
  else if n = 0x804 then some (wofNat s.cycleCount)
  else if n = 0x805 then some v.fwtimer
  else if n = 0x808 then some (s.wakePend die)
  else if n = 0x809 then some (v.wakemask.setWidth 64)
  else if n = 0x840 then some (e.pwrCap.setWidth 64)
  else if n = 0x841 then some e.pwrStat
  else if n = 0x842 then some (wofNat (e.tmax.toNat + e.tinlet.toNat * 2 ^ 8))
  else if 0x860 ≤ n && n ≤ 0x877 then some s.margin.vmarg[Fin.ofNat 24 (n - 0x860)]
  else if n = 0x878 then some (s.margin.vmctl.setWidth 64)
  else if 0x880 ≤ n && n ≤ 0x88F then
    let c := s.clusters[Fin.ofNat 8 (4 * die + (n - 0x880) / 4)]
    match n % 4 with
    | 1 => some c.stat
    | 3 => some c.retbase
    | _ => some 0
  else if n = 0x890 then some (d.clen.setWidth 64)
  else if n = 0x8A0 then some e.ownerWord
  else if n = 0x8C0 then some (e.alarmCfg.setWidth 64)
  else if n = 0x8C1 then some (e.alarmStat.setWidth 64)
  else if n = 0x8C2 then some e.bootStat
  else if n = 0x900 then some g.cfg
  else if n = 0x901 then some g.round
  else if n = 0x902 then some 0
  else if n = 0x903 then some g.stat
  else if n = 0x904 then some g.log
  else if 0x908 ≤ n && n ≤ 0x90B then some g.holders[Fin.ofNat 4 (n - 0x908)]
  else if 0x910 ≤ n && n ≤ 0x91F then some g.members[Fin.ofNat 16 (n - 0x910)]
  else if 0x920 ≤ n && n ≤ 0x924 then some g.domains[Fin.ofNat 5 (n - 0x920)]
  else if n = 0x928 then some g.expA
  else if n = 0x929 then some g.expB
  else if n = 0x92A then some 0
  else if n = 0x92B then some g.expStat
  else if n = 0x92C then some (if g.rcActive then wset g.rcCfg 63 else g.rcCfg)
  else if n = 0x92D then some g.rcProg
  else if n = 0x940 then some d.ctl
  else if n = 0x941 then some d.ctxtab
  else if n = 0x942 then some d.lqtab
  else if n = 0x943 then some 0
  else if n = 0x944 then some (wofNat (natOfBool ((List.range 64).any (fun c => s.ctxs[Fin.ofNat 64 c].preempt)) + d.error.toNat * 2 ^ 4))
  else if n = 0x945 then some d.dwlim
  else if n = 0x946 then some d.fqbase
  else if n = 0x947 then some 0
  else if n = 0x948 then some (wofBool d.tlbBusy)
  else if n = 0x9C0 then some f.id
  else if n = 0x9C1 then some f.ext
  else if n = 0x9C2 then some f.dom
  else if n = 0x9C3 then some f.portA
  else if n = 0x9C4 then some f.portB
  else if n = 0x9C5 then some f.split
  else if n = 0x9C6 then some f.sched
  else if n = 0x9C7 then some 0
  else if n = 0x9C8 then some f.frameWord
  else if n = 0x9C9 then some f.route
  else if n = 0x9CA then some f.rtree
  else if n = 0x9CB then some f.stat
  else if n = 0x9CC then some (f.rlate.setWidth 64)
  else if 0x9D0 ≤ n && n ≤ 0x9D7 then some f.rquota[Fin.ofNat 8 (n - 0x9D0)]
  else if 0xA00 ≤ n && n ≤ 0xA5F then
    let p := Fin.ofNat 24 ((n - 0xA00) / 4)
    match n % 4 with
    | 0 => some (if s.margin.lmrun[p].isSome then wset s.margin.lmctl[p] 18 else s.margin.lmctl[p])
    | 1 => some s.margin.lmerr[p]
    | 2 => some s.margin.lmcrc[p]
    | _ => some s.margin.lmlane[p]
  else none

/-- CSR `n` as thread (t, h) reads it. Privileged numbers exist for firmware threads only (R84, R101). -/
def State.csrRead (s : State) (t h n : Nat) : Option Word :=
  if n < 0x800 then s.userCsr t h n
  else if n < 0xC00 then (if isService t then s.privCsr (t - 128) h n else none)
  else s.identCsr t h n

/-! ## Access codes (R7) -/

/-- Bits `lo+n-1..lo` as a mask. -/
def bitsMask (lo n : Nat) : Word := wofNat ((2 ^ n - 1) * 2 ^ lo)

/-- The RW fields of a CSR. -/
def rwMask (n : Nat) : Word :=
  if n = 0x002 then 7
  else if n = 0x003 || n = 0x032 then bitsMask 0 32
  else if n = 0x008 || n = 0x00B || n = 0x040 || n = 0x042 || n = 0x800 || n = 0x802 then bitsMask 4 60
  else if n = 0x00A then 3
  else if n = 0x041 || n = 0x801 then bitsMask 12 1
  else if n = 0x100 then bitsMask 9 8 ||| bitsMask 24 8
  else if 0x110 ≤ n && n ≤ 0x11F then bitsMask 6 53
  else if n = 0x120 then bitsMask 6 27
  else if n = 0x130 then bitsMask 0 30
  else if n = 0x200 then bitsMask 0 34
  else if 0x202 ≤ n && n ≤ 0x20D then (if n % 2 = 0 then bitsMask 0 54 else bitsMask 0 11)
  else if 0x240 ≤ n && n ≤ 0x27F then bitsMask 0 36
  else if 0x300 ≤ n && n ≤ 0x30F then (if n % 4 = 0 then bitsMask 0 6 ||| bitsMask 8 17 else bitsMask 0 55)
  else if 0x400 ≤ n && n ≤ 0x43F then bitsMask 0 10
  else if 0x480 ≤ n && n ≤ 0x4BF then bitsMask 8 8
  else if n = 0x805 || n = 0x901 || n = 0x945 || n = 0x9C3 then BitVec.allOnes 64
  else if n = 0x809 then bitsMask 1 7
  else if n = 0x840 then bitsMask 0 12
  else if 0x860 ≤ n && n ≤ 0x877 then bitsMask 0 8
  else if n = 0x878 then 3
  else if 0x880 ≤ n && n ≤ 0x88F then (if n % 4 = 3 then bitsMask 16 41 else 0)
  else if n = 0x890 then bitsMask 0 8
  else if n = 0x8A0 then 3
  else if n = 0x8C0 then 7
  else if n = 0x8C2 then 1
  else if n = 0x900 then bitsMask 0 23 ||| bitsMask 24 13
  else if n = 0x904 then bitsMask 0 12 ||| bitsMask 16 41
  else if 0x908 ≤ n && n ≤ 0x90B then bitsMask 0 61 ||| bitsMask 63 1
  else if 0x910 ≤ n && n ≤ 0x91F then bitsMask 0 20 ||| bitsMask 63 1
  else if 0x920 ≤ n && n ≤ 0x924 then BitVec.allOnes 64
  else if n = 0x928 || n = 0x929 || n = 0x9C5 || n = 0x9C9 || n = 0x9CA then bitsMask 12 45
  else if n = 0x92C then bitsMask 0 13 ||| bitsMask 32 20
  else if n = 0x940 then bitsMask 0 1 ||| bitsMask 16 32
  else if n = 0x941 then bitsMask 14 50
  else if n = 0x942 || n = 0x946 then bitsMask 17 47
  else if n = 0x9C0 then bitsMask 0 23
  else if n = 0x9C1 || n = 0x9C2 then bitsMask 0 60
  else if n = 0x9C4 || n = 0x9CC then bitsMask 0 32
  else if n = 0x9C6 then bitsMask 19 38
  else if 0x9D0 ≤ n && n ≤ 0x9D7 then BitVec.allOnes 64
  else if 0xA00 ≤ n && n ≤ 0xA5F then
    (if n % 4 = 0 then bitsMask 0 17 ||| bitsMask 32 16 else if n % 4 = 2 then BitVec.allOnes 64 else 0)
  else 0

/-- The W1C fields of a CSR. -/
def w1cMask (n : Nat) : Word :=
  if n = 0x009 then bitsMask 0 17
  else if n = 0x030 then bitsMask 0 12
  else if 0x480 ≤ n && n ≤ 0x4BF then bitsMask 0 6
  else if n = 0x808 then bitsMask 1 7
  else if 0x880 ≤ n && n ≤ 0x88F then (if n % 4 = 1 then bitsMask 12 1 else 0)
  else if n = 0x8A0 then bitsMask 3 1
  else if n = 0x9CB then bitsMask 24 26
  else if 0xA00 ≤ n && n ≤ 0xA5F then (if n % 4 = 3 then bitsMask 8 8 else 0)
  else 0

/-- The RS fields of a CSR. -/
def rsMask (n : Nat) : Word :=
  if n = 0x000 || n = 0x001 then bitsMask 0 6
  else if n = 0x841 then bitsMask 16 2
  else if 0x860 ≤ n && n ≤ 0x877 then bitsMask 17 1
  else if n = 0x8C1 then bitsMask 0 4
  else 0

/-- The three writing instructions (R83). -/
inductive CsrOp where
  | write | set | clear
  deriving DecidableEq, Repr

/-- Every field under its access code: `o` the value before, `x` the operand (R7, R83). -/
def csrNew (op : CsrOp) (n : Nat) (o x : Word) : Word :=
  let rw := rwMask n
  match op with
  | .write => ((o &&& ~~~rw) ||| (x &&& rw)) &&& ~~~(x &&& w1cMask n) &&& ~~~(~~~x &&& rsMask n)
  | .set => o ||| (x &&& rw)
  | .clear => o &&& ~~~(x &&& rw)

/-! ## Storing -/

/-- TOKCFG: a count above 8 is stored as 8, a count beside EN 0 as 0 (R263). -/
def tokLegal (v : Word) : Word :=
  (List.range 6).foldl (fun c f => tokSet c f (if tokEn v f then min (tokCnt v f) 8 else 0)) v

/-- A field that keeps its old value when the new one is above `hi`. -/
def keepAbove (o v : Word) (lo n hi : Nat) : Word := if hi < wbits v lo n then wput v lo n (wbits o lo n) else v

def Thread.modCsr (x : Thread) (f : UCsr → UCsr) : Thread := { x with csr := f x.csr }

/-- A new value for a user CSR of a thread, with the field rules of its map. -/
def Thread.putCsr (x : Thread) (n : Nat) (o v : Word) : Thread :=
  if n = 0x000 then x.modCsr ({ · with warn := v })
  else if n = 0x001 then x.modCsr ({ · with flags := v })
  else if n = 0x002 then (if 4 < wbits v 0 3 then x else x.modCsr ({ · with rmode := v.setWidth 3 }))
  else if n = 0x003 then x.modCsr ({ · with srseed := if v = 0 then 1 else v.setWidth 32 })
  else if n = 0x008 then x.modCsr ({ · with uivec := v })
  else if n = 0x009 then x.modCsr ({ · with uicause := v })
  else if n = 0x00A then x.modCsr ({ · with uimask := v })
  else if n = 0x00B then x.modCsr ({ · with uiepc := v })
  else if n = 0x030 then x.modCsr ({ · with cperr := v })
  else if n = 0x032 then x.modCsr ({ · with gpstat := v.setWidth 32 })
  else if n = 0x040 then x.modCsr ({ · with tvec := v })
  else if n = 0x041 then x.modCsr ({ · with tcause := v })
  else if n = 0x042 then x.modCsr ({ · with tepc := v })
  else if n = 0x100 then x.modCsr ({ · with vview := v })
  else if 0x110 ≤ n && n ≤ 0x11F then x.modCsr (fun c => { c with tview := c.tview.set (Fin.ofNat 16 (n - 0x110)) (keepAbove o v 36 4 8) })
  else if n = 0x120 then x.modCsr ({ · with aview := keepAbove o v 28 4 4 })
  else if n = 0x130 then { x with qs := { x.qs with tok := tokLegal v } }
  else if n = 0x200 then { x with ntab := { x.ntab with nctl := keepAbove o v 12 4 8 } }
  else if 0x202 ≤ n && n ≤ 0x20D then
    { x with ntab := if n % 2 = 0 then { x.ntab with la := x.ntab.la.set (Fin.ofNat 6 ((n - 0x202) / 2)) v }
                     else { x.ntab with lb := x.ntab.lb.set (Fin.ofNat 6 ((n - 0x202) / 2)) v } }
  else if 0x240 ≤ n && n ≤ 0x27F then { x with ntab := { x.ntab with gtab := x.ntab.gtab.set (Fin.ofNat 64 (n - 0x240)) v } }
  else if 0x300 ≤ n && n ≤ 0x30F then
    let f := Fin.ofNat 4 ((n - 0x300) / 4)
    x.modCsr (fun c => match n % 4 with
      | 0 => { c with fwcfg := c.fwcfg.set f v }
      | 1 => { c with fwadr := c.fwadr.set f v }
      | _ => { c with fwstr := c.fwstr.set f v })
  else if 0x400 ≤ n && n ≤ 0x43F then
    let w := Fin.ofNat 64 (n - 0x400)
    { x with win := x.win.set w { x.win[w] with limit := v.setWidth 10 } }
  else if 0x480 ≤ n && n ≤ 0x4BF then
    let w := Fin.ofNat 64 (n - 0x480)
    { x with win := x.win.set w { x.win[w] with wstat := v } }
  else x

/-- FWTIMER: a write that makes the comparison true sets TIMER; one that leaves it true does not (R106). -/
def State.putTimer (s : State) (die : Nat) (v : Word) : State :=
  let d := Fin.ofNat 2 die
  let x := s.svc[d]
  let was := x.timerOn
  let now := v.toNat ≤ s.cycleCount
  let s := { s with svc := s.svc.set d { x with fwtimer := v, timerOn := now, wakepend := if now && !was then x.wakepend ||| 8 else x.wakepend } }
  if now && !was then s.markPriv (privKey die 0x808) 8 else s

/-- A write to DISP_CLEN: the bit of a cluster that is not ACTIVE stays 0 (R94). -/
def State.putClen (s : State) (v : Word) : State :=
  let held := (List.range 8).foldl (fun m c => if s.clusters[Fin.ofNat 8 c].st = 0 then m else m + 2 ^ c) 0
  { s with disp := { s.disp with clen := v.setWidth 8 &&& ~~~BitVec.ofNat 8 held } }

/-- A group register is written only while STATE is NONE (R421). -/
def State.modGrpCfg (s : State) (f : Group → Group) : State := if s.grp.st = .none then { s with grp := f s.grp } else s

/-- The offset a rail is to reach: nominal while ENABLE is 0 (R455). -/
def Margin.target (m : Margin) (d : Fin 24) : BitVec 8 := if m.vmctl[0] then m.vmarg[d].setWidth 8 else 0

/-- SETTLED is 0 on every rail that is not at its offset, and 1 on every other: the ramp to an offset that the rail already has is at its end (R456). -/
def Margin.unsettle (m : Margin) : Margin :=
  { m with vmarg := Vector.ofFn (fun d => if m.applied[d] = m.target d then wset m.vmarg[d] 16 else wclr m.vmarg[d] 16) }

/-- A new value for a privileged CSR, written through the service tile of `die` by its thread `h`. VMARG, MGMT_OWNER and the command registers act through
their events. -/
def State.putPriv (s : State) (die h n : Nat) (v : Word) : State :=
  let d := Fin.ofNat 2 die
  if n = 0x800 then { s with svc := s.svc.set d { s.svc[d] with fwtvec := v } }
  else if n = 0x801 then s.updThread (128 + die) h (·.modCsr ({ · with fwcause := v }))
  else if n = 0x802 then s.updThread (128 + die) h (·.modCsr ({ · with fwepc := v }))
  else if n = 0x805 then s.putTimer die v
  else if n = 0x808 then { s with svc := s.svc.set d { s.svc[d] with wakepend := v.setWidth 8 } }
  else if n = 0x809 then { s with svc := s.svc.set d { s.svc[d] with wakemask := v.setWidth 8 } }
  else if n = 0x840 then { s with edge := { s.edge with pwrCap := BitVec.ofNat 12 (max 300 (min 2700 (wbits v 0 12))) } }
  else if n = 0x841 then { s with edge := { s.edge with fastlim := wbit v 16, thermlim := wbit v 17 } }
  else if n = 0x878 then (if s.margin.vmctl[1] then s else { s with margin := ({ s.margin with vmctl := v.setWidth 2 } : Margin).unsettle })
  else if 0x880 ≤ n && n ≤ 0x88F then
    let c := Fin.ofNat 8 (4 * die + (n - 0x880) / 4)
    let x := s.clusters[c]
    { s with clusters := s.clusters.set c (if n % 4 = 1 then { x with wakereq := wbit v 12 } else if n % 4 = 3 then { x with retbase := v } else x) }
  else if n = 0x890 then s.putClen v
  else if n = 0x8C0 then
    if s.edge.alarmCfg[2] then s
    else { s with edge := { s.edge with alarmCfg := (if wbits v 0 2 = 3 then (v.setWidth 3 &&& 4) ||| (s.edge.alarmCfg &&& 3) else v.setWidth 3) } }
  else if n = 0x8C1 then { s with edge := { s.edge with alarmStat := v.setWidth 4 } }
  else if n = 0x8C2 then { s with edge := { s.edge with bootStat := s.edge.bootStat ||| (v &&& 1) } }
  else if n = 0x900 then s.modGrpCfg ({ · with cfg := v })
  else if n = 0x901 then s.modGrpCfg ({ · with round := v })
  else if n = 0x904 then s.modGrpCfg ({ · with log := v })
  else if 0x908 ≤ n && n ≤ 0x90B then s.modGrpCfg (fun g => { g with holders := g.holders.set (Fin.ofNat 4 (n - 0x908)) v })
  else if 0x910 ≤ n && n ≤ 0x91F then s.modGrpCfg (fun g => { g with members := g.members.set (Fin.ofNat 16 (n - 0x910)) v })
  else if 0x920 ≤ n && n ≤ 0x924 then s.modGrpCfg (fun g => { g with domains := g.domains.set (Fin.ofNat 5 (n - 0x920)) v })
  else if n = 0x928 then s.modGrpCfg ({ · with expA := v })
  else if n = 0x929 then s.modGrpCfg ({ · with expB := v })
  else if n = 0x92C then (if s.grp.rcActive then s else { s with grp := { s.grp with rcCfg := v } })
  else if n = 0x940 then { s with disp := { s.disp with ctl := if wbits v 16 16 = 0 then wput v 16 16 1 else v } }
  else if n = 0x941 then { s with disp := { s.disp with ctxtab := v } }
  else if n = 0x942 then { s with disp := { s.disp with lqtab := v } }
  else if n = 0x945 then { s with disp := { s.disp with dwlim := if v = 0 then 0x1000000 else v } }
  else if n = 0x946 then { s with disp := { s.disp with fqbase := v } }
  else if n = 0x9C0 then
    let k := wbits v 20 3
    { s with fab := { s.fab with id := if k = 0 || 5 < k then wput v 20 3 (wbits s.fab.id 20 3) else v } }
  else if n = 0x9C1 then { s with fab := { s.fab with ext := v } }
  else if n = 0x9C2 then { s with fab := { s.fab with dom := v } }
  else if n = 0x9C3 then { s with fab := { s.fab with portA := v } }
  else if n = 0x9C4 then { s with fab := { s.fab with portB := v } }
  else if n = 0x9C5 then { s with fab := { s.fab with split := v } }
  else if n = 0x9C6 then { s with fab := { s.fab with sched := v } }
  else if n = 0x9C9 then { s with fab := { s.fab with route := v } }
  else if n = 0x9CA then { s with fab := { s.fab with rtree := v } }
  else if n = 0x9CB then
    { s with fab := { s.fab with failed := BitVec.ofNat 24 (wbits v 24 24), latesw := wbit v 48, schederr := wbit v 49 } }
  else if n = 0x9CC then { s with fab := { s.fab with rlate := v.setWidth 32 } }
  else if 0x9D0 ≤ n && n ≤ 0x9D7 then { s with fab := { s.fab with rquota := s.fab.rquota.set (Fin.ofNat 8 (n - 0x9D0)) v } }
  else if 0xA00 ≤ n && n ≤ 0xA5F then
    let p := Fin.ofNat 24 ((n - 0xA00) / 4)
    match n % 4 with
    | 0 => { s with margin := { s.margin with lmctl := s.margin.lmctl.set p (wclr (wclr v 17) 18) } }
    | 2 => { s with margin := { s.margin with lmcrc := s.margin.lmcrc.set p v } }
    | 3 => { s with margin := { s.margin with lmlane := s.margin.lmlane.set p v } }
    | _ => s
  else s

/-- The actions that a CSRW to a write-only field triggers: each is the event of the opcode table that is due next. -/
def State.csrAct (s : State) (die n : Nat) (who : Writer) (v : Word) : State :=
  if 0x860 ≤ n && n ≤ 0x877 then s.urgent .vmargWrite (.vmarg (BitVec.ofNat 5 (n - 0x860)) v)
  else if 0x880 ≤ n && n ≤ 0x88F then
    let cl : BitVec 3 := BitVec.ofNat 3 (4 * die + (n - 0x880) / 4)
    if n % 4 = 2 then (if wbit v 0 then s.urgent .clpmWake (.cluster cl) else s)
    else if n % 4 = 0 then
      match wbits v 0 4 with
      | 0 => s
      | 1 => s.urgent .clpmQuiesce (.clusterCmd cl 0)
      | 2 => s.urgent .clpmSave (.cluster cl)
      | 3 => s.urgent .gateClk (.cluster cl)
      | 4 => s.urgent .gateRail (.cluster cl)
      | 5 => s.urgent .ungateRail (.cluster cl)
      | 6 => s.urgent .ungateClk (.cluster cl)
      | 7 => s.urgent .clpmRestore (.cluster cl)
      | 8 => s.urgent .clpmRelease (.cluster cl)
      | c => s.urgent .clpmQuiesce (.clusterCmd cl (BitVec.ofNat 3 (c - 8)))
    else s
  else if n = 0x8A0 then s.urgent .mgmtOwnerWrite (.write who v)
  else if n = 0x902 then
    match wbits v 0 4 with
    | 0 => s
    | 1 => s.urgent .joinGroup .none
    | 2 => s.urgent .leaveGroup .none
    | 3 => s.urgent .startSource .none
    | 4 => s.urgent .stopSource .none
    | _ => { s with grp := { s.grp with cmdErr := 5 } }
  else if n = 0x92A then
    match wbits v 0 2 with
    | 1 => s.urgent .exportShard .none
    | 2 => s.urgent .restoreShard (.restore (BitVec.ofNat 60 (wbits v 4 60)) [])
    | 3 => s.urgent .cancelExport .none
    | _ => s
  else if n = 0x943 then
    let c : BitVec 6 := BitVec.ofNat 6 (wbits v 0 6)
    if (List.range 64).any (fun c => s.ctxs[Fin.ofNat 64 c].preempt) then { s with disp := { s.disp with error := 1 } }
    else match wbits v 8 4 with
    | 1 => s.urgent .createCtx (.ctx c)
    | 2 => s.urgent .teardownCtx (.ctx c)
    | 3 => s.urgent .preemptCtx (.ctx c)
    | 4 => s.urgent .haltCtx (.ctx c)
    | 5 => s.urgent .resumeCtx (.ctx c)
    | 6 => s.urgent .stepThread (.step c (BitVec.ofNat 2 (wbits v 12 2)) (BitVec.ofNat 19 (wbits v 32 19)))
    | _ => { s with disp := { s.disp with error := 1 } }
  else if n = 0x947 then s.urgent .tlbinv (.tlb (BitVec.ofNat 6 (wbits v 0 6)) (wbit v 6) (BitVec.ofNat 41 (wbits v 16 41)))
  else if n = 0x9C7 then s.urgent .fabSwitch (.word v)
  else if 0xA00 ≤ n && n ≤ 0xA5F then
    if n % 4 = 0 && wbit v 17 then s.urgent .linkMarginStart (.port (BitVec.ofNat 5 ((n - 0xA00) / 4))) else s
  else s

/-- A write to a privileged CSR by firmware or through a mirror (R83, R109, R112). The value of OWNER, SEIZED's clearing and VMARG are the business of their
events. -/
def State.writePriv (s : State) (die h n : Nat) (who : Writer) (op : CsrOp) (x : Word) : State :=
  match s.privCsr die h n with
  | none => s
  | some o =>
    let v := csrNew op n o x ||| freshBits s.run.fresh (privKey die n)
    if n = 0x8A0 || (0x860 ≤ n && n ≤ 0x877) then s.csrAct die n who (if op = .write then x else v &&& ~~~w1cMask n)
    else
      let s := s.putPriv die h n v
      if op = .write then s.csrAct die n who x else s

/-- A write to a CSR by the acting thread: `o` its value before. What hardware has set in this cycle stays set (R8). -/
def State.csrWrite (s : State) (op : CsrOp) (n : Nat) (o x : Word) : State :=
  if n < 0x800 then s.modThr (fun t => t.putCsr n o (csrNew op n o x ||| freshBits t.fresh n)) else s.writePriv (s.ct - 128) s.ch n .firmware op x

/-! ## The BAR0 map as it reads (R108, R109, R367) -/

/-- A host write that is discarded is counted in HOSTERR (R108). DEDUCED (log entry 27), unsafe. -/
def State.countHostErr (s : State) : State :=
  let e := BitVec.ofNat 17 (min (s.edge.hosterr.toNat % 2 ^ 16 + 1) 0xFFFF + 2 ^ 16)
  { s with edge := { s.edge with hosterr := e } }.markPriv 0x20 ((e &&& ~~~s.edge.hosterr ||| 0x10000).setWidth 64)

/-- A naturally aligned 8-byte read of BAR0; an unlisted offset reads as all ones. The mirrors show thread 0's FWEPC and FWCAUSE (DEDUCED, log entry 10). -/
def State.bar0Read (s : State) (off : Nat) : Word :=
  if off = 0x000000 then wofNat (wbits s.fab.id 0 20 + s.edge.revision.toNat * 2 ^ 20)
  else if off = 0x000008 || off = 0x000018 then 0
  else if off = 0x000010 then wofNat (s.edge.apbase.toNat * 2 ^ 30)
  else if off = 0x000020 then s.edge.hosterr.setWidth 64
  else if 0x100000 ≤ off && off < 0x104000 then (s.privCsr ((off - 0x100000) / 0x2000) 0 (0x800 + off % 0x2000 / 8)).getD (BitVec.allOnes 64)
  else if 0x200000 ≤ off && off < 0x202000 then 0
  else if off = 0x210000 then s.disp.fqTail
  else if off = 0x210008 then s.disp.fqHead
  else if off = 0x210010 then 0
  else BitVec.allOnes 64

end Sys2Proof.Machine
end

