-- ==== Sys2Proof/Machine/L1.lean ====
section
/-! DEFINITION. The L1 data cache of a tile (R207, R208, R284): fills, stores, evictions, CLEAN and FLUSH. Lines are named by their location (a physical
address of HBM, or 2^60 plus a host address) divided by 64, superblocks by it divided by 256. -/

namespace Sys2Proof.Machine

open Host (Cell)

def State.modL1 (s : State) (t : Nat) (f : L1 → L1) : State := s.updTile t (fun x => { x with l1 := f x.l1 })

/-- The set of a superblock: PA[14:8] (R207). -/
def l1Set (b : Nat) : Nat := b % 128

/-- Bytes of a superblock are dropped. -/
def L1.drop (c : L1) (b : Nat) : L1 :=
  { blocks := delNat b c.blocks, valid := c.valid.filter (fun l => l / 4 != b),
    data := ⟨c.data.cells.filter (fun e => e.1 / 256 != b)⟩, dirty := c.dirty.filter (fun a => a / 256 != b),
    poison := c.poison.filter (fun u => u / 8 != b) }

/-- The dirty bytes of one superblock are written back in one burst: only the bytes that the tile's stores have written (R284). A half-line that the L1 holds poisoned is written in two parts,
neither of which covers it: no one store has covered its 32 bytes, and its atom stays poisoned where it is so (R208, R211). -/
def State.writeBack (s : State) (t b : Nat) : State :=
  let c := (s.tileAt t).l1
  let cs := (c.dirty.filter (fun a => a / 256 == b)).map (fun a => (a, c.data.byte a))
  if cs.isEmpty then s
  else
    let bad := cs.filter (fun e => c.poison.contains (e.1 / 32))
    let s := s.locWriteCells (cs.filter (fun e => !c.poison.contains (e.1 / 32)))
    let s := if bad.isEmpty then s else (s.locWriteCells (bad.filter (fun e => e.1 % 32 < 16))).locWriteCells (bad.filter (fun e => 16 ≤ e.1 % 32))
    s.modL1 t (fun c => { c with dirty := c.dirty.filter (fun a => a / 256 != b) })

/-- The superblocks of a tile that hold some of `n` bytes at a location are evicted. An L1 may evict at any time (R208). -/
def State.evictOwn (s : State) (t loc n : Nat) : State :=
  let bs := if n = 0 then [] else (List.range ((loc + n - 1) / 256 - loc / 256 + 1)).map (· + loc / 256)
  (bs.filter (fun b => (s.tileAt t).l1.blocks.contains b)).foldl (fun (s : State) b => (s.writeBack t b).modL1 t (·.drop b)) s

/-- Bytes have been written at locations of HBM or of host memory past the L1s: the superblocks that hold some of them are evicted first, in every tile, so that each later access sees the new bytes
(R249, R260). -/
def State.evictLoc (s : State) (loc n : Nat) : State := (List.range 130).foldl (fun (s : State) t => s.evictOwn t loc n) s

/-- CLEAN writes back every dirty line (R208). -/
def State.cleanL1 (s : State) (t : Nat) : State :=
  if (s.tileAt t).l1.dirty.isEmpty then s else (s.tileAt t).l1.blocks.foldl (fun s b => s.writeBack t b) s

/-- FLUSH performs CLEAN, then invalidates every line (R208). -/
def State.flushL1 (s : State) (t : Nat) : State := (s.cleanL1 t).modL1 t (fun _ => ⟨[], [], Memory.empty, [], []⟩)

/-- A superblock is allocated, its set's oldest one evicted when all twelve ways are taken (R207; the replacement order is DESIGN CHOICE, log entry 9). -/
def State.allocL1 (s : State) (t b : Nat) : State :=
  let c := (s.tileAt t).l1
  if c.blocks.contains b then s
  else
    let same := c.blocks.filter (fun x => l1Set x == l1Set b)
    let s := match same with
      | v :: _ => if 12 ≤ same.length then (s.writeBack t v).modL1 t (·.drop v) else s
      | [] => s
    s.modL1 t (fun c => { c with blocks := c.blocks ++ [b] })

/-- One line is fetched: its bytes, and a poison bit for each poisoned atom (R208). -/
def State.fillLine (s : State) (t l : Nat) : State :=
  let bs := s.locBytes (64 * l) 64
  let ps := s.locPoison (64 * l) 64
  (s.modL1 t (fun c => { c with valid := insNat l c.valid, data := c.data.write (64 * l) bs,
                                poison := ps.foldr insNat (c.poison.filter (fun u => u / 2 != l)) })).forgetAtoms [2 * l, 2 * l + 1]

/-- The lines of a range that are not valid. -/
def State.missing (s : State) (t loc n : Nat) : List Nat :=
  let v := (s.tileAt t).l1.valid
  ((List.range ((loc + n - 1) / 64 - loc / 64 + 1)).map (· + loc / 64)).filter (fun l => !v.contains l)

/-- The requested lines are fetched, then the other lines of their superblocks (R208); a requested line that holds an atom the coding group must supply waits
for it (R212), another such line is left out. -/
def State.fill (s : State) (t loc n : Nat) : Except Stop State :=
  let need := s.missing t loc n
  match need.findSome? (fun l => s.locAsk (64 * l) 64) with
  | some u => .error (.ask u)
  | none =>
    let blocks := (need.map (· / 4)).eraseDups
    let s := blocks.foldl (fun s b => s.allocL1 t b) s
    let s := need.foldl (fun s l => s.fillLine t l) s
    .ok (blocks.foldl (fun s b =>
      (((List.range 4).map (· + 4 * b)).filter (fun l => !(s.tileAt t).l1.valid.contains l && (s.locAsk (64 * l) 64).isNone)).foldl
        (fun s l => s.fillLine t l) s) s)

/-- A load of `n` bytes at a WB location: the bytes and the first poisoned unit among them. DESIGN CHOICE (log entry 125), unsafe. -/
def State.l1Read (s : State) (t loc n : Nat) : Except Stop (List Byte × Option Nat × State) := do
  let s ← s.fill t loc n
  let c := (s.tileAt t).l1
  return (c.data.read loc n, (unitsOf loc n).find? (fun u => c.poison.contains u), s)

/-- A store of the given bytes at a WB location, all in one page. A line that the store covers whole needs no fetch (R208). -/
def State.l1Write (s : State) (t : Nat) (cs : List Cell) : Except Stop State := do
  let lines := (cs.map (fun c => c.1 / 64)).eraseDups
  let s ← lines.foldlM (fun s l =>
    if (s.tileAt t).l1.valid.contains l then .ok s
    else if (List.range 64).all (fun i => cs.any (fun c => c.1 == 64 * l + i)) then
      .ok ((s.allocL1 t (l / 4)).modL1 t (fun c => { c with valid := insNat l c.valid }))
    else s.fill t (64 * l) 64) s
  return s.modL1 t (fun c =>
    { c with data := c.data.writeCells cs, dirty := cs.foldr (fun e d => insNat e.1 d) c.dirty,
             poison := c.poison.filter (fun u => !((List.range 32).all (fun i => cs.any (fun e => e.1 == 32 * u + i)))) })

end Sys2Proof.Machine
end

