-- ==== Sys2Proof/Machine/Access.lean ====
section
/-! DEFINITION. Scalar and vector accesses on the SCALAR/VECTOR path (R77 to R80, R181 to R186, R191, R271), posted remote writes and remote loads (R386, R387,
R389), the signature of a dual run (R358), and instruction fetch (R16, R80). -/

namespace Sys2Proof.Machine

open Host (Cell)

/-! ## Dual runs (R358) -/

/-- The tile belongs to the shadow set of a dual run. -/
def State.shadow (s : State) (t : Nat) : Bool := (s.tileAt t).twin.isSome

/-- A round or reduction-slot instruction raises the access violation in a shadow set (R358; which instructions these are is DEDUCED, log entry 167). -/
def inPrimary (body : State → Res) (s : State) : Res := if s.shadow s.ct then .error (accessViol 0 0) else body s

/-- The tile runs a dual-run node, in either set. -/
def State.dual (s : State) (t : Nat) : Bool :=
  match (s.tileAt t).node with
  | none => false
  | some n => s.disp.nodes.any (fun m => m.id == n && m.pkt.flags[0])

/-- The signature's term for byte `b` at virtual address `a`. -/
def sigTerm (a : Nat) (b : Byte) : Word := wofNat ((a * 2 ^ 8 + b.toNat) * 0x9E3779B97F4A7C15)

def State.addSig (s : State) (t : Nat) (cs : List Cell) : State :=
  if s.dual t then s.updTile t (fun x => { x with sig := cs.foldl (fun g c => g + sigTerm c.1 c.2) x.sig }) else s

/-! ## Combining buffers (R386, R387) -/

/-- A window access of a bound window passes the source checks of R217, or it is an access violation (R219, R386, R389). -/
def State.winCheck (s : State) (t h w o n right : Nat) : Option (WEnt × RemoteReq) :=
  let x := (s.threadAt t h).win[Fin.ofNat 64 w]
  if !x.bound || s.shadow t then none else s.remoteCheck (s.ctxOf t) x.handle.toNat o n right false

/-- The atom that the group has to supply before a bound window's entry can be read. -/
def State.winWait (s : State) (t h w : Nat) : Option Nat :=
  let x := (s.threadAt t h).win[Fin.ofNat 64 w]
  if !x.bound || s.shadow t then none else s.winAsk (s.ctxOf t) x.handle.toNat

/-- The byte that a thread's combining buffer holds for a window offset; a range has at most one line (R386). -/
def Window.held (x : Window) (o : Nat) : Option Byte :=
  x.lines.findSome? (fun l =>
    if l.off == o / 64 * 64 && l.mask.getLsbD (o % 64) then some (BitVec.ofNat 8 (l.data.toNat / 2 ^ (8 * (o % 64)))) else none)

/-- A byte merged into a line. -/
def Line.merge (l : Line) (i : Nat) (b : Byte) : Line :=
  { l with mask := l.mask ||| BitVec.ofNat 64 (2 ^ i),
           data := (l.data &&& ~~~BitVec.ofNat 512 (255 * 2 ^ (8 * i))) ||| BitVec.ofNat 512 (b.toNat * 2 ^ (8 * i)) }

/-- A line is to be sent, and a stream waits for its departure, whoever had it sent first (R387). -/
def Line.flag (l : Line) (sl : Slot) : Line := { l with send := true, waits := if l.waits.contains sl then l.waits else l.waits ++ [sl] }

/-- The first `n` lines of a window are to be sent: lines leave in the order of their allocation (R386). -/
def Window.flagFirst (x : Window) (n : Nat) (sl : Slot) : Window := { x with lines := (x.lines.take n).map (·.flag sl) ++ x.lines.drop n }

/-- A stream waits for a line of the window to leave (R387). -/
def Window.blocks (x : Window) (sl : Slot) : Bool := x.lines.any (fun l => l.waits.contains sl)

/-- One byte of a store enters the buffer, none when a line must leave first. A range without a line takes one, the oldest line being sent first when all eight are taken; a line whose
mask comes to be all ones is sent. -/
def Window.put (x : Window) (sl : Slot) (dst : BitVec 20) (base : RemoteReq) (o : Nat) (b : Byte) : Window × Bool :=
  let off := o / 64 * 64
  let x := if x.lines.any (fun l => l.off == off) || 8 ≤ x.lines.length then x
    else { x with lines := x.lines ++ [⟨off, 0, 0, false, [], dst, pastReq base off⟩] }
  match x.lines.findIdx? (fun l => l.off == off) with
  | none => (x.flagFirst 1 sl, false)
  | some j =>
    let x := { x with lines := x.lines.modify j (·.merge (o % 64) b) }
    (if x.lines.any (fun l => l.off == off && l.mask == BitVec.allOnes 64) then x.flagFirst (j + 1) sl else x, true)

/-- The bytes of one store enter the buffer in ascending order until a line that its stream waits for must leave; what is left, if anything (R387). -/
def Window.take (x : Window) (p : PendStore) : List Cell → Window × List Cell
  | [] => (x, [])
  | (o, b) :: cs =>
    if x.blocks p.slot then (x, (o, b) :: cs)
    else match x.put p.slot p.dst p.req o b with
      | (x, true) => x.take p cs
      | (x, false) => (x, (o, b) :: cs)

/-- The stores that wait go on in their order, each while the one before it has entered whole. -/
def Window.pump (x : Window) : List PendStore → Window
  | [] => { x with pend := [] }
  | p :: ps =>
    match x.take p p.cells with
    | (x, []) => (if p.flush then x.flagFirst x.lines.length p.slot else x).pump ps
    | (x, cs) => { x with pend := { p with cells := cs } :: ps }

/-- A posted remote write of the given window offsets and bytes, in ascending order. `e` is the entry; its BASE is the target of window offset 0.
DEDUCED (log entry 32), unsafe. -/
def State.postWrite (s : State) (t h w : Nat) (e : WEnt) (cs : List Cell) : State :=
  let base : RemoteReq := ⟨BitVec.ofNat 32 e.key, BitVec.ofNat 4 e.kind, BitVec.ofNat 8 e.target, wofNat e.base⟩
  s.updThread t h (fun x =>
    let i := Fin.ofNat 64 w
    { x with win := x.win.set i { x.win[i].pump (x.win[i].pend ++ [⟨s.slot, BitVec.ofNat 20 e.peer, base, cs, false⟩]) with idle := 0 } })

/-- A stream waits for the departure of a line, or for bytes of its store to enter the buffer (R387). -/
def Thread.lineWait (x : Thread) (sl : Slot) : Bool := x.win.toList.any (fun w => w.blocks sl || w.pend.any (fun p => p.slot == sl))

/-! ## Poison and deferred faults (R185, R215, R271) -/

/-- The fault a window ring of the tile deferred into a scratchpad unit, if it did: its cause and global address. -/
def Tile.deferred (x : Tile) (off : Nat) : Option (Nat × Word) :=
  (List.range 4).findSome? (fun h =>
    (List.range 4).findSome? (fun r =>
      let g := x.th[Fin.ofNat 4 h].rings[Fin.ofNat 4 r]
      if !g.valid then none
      else g.faults.findSome? (fun f =>
        let a := g.slot0 + (f.1 % g.s) * g.b
        if a < off + 32 && off < a + g.b then some (f.2.1, f.2.2) else none)))

/-- The trap of a load that consumes poison at address `a`, at unit `u` of tile `x`'s scratchpad when it lies there. -/
def poisonTrap (a : Word) (d : Option (Nat × Word)) : Stop :=
  match d with
  | none => poisoned a
  | some (c, va) => .trap { cause := 5, addr := va, defer := some c }

/-! ## Loads -/

/-- The bytes of one piece, and the trap when it touches poison. `base` is the address of the piece's first byte as the thread names it. An access past the L1 finds what the thread's own
accesses through the L1 have stored: the tile's superblocks there are evicted first (R79; DEDUCED, log entry 164). -/
def State.readPiece (s : State) (t : Nat) (base : Word) (p : Piece) : Except Stop (List Byte × Option Stop × State) :=
  let bad := fun (unit first : Nat) => wofNat (base.toNat + (32 * unit - first))
  match p.place with
  | .mem loc ty =>
    if ty = 0 then do
      let (bs, u, s) ← s.l1Read t loc p.n
      return (bs, u.map (fun u => poisoned (bad u loc)), s)
    else
      let s := s.evictOwn t loc p.n
      match s.locAsk loc p.n with
      | some u => .error (.ask u)
      | none => .ok (s.locBytes loc p.n, (s.locPoison loc p.n).head?.map (fun u => poisoned (bad u loc)), s)
  | .spad x o =>
    let m := (s.tileAt x).spad
    .ok (m.mem.read o p.n, ((unitsOf o p.n).find? (fun u => m.poison.contains u)).map (fun u => poisonTrap (bad u o) ((s.tileAt x).deferred (32 * u))), s)
  | .regs x o =>
    let m := (s.tileAt x).regs
    .ok (m.mem.read o p.n, ((unitsOf o p.n).find? (fun u => m.poison.contains u)).map (fun u => poisoned (bad u o)), s)
  | .bar0 off =>
    .ok (if p.n = 8 && off % 8 = 0 then leBytes 8 (s.bar0Read off).toNat else List.replicate p.n 0xFF, none, s)
  | .win _ _ => .error (accessViol 0 base)
  | .sync _ _ => .error (accessViol 0 base)

/-- The bytes of a remote load: those kept from the buffer at the load, and for the others the peer's, which begin at the first that the buffer lacked. -/
def loadBytes (kept : List (Option Byte)) (got : List Byte) : List Byte :=
  let first := kept.findIdx (·.isNone)
  kept.zipIdx.map (fun p => p.1.getD ((got[p.2 - first]?).getD 0))

/-- The request of a remote load: from the first byte that the buffer lacks to the last, with the places it lacks. -/
def restReq (req : RemoteReq) (kept : List (Option Byte)) (who : Origin) : Flit :=
  let lacks := (List.range kept.length).filter (fun i => ((kept[i]?).getD none).isNone)
  let first := lacks.headD 0
  .loadReq (pastReq req first) (BitVec.ofNat 10 (lacks.getLastD 0 + 1 - first)) (lacks.foldl (fun (m : BitVec 512) i => m ||| BitVec.ofNat 512 (2 ^ (i - first))) 0) who

/-- A remote load through a bound window (R389): the bytes that its buffer holds at the load, and the peer's for the rest; it holds its stream until they are here. -/
def State.remoteLoad (s : State) (t h w o n : Nat) (a : Word) : Except Stop (List Byte × State) :=
  match s.winWait t h w, s.winCheck t h w o n 0 with
  | some u, _ => .error (.ask u)
  | none, none => .error (accessViol 0 a)
  | none, some (e, req) =>
    let x := s.threadAt t h
    match x.remotes.find? (fun r => r.stream == s.slot) with
    | none =>
      let kept := (List.range n).map (fun i => x.win[Fin.ofNat 64 w].held (o + i))
      if kept.all (·.isSome) then .ok (loadBytes kept [], s)
      else .error (.send (BitVec.ofNat 20 e.peer) (restReq req kept s.origin) kept)
    | some r =>
      match r.ans with
      | .waiting => .error .hold
      | .bytes true _ => .error (poisoned a)
      | .bytes false bs => .ok (loadBytes r.kept bs, s.updThread t h (fun x => { x with remotes := x.remotes.filter (·.id != r.id) }))
      | _ => .error (accessViol 0 a)

/-- The first cause of R185 among several accesses: an access violation of any, then a page fault of any, then whatever else stops one. -/
def firstStop (l : List Stop) : Option Stop :=
  let isCause := fun (c : Nat) (e : Stop) => match e with | .trap t => t.cause == c | _ => false
  match l.find? (isCause 4) with
  | some e => some e
  | none => match l.find? (isCause 3) with
    | some e => some e
    | none => l.head?

/-- The errors of a list of results. -/
def errorsOf {α : Type} (l : List (Except Stop α)) : List Stop := l.filterMap (fun r => match r with | .error e => some e | .ok _ => none)

def okOf {α : Type} (l : List (Except Stop (List α))) : List α := (l.map (fun r => match r with | .ok a => a | .error _ => [])).flatten

/-- A place that the local map gives. -/
def Place.isLocal : Place → Bool
  | .mem _ _ => false
  | .bar0 _ => false
  | _ => true

/-- A place that a scalar or vector access may not use (R182, R220, R358): the synchronisation SRAM, and an alias window where `win` is false. -/
def badPlace (win : Bool) : Place → Bool
  | .sync _ _ => true
  | .win _ _ => !win
  | _ => false

/-- The local bytes of one syllable lie in one mapped range, or it is an access violation (R182). -/
def rangeStop (acc : Acc) (rs : List (Word × List Piece)) : List Stop :=
  match rs.filterMap (fun r => (r.2.find? (fun p => p.place.isLocal)).map (fun p => (r.1, localRange p.va))) with
  | [] => []
  | (_, k) :: l => ((l.find? (fun x => x.2 != k)).map (fun x => accessViol acc.code x.1)).toList

/-- Where every byte of several accesses lies; the first cause of R185 stops them all. DEDUCED (log entry 11), unsafe. -/
def State.resolveAll (s : State) (t h : Nat) (runs : List (Word × Nat)) (acc : Acc) (win : Bool) : Except Stop (List (Word × List Piece)) :=
  let res := runs.map (fun r =>
    match s.resolve t h r.1 r.2 acc with
    | .error e => .error e
    | .ok ps => if ps.any (fun p => badPlace win p.place) then .error (accessViol acc.code r.1) else .ok [(r.1, ps)])
  match firstStop (errorsOf res ++ rangeStop acc (okOf res)) with
  | some e => .error e
  | none => .ok (okOf res)

/-- The pieces of one access, read in order. -/
def State.readPieces (s : State) (t : Nat) (a : Word) : List Piece → Except Stop (List Byte × Option Stop × State)
  | [] => .ok ([], none, s)
  | p :: ps => do
    let (b1, e1, s) ← s.readPiece t a p
    let (b2, e2, s) ← s.readPieces t (a + wofNat p.n) ps
    return (b1 ++ b2, e1.or e2, s)

def State.readRuns (s : State) (t : Nat) : List (Word × List Piece) → Except Stop (List Byte × Option Stop × State)
  | [] => .ok ([], none, s)
  | (a, ps) :: rs => do
    let (b1, e1, s) ← s.readPieces t a ps
    let (b2, e2, s) ← s.readRuns t rs
    return (b1 ++ b2, e1.or e2, s)

/-- The loads of one syllable of thread (t, h): every byte of every run, in order. `win` says that it may be a remote load (R182). -/
def State.loadRuns (s : State) (t h : Nat) (runs : List (Word × Nat)) (win : Bool) : Except Stop (List Byte × State) := do
  let ps ← s.resolveAll t h runs .load win
  match ps with
  | [(a, [⟨.win w o, _, n⟩])] => s.remoteLoad t h w o n a
  | _ =>
    let (bs, bad, s) ← s.readRuns t ps
    match bad with
    | some e => .error e
    | none => .ok (bs, s)

/-- A load of `n` bytes at `a` by the acting thread. -/
def State.loadAt (s : State) (a : Word) (n : Nat) (win : Bool) : Except Stop (List Byte × State) := s.loadRuns s.ct s.ch [(a, n)] win

/-! ## Stores -/

/-- The place number of a byte for fetch: its location, or a service tile's own scratchpad byte (R80, R103). -/
def fetchPlace : Place → Option Nat
  | .mem loc _ => some loc
  | .spad t o => if isService t then some (2 ^ 61 + t * 2 ^ 32 + o) else none
  | _ => none

/-- The bytes of a piece as the tile's own stores have left them: its stored bytes in the L1 first. -/
def State.stored (s : State) (t : Nat) : Place → Nat → List Byte
  | .mem loc _, n =>
    let c := (s.tileAt t).l1
    (cellList loc (s.locBytes loc n)).map (fun e => if c.dirty.contains e.1 then c.data.byte e.1 else e.2)
  | .spad x o, n => (s.tileAt x).spad.mem.read o n
  | .regs x o, n => (s.tileAt x).regs.mem.read o n
  | _, n => List.replicate n 0

/-- A store to bytes that can be fetched leaves their old values with fetch until it may see the new ones (R80). -/
def State.markStale (s : State) (t h : Nat) (p : Piece) : State :=
  match fetchPlace p.place with
  | none => s
  | some at_ =>
    let add := (cellList at_ (s.stored t p.place p.n)).map (fun c => (⟨c.1, c.2, 4 * t + h, s.mems.stores + 1, []⟩ : StaleByte))
    { s with mems := { s.mems with stores := s.mems.stores + 1, stale := s.mems.stale ++ add } }

/-- The bytes of one piece written. -/
def State.writePiece (s : State) (t h : Nat) (a : Word) (p : Piece) (bs : List Byte) : Except Stop State :=
  match p.place with
  | .mem loc ty =>
    let s := s.addSig t (cellList p.va bs)
    if s.shadow t then .ok s
    else
      let s := s.markStale t h p
      if ty = 0 then s.l1Write t (cellList loc bs) else .ok ((s.evictOwn t loc bs.length).locWrite loc bs)
  | .spad x o => .ok ((s.markStale t h p).updTile x (fun y => { y with spad := y.spad.write o bs }))
  | .regs x o => .ok (s.updTile x (fun y => { y with regs := y.regs.write o bs }))
  | .win w o =>
    match s.winCheck t h w o p.n 1 with
    | none => .error (accessViol 1 a)
    | some (e, _) => .ok (s.postWrite t h w e (cellList o bs))
  | .bar0 off =>
    .ok (s.pushAgenda [⟨.bar0MirrorWrite, .bar0 .firmware (BitVec.ofNat 24 off) (BitVec.ofNat 4 (min p.n 15)) (wofNat (leNat bs))⟩])
  | .sync _ _ => .error (accessViol 1 a)

def State.writePieces (s : State) (t h : Nat) (a : Word) : List Piece → List Byte → Except Stop State
  | [], _ => .ok s
  | p :: ps, bs => do
    let s ← s.writePiece t h a p (bs.take p.n)
    s.writePieces t h (a + wofNat p.n) ps (bs.drop p.n)

/-- The stop of a store into a piece before any byte moves: a window whose source checks fail (R386), a granule that holds a live barrier (R185). -/
def State.windowStop (s : State) (t h : Nat) (a : Word) (p : Piece) : Option Stop :=
  match p.place with
  | .win w o =>
    match s.winWait t h w with
    | some u => some (.ask u)
    | none => if (s.winCheck t h w o p.n 1).isNone then some (accessViol 1 a) else none
  | _ => none

/-- The violation of a store into a live barrier granule (R185, R234). TADDR names the first address of the piece, not the byte in the granule: DESIGN CHOICE (log entry 155). -/
def State.barrierStop (s : State) (a : Word) (p : Piece) : Option Stop :=
  match p.place with
  | .spad x o => if (s.tileAt x).touchesLive o p.n then some (barrierViol a) else none
  | _ => none

/-- Pieces with the address of each as the thread names it. -/
def placed (a : Word) : List Piece → List (Word × Piece)
  | [] => []
  | p :: ps => (a, p) :: placed (a + wofNat p.n) ps

/-- The writes of checked stores. Posted bytes that force lines out hold the stream until those have left: the syllable then completes, with its pops, its pushes and its base register, in one act (R181,
R191, R387). -/
def State.writeRuns (s : State) (t h : Nat) (l : List ((Word × List Piece) × List Byte)) : Except Stop State := do
  let s' ← l.foldlM (fun s r => s.writePieces t h r.1.1 r.1.2 r.2) s
  if l.any (fun r => r.1.2.any (fun p => match p.place with | .win _ _ => true | _ => false)) && (s'.threadAt t h).lineWait s.slot then .error (.post (s'.threadAt t h).win)
  else return s'

/-- The stores of one syllable of thread (t, h): runs of bytes, in order, all checked before any byte moves (R181, R184, R185). `win` says that they may be
posted remote writes (R182). A syllable whose bytes were posted before completes when its lines have left. -/
def State.storeRuns (s : State) (t h : Nat) (runs : List (Word × List Byte)) (win : Bool) : Except Stop State :=
  if (s.threadAt t h).posting.contains s.slot then
    (if (s.threadAt t h).lineWait s.slot then .error .hold else .ok (s.updThread t h (fun x => { x with posting := x.posting.filter (· != s.slot) })))
  else do
    let ps ← s.resolveAll t h (runs.map (fun r => (r.1, r.2.length))) .store win
    let all := (ps.map (fun r => placed r.1 r.2)).flatten
    match (all.findSome? (fun q => s.windowStop t h q.1 q.2)).or (all.findSome? (fun q => s.barrierStop q.1 q.2)) with
    | some e => .error e
    | none => s.writeRuns t h (ps.zip (runs.map (·.2)))

/-- A store of bytes at `a` by the acting thread. -/
def State.storeAt (s : State) (a : Word) (bs : List Byte) (win : Bool) : Except Stop State := s.storeRuns s.ct s.ch [(a, bs)] win

/-! ## Instruction fetch (R16, R68, R80, R103) -/

/-- The byte that thread number `me` fetches where memory holds `b`: what the first of the stores after the last that it sees has replaced. -/
def staleByte (l : List StaleByte) (me place : Nat) (b : Byte) : Byte :=
  match (((l.filter (fun e => e.place == place)).reverse).takeWhile (fun e => !e.seen.contains me)).getLast? with
  | some e => e.old
  | none => b

/-- Where the bundle at `pc` of thread (t, h) lies, or the trap of its fetch. User code lies in global space only (DEDUCED, log entry 8); a service tile may also run from
its own scratchpad. -/
def State.codeAt (s : State) (t h : Nat) (pc : Word) : Except Stop Piece := do
  let ps ← (if s.isLocal t pc && !isService t then .error (accessViol 3 pc) else s.resolve t h pc 16 .fetch)
  match ps with
  | [p] => return p
  | _ => .error (accessViol 3 pc)

/-- The 16 bytes of the bundle at `pc` for thread (t, h): a page fault, an access violation or poison raises its trap (R68). The L1 serves no fetch (R207). -/
def State.fetch (s : State) (t h : Nat) (pc : Word) : Except Stop (List Byte) := do
  let p ← s.codeAt t h pc
  let me := 4 * t + h
  match p.place with
  | .mem loc _ =>
    match s.locAsk loc 16 with
    | some u => .error (.ask u)
    | none =>
      if (s.locPoison loc 16).isEmpty then .ok ((cellList loc (s.locBytes loc 16)).map (fun c => staleByte s.mems.stale me c.1 c.2))
      else .error (poisoned pc)
  | .spad x o =>
    if (s.tileAt x).spad.poisoned o 16 then .error (poisoned pc)
    else .ok ((cellList (2 ^ 61 + x * 2 ^ 32 + o) ((s.tileAt x).spad.mem.read o 16)).map (fun c => staleByte s.mems.stale me c.1 c.2))
  | _ => .error (accessViol 3 pc)

/-- From this number on no thread of a tile is meant: `noThread` itself is a thread that has ended, and numbers from 1024 on are the threads of saved nodes (R80, R373). -/
def noThread : Nat := 520

/-- The number of thread `h` on the tile of index `m` of a saved node. -/
def savedThread (node m h : Nat) : Nat := 1024 + 4 * (256 * node + m) + h

/-- What a thread has stored and sees goes with it to another number (R80, R373). -/
def State.renumber (s : State) (k k' : Nat) : State :=
  { s with mems := { s.mems with stale := s.mems.stale.map (fun e =>
      { e with writer := if e.writer = k then k' else e.writer, seen := if e.seen.contains k then insNat k' (delNat k e.seen) else e.seen }) } }

/-- The thread that had number `k` is no more: a new one takes the number, with nothing stored or seen. -/
def State.retireThread (s : State) (k : Nat) : State :=
  { s with mems := { s.mems with stale := s.mems.stale.map (fun e => { e with writer := if e.writer = k then noThread else e.writer, seen := delNat k e.seen }) } }

/-- The stores that `sees` picks are seen by the threads `ms`; those still in the L1 of the tile that made them are written back (R80, R207). -/
def State.codeSync (s : State) (ms : List Nat) (sees : StaleByte → Bool) : State :=
  let l := s.mems.stale.filter (fun e => sees e && !ms.all (fun m => e.seen.contains m))
  if l.isEmpty then s
  else
    let s := (((l.filter (fun e => e.writer < noThread)).map (fun e => (e.writer / 4, e.place / 256))).eraseDups).foldl (fun (s : State) b => s.writeBack b.1 b.2) s
    { s with mems := { s.mems with stale := s.mems.stale.map (fun e => if sees e then { e with seen := ms.foldr insNat e.seen } else e) } }

/-- A taken branch or jump to a bundle makes the thread fetch what it stored there before its latest FENCE of tile scope or wider (R80). -/
def State.branchSync (s : State) (t h : Nat) (pc : Word) : State :=
  if s.mems.stale.isEmpty then s
  else
    match s.codeAt t h pc with
    | .error _ => s
    | .ok p =>
      match fetchPlace p.place with
      | none => s
      | some a =>
        let me := 4 * t + h
        let f := (s.threadAt t h).fenced
        s.codeSync [me] (fun e => e.writer == me && e.num ≤ f && a ≤ e.place && e.place < a + 16)

/-- The threads of a set fetch what any of them stored (a PHASE that includes both, R80); thread numbers are 4 · tile + thread. -/
def State.phaseSync (s : State) (ms : List Nat) : State := s.codeSync ms (fun e => ms.contains e.writer)

/-- A thread that starts fetches everything stored before. -/
def State.freshSync (s : State) (me : Nat) : State := s.codeSync [me] (fun _ => true)

end Sys2Proof.Machine
end

