-- ==== Sys2Proof/Machine/Operands.lean ====
section
/-! DEFINITION. The operand forms of the control subset (R23, R25, R60, R64, R66, R76) and the scalar functions (R61 to R65): immediates, addresses, and the
shared shapes of a syllable that combines registers. -/

namespace Sys2Proof.Machine

/-- Sext(imm, n) as a 64-bit pattern (R12). -/
def sx {n : Nat} (i : BitVec n) : Word := i.signExtend 64
/-- Zext(imm, n). -/
def zx {n : Nat} (i : BitVec n) : Word := i.setWidth 64

/-! ## Functions of R61 to R63 -/

def shiftAmount (y : Word) : Nat := y.toNat % 64

def aluSlt (x y : Word) : Word := wofBool (x.toInt < y.toInt)
def aluSltn (x y : Word) : Word := wofBool (x.toNat < y.toNat)
def aluMin (x y : Word) : Word := if x.toInt ≤ y.toInt then x else y
def aluMax (x y : Word) : Word := if x.toInt ≤ y.toInt then y else x
def aluMinn (x y : Word) : Word := if x.toNat ≤ y.toNat then x else y
def aluMaxn (x y : Word) : Word := if x.toNat ≤ y.toNat then y else x

/-- Bits 127:64 of an exact product (R62). -/
def mulHigh (x y : Word) : Word := wofInt ((x.toInt * y.toInt) / 2 ^ 64)
def mulHighN (x y : Word) : Word := wofNat (x.toNat * y.toNat / 2 ^ 64)

/-- DIV rounds toward zero; by zero it gives all ones; −2^63 / −1 gives −2^63 (R62). -/
def divS (x y : Word) : Word := if y = 0 then BitVec.allOnes 64 else wofInt (x.toInt.tdiv y.toInt)
def divN (x y : Word) : Word := if y = 0 then BitVec.allOnes 64 else wofNat (x.toNat / y.toNat)
def remS (x y : Word) : Word := if y = 0 then x else wofInt (x.toInt.tmod y.toInt)
def remN (x y : Word) : Word := if y = 0 then x else wofNat (x.toNat % y.toNat)

/-- Leading zero bits of an `n`-bit value; `n` when it is 0. -/
def clzNat (n x : Nat) : Nat := if x = 0 then n else n - 1 - Nat.log2 x

/-- Trailing zero bits of an `n`-bit value: as many steps as needed, at most `n`. -/
def ctzNat : Nat → Nat → Nat
  | 0, _ => 0
  | n + 1, x => if x % 2 = 1 then 0 else 1 + ctzNat n (x / 2)

/-- One bits among the low `n` bits. -/
def popNat : Nat → Nat → Nat
  | 0, _ => 0
  | n + 1, x => x % 2 + popNat n (x / 2)

/-- Bit i moved to bit n − 1 − i. -/
def revNat : Nat → Nat → Nat
  | 0, _ => 0
  | n + 1, x => x % 2 * 2 ^ n + revNat n (x / 2)

/-! ## Shapes -/

/-- A class of syllable that only the C slot accepts: in an engine slot it runs as NOP and sets WARN.SLOT (R37). -/
def cOnly (s : State) (body : State → Res) : Res := if s.slot = .c then body s else .ok (s.setWarn 2)

/-- d := f(X(a), X(b)) (R61, R62). -/
def regReg (d a b : BitVec 5) (f : Word → Word → Word) (s : State) : Res :=
  .ok (((s.readWarn a).readWarn b).W d (f (s.X a) (s.X b)))

/-- d := f(X(a)) (R63, R64). -/
def regOne (d a : BitVec 5) (f : Word → Word) (s : State) : Res := .ok ((s.readWarn a).W d (f (s.X a)))

/-- The address of a scalar access or of JALR: Trunc(X(a) + Sext(imm15, 15), 64) (R67, R76). -/
def State.scalarAddr (s : State) (a : BitVec 5) (i : BitVec 15) : Word := s.X a + sx i

/-- A transfer of control: the jump, and what it lets the thread fetch (R66, R80). -/
def State.goto (s : State) (pc : Word) : State := (s.branchSync s.ct s.ch pc).jump pc

/-- A conditional branch (R66). -/
def branch (taken : Word → Word → Bool) (a b : BitVec 5) (o : BitVec 15) (s : State) : Res :=
  cOnly s (fun s => .ok (if taken (s.X a) (s.X b) then s.goto (s.thr.flow.pc + 16 * sx o) else s))

/-- A scalar load of `n` bytes: natural alignment, the access, and the value `ext` makes of the bytes (R76, R78). -/
def scalarLoad (n : Nat) (ext : Nat → Word) (d a : BitVec 5) (i : BitVec 15) (s : State) : Res :=
  cOnly s (fun s => do
    let A := s.scalarAddr a i
    if A.toNat % n ≠ 0 then .error (misaligned 0 A)
    let (bs, t) ← s.loadAt A n true
    return t.W d (ext (leNat bs)))

/-- A scalar store of the `n` low bytes of X(b) (R76, R78). -/
def scalarStore (n : Nat) (a b : BitVec 5) (o : BitVec 15) (s : State) : Res :=
  cOnly s (fun s =>
    let A := s.scalarAddr a o
    if A.toNat % n ≠ 0 then .error (misaligned 1 A) else s.storeAt A (leBytes n (s.X b).toNat) true)

end Sys2Proof.Machine
end

