-- ==== Sys2Proof/Machine/Control.lean ====
section
/-! DEFINITION. Branches, jumps and hardware loops (R66 to R75). -/

namespace Sys2Proof.Machine

/-- BEQ (R66). -/
def execBeq (a b : BitVec 5) (o : BitVec 15) (s : State) : Host.Outcome State Fault Refusal := finish s (branch (fun x y => x == y) a b o)

/-- BNE (R66). -/
def execBne (a b : BitVec 5) (o : BitVec 15) (s : State) : Host.Outcome State Fault Refusal := finish s (branch (fun x y => x != y) a b o)

/-- BLT (R66). -/
def execBlt (a b : BitVec 5) (o : BitVec 15) (s : State) : Host.Outcome State Fault Refusal := finish s (branch (fun x y => decide (x.toInt < y.toInt)) a b o)

/-- BGE (R66). -/
def execBge (a b : BitVec 5) (o : BitVec 15) (s : State) : Host.Outcome State Fault Refusal := finish s (branch (fun x y => decide (y.toInt ≤ x.toInt)) a b o)

/-- BLTN (R66). -/
def execBltn (a b : BitVec 5) (o : BitVec 15) (s : State) : Host.Outcome State Fault Refusal := finish s (branch (fun x y => decide (x.toNat < y.toNat)) a b o)

/-- BGEN (R66). -/
def execBgen (a b : BitVec 5) (o : BitVec 15) (s : State) : Host.Outcome State Fault Refusal := finish s (branch (fun x y => decide (y.toNat ≤ x.toNat)) a b o)

/-- JAL (R67). -/
def execJal (d : BitVec 5) (o : BitVec 20) (s : State) : Host.Outcome State Fault Refusal :=
  finish s (fun s => cOnly s (fun s => .ok ((s.W d (s.thr.flow.pc + 16)).goto (s.thr.flow.pc + 16 * sx o))))

/-- JALR: a target that is not 16-byte aligned raises the misaligned-access trap, of access kind fetch, and d is not written (R67, R68). DEDUCED (log entry 36), unsafe. -/
def execJalr (d a : BitVec 5) (i : BitVec 15) (s : State) : Host.Outcome State Fault Refusal :=
  finish s (fun s => cOnly s (fun s =>
    let T := s.scalarAddr a i
    if T.toNat % 16 ≠ 0 then .error (misaligned 3 T) else .ok ((s.W d (s.thr.flow.pc + 16)).goto T)))

/-! ## Loops -/

/-- LOOP or LOOPI in the C slot (R71): body length `n`, count `c`. -/
def loopC (c : Word) (n : Nat) (s : State) : Res :=
  let fl := s.thr.flow
  let P := fl.pc
  let last := P + 16 * wofNat n
  if c = 0 then .ok (s.jump (last + 16))
  else if fl.loops.length = 4 || (match fl.loops with | top :: _ => decide (top.last.toNat < last.toNat) | [] => false) then .error illegal
  else .ok (s.modThr (fun t => { t with flow := { t.flow with loops := ⟨P + 16, last, c, 0⟩ :: t.flow.loops } }))

/-- LOOP or LOOPI in an engine slot (R74, R75). Positions are those of the replay buffer: `pos` is the position of the LOOP itself inside an outer body, and an outermost
loop starts an empty buffer. A count of 0 discards the next `n` syllables. -/
def Engine.loop (e : Engine) (c : Word) (n : Nat) : Option Engine :=
  if c = 0 then some { e with skip := n }
  else
    match e.loops with
    | [] => some { e with rb := [], pos := 0, loops := [⟨0, wofNat (n - 1), c, 0⟩] }
    | top :: _ =>
      let start := e.pos + 1
      if e.loops.length = 4 || top.last.toNat < start + n - 1 then none
      else some { e with loops := ⟨wofNat start, wofNat (start + n - 1), c, 0⟩ :: e.loops }

/-- A loop of body length `n`; over 256 in an engine slot is a reserved encoding (R75). -/
def loopAny (c : Word) (n : BitVec 10) (s : State) : Res :=
  if n = 0 || (s.slot ≠ .c && 256 < n.toNat) then .error illegal
  else if s.slot = .c then loopC c n.toNat s
  else match (s.thr.eng s.slot).loop c n.toNat with
    | none => .error illegal
    | some e => .ok (s.modThr (·.modEng s.slot (fun _ => e)))

/-- LOOP (R70, R71, R74). -/
def execLoopReg (a : BitVec 5) (n : BitVec 10) (s : State) : Host.Outcome State Fault Refusal :=
  finish s (fun s => loopAny (s.X a) n (s.readWarn a))

/-- LOOPI (R70, R71, R74). -/
def execLoopImm (c : BitVec 15) (n : BitVec 10) (s : State) : Host.Outcome State Fault Refusal := finish s (loopAny (zx c) n)

/-- LEXIT (R73). -/
def execLexit (s : State) : Host.Outcome State Fault Refusal :=
  finish s (fun s => cOnly s (fun s => .ok (s.modThr (fun t => { t with flow := { t.flow with loops := t.flow.loops.drop 1 } }))))

/-- The loop-end test after the bundle at `E` completes (R71): the loops that remain and the next pc. -/
def loopEnd (E : Word) : List LoopEnt → List LoopEnt × Word
  | [] => ([], E + 16)
  | top :: rest =>
    if top.last = E then
      if 1 < top.remaining.toNat then ({ top with remaining := top.remaining - 1, index := top.index + 1 } :: rest, top.start)
      else loopEnd E rest
    else (top :: rest, E + 16)

/-- The end of a C syllable that did not transfer control: the pc moves on (R66, R71). -/
def Thread.advancePc (t : Thread) : Thread :=
  let p := loopEnd t.flow.pc t.flow.loops
  { t with flow := { t.flow with pc := p.2, loops := p.1, ctl := false, inWfi := false, held := .no } }

/-- The open segment of a thread covers a syllable of segment number `n` (R410). -/
def Segment.covers (g : Segment) (n : Nat) : Bool := n != 0 && g.isOpen && g.id == n

end Sys2Proof.Machine
end

