-- ==== Sys2Proof/Machine/Faults.lean ====
section
/-! DEFINITION. The device fault queue (R367) and the event log (R234, R341, R464). -/

namespace Sys2Proof.Machine

/-! ## The device fault queue (R367) -/

/-- An entry of the queue. `kind` is 0 for a replayable fault, 1 for a kill, 2 for a loss. -/
def faultEntry (va : Word) (ctx tile thread access kind cause tag : Nat) : List Byte :=
  leBytes 8 va.toNat ++ leBytes 1 ctx ++ leBytes 1 tile ++ leBytes 1 thread ++ leBytes 1 access ++ leBytes 1 kind ++ leBytes 1 cause ++ leBytes 2 0 ++
    leBytes 4 tag ++ leBytes 12 0

/-- The queue holds fewer than its 4,096 entries. -/
def State.fqRoom (s : State) : Bool := (s.disp.fqTail - s.disp.fqHead).toNat < 4096

/-- Waiting entries are appended in host memory, in order, while there is room; an entry that needs no answer is then done with. -/
def State.fqDrain (s : State) : State :=
  s.disp.fqPend.foldl (fun s p =>
    if p.listed then { s with disp := { s.disp with fqPend := s.disp.fqPend ++ [p] } }
    else if !s.fqRoom then { s with disp := { s.disp with fqPend := s.disp.fqPend ++ [p] } }
    else
      let s := s.locWrite (hostLoc + s.disp.fqbase.toNat + 32 * (s.disp.fqTail.toNat % 4096)) p.entry
      { s with disp := { s.disp with fqTail := s.disp.fqTail + 1,
                                     fqPend := s.disp.fqPend ++ (if p.tag = 0 then [] else [{ p with listed := true }]) } })
    { s with disp := { s.disp with fqPend := [] } }

/-- A new entry. -/
def State.fqPost (s : State) (tag tile thread : Nat) (entry : List Byte) : State :=
  State.fqDrain { s with disp := { s.disp with fqPend := s.disp.fqPend ++ [⟨tag, tile, thread, entry, false⟩] } }

/-- A tag that no fault waiting for its answer has. -/
def State.takeTag (s : State) : Nat × State :=
  (s.disp.nextTag, { s with disp := { s.disp with nextTag := if s.disp.nextTag + 1 < 2 ^ 32 then s.disp.nextTag + 1 else 1 } })

/-! ## The context record in memory (R341) -/

/-- The address of a field of context `c`'s record. -/
def State.ctxField (s : State) (c off : Nat) : Nat := s.disp.ctxtab.toNat + 256 * c + off

def State.updCtx (s : State) (c : Nat) (f : Ctx → Ctx) : State :=
  { s with ctxs := s.ctxs.set (Fin.ofNat 64 c) (f s.ctxs[Fin.ofNat 64 c]) }
def State.ctxAt (s : State) (c : Nat) : Ctx := s.ctxs[Fin.ofNat 64 c]

/-! ## The event log -/

/-- Bytes written by the hardware under a context's translation; dropped whole when any page refuses them (R464). Where the translation waits for the coding group, so do they (R439). -/
def State.writeUnder (s : State) (c : Nat) (va : Nat) (bs : List Byte) : State × Bool :=
  match s.globalPieces c va bs.length .store with
  | .error (.ask u, _) => ((s.askFor false u).hold 64 0 (.write c va bs), true)
  | .error _ => (s, false)
  | .ok ps =>
    ((ps.foldl (fun (r : State × List Byte) p =>
      match p.place with
      | .mem loc _ => ((r.1.evictLoc loc p.n).locWrite loc (r.2.take p.n), r.2.drop p.n)
      | _ => (r.1, r.2.drop p.n)) (s, bs)).1, true)

/-- A record appended to a context's event log; LOGHEAD advances also when the record is dropped (R341, R464). -/
def State.logRecord (s : State) (c : Nat) (rec_ : List Byte) : State :=
  if c = 0 then s
  else
    let x := s.ctxAt c
    let s := (s.writeUnder c (x.record.logBase.toNat + 32 * (x.logHead.toNat % max x.record.logLen 1)) rec_).1
    let n := x.logHead + 1
    (s.updCtx c (fun y => { y with logHead := n })).hbmWrite (s.ctxField c 0x34) (leBytes 4 n.toNat)

end Sys2Proof.Machine
end

