-- ==== Sys2Proof/Machine/Copy.lean ====
section
/-! DEFINITION. The copy commands: acceptance (R222, R223, R226, R230 to R233, R235), the landing of a sector (R224, R225, R227, R228, R233, R234) and remote
barrier signals (R98, R235, R374). -/

namespace Sys2Proof.Machine

open Host (Cell)

/-! ## Local operands (R223) -/

/-- A register value read as a local offset. -/
def State.localOp (s : State) (t : Nat) (x : Word) : Option Nat :=
  if wbits x 32 32 = 0 || (wbits x 57 7 = 0 && wbits x 32 25 = (s.tileAt t).localBase.toNat) then some (wbits x 0 32) else none

/-- Which local ranges an operand may lie in, beside scratchpads: the issuing thread's own window, a bound alias window; `own` admits the tile's own
scratchpad only. -/
structure Ranges where
  window : Bool := false
  alias_ : Bool := false
  own    : Bool := false
  pad    : Bool := true

/-- `n` bytes (at least one) at a local offset lie in one permitted range. -/
def State.inRanges (s : State) (t h off n : Nat) (r : Ranges) : Bool :=
  match s.localPlace t h off (max n 1) with
  | some (.spad x _) => r.pad && (!r.own || x == t)
  | some (.regs _ o) => r.window && h * 0x20000 ≤ o && o + max n 1 ≤ (h + 1) * 0x20000
  | some (.win w _) => r.alias_ && (s.threadAt t h).win[Fin.ofNat 64 w].bound
  | _ => false

/-- A local operand of `n` bytes in its ranges, or the access violation. A check of an operand comes before any access, and its access kind is 0 (DEDUCED, log entry 91).
DEDUCED (log entry 40), unsafe. -/
def State.localRange (s : State) (x : Word) (n : Nat) (r : Ranges) : Except Stop Nat :=
  match s.localOp s.ct x with
  | none => .error (accessViol 0 x)
  | some off => if s.inRanges s.ct s.ch off n r then .ok off else .error (accessViol 0 x)

/-- The own-scratchpad offset that an operand names under either name (R202). -/
def State.ownOff (s : State) (off : Nat) : Nat :=
  match s.localPlace s.ct s.ch off 1 with
  | some (.spad _ o) => o
  | _ => off

/-- A barrier operand in range (R224, R226, R244): all ones names none; else a granule of the own scratchpad whose tag is set. DEDUCED (log entry 39), unsafe. -/
def State.barOperand (s : State) (x : Word) : Except Stop Word :=
  if x = noBar then .ok noBar
  else do
    let off ← s.localRange x 16 { own := true }
    if s.tile.live (s.ownOff off) then return barAt s.ct (s.ownOff off) else .error (accessViol 0 x)

/-- The alignment of a barrier operand and of a remote barrier's offset, checked first (R226). -/
def barAligned (bar n : Word) (remote : Bool) : Except Stop Unit :=
  if bar ≠ noBar && bar.toNat % 16 ≠ 0 then .error (misaligned 0 bar)
  else if remote && wbit n 63 && wbits n 32 22 % 16 ≠ 0 then .error (misaligned 0 (wofNat (wbits n 32 22)))
  else .ok ()

/-! ## Acceptance (R222, R226) -/

/-- In-flight entries of a thread; row fetches of a ring take none. -/
def Thread.entries (t : Thread) : Nat := (t.cmds.filter (fun c => c.kind != .ringRow)).length

/-- A free entry: the tile has 128, a thread at most 64. -/
def Tile.hasEntry (x : Tile) (h : Nat) : Bool :=
  (x.th[Fin.ofNat 4 h]).entries < 64 && (x.th.toList.map Thread.entries).foldl (· + ·) 0 < 128

/-- A command in flight; one without bytes has no sectors and is done. -/
def State.addCmd (s : State) (c : Cmd) : State :=
  s.modThr (fun x => { x with cmds := if c.total = 0 then x.cmds else x.cmds ++ [{ c with id := x.nextCmd }], nextCmd := x.nextCmd + 1 })

/-- A blank command of the acting stream. -/
def State.newCmd (s : State) (kind : CmdKind) (dst src len bar : Word) (total : Nat) : Cmd :=
  { id := 0, kind := kind, queue := s.slot, dst := dst, src := src, len := len, bar := bar, local_ := false, pol := false, total := total, landed := [],
    sent := [], since := 0, wait := none, stop := false, cols := [], ring := 0, req := none, peer := s.ct, rest := [], va := 0 }

/-- The acceptance of a command: tokens, the head of qcl when `q`, and a free entry together; `build` reads and checks, `after` updates registers. -/
def acceptCmd (k : BitVec 4) (a : BitVec 3) (q : Bool) (build : State → Word → Except Stop Cmd) (after : State → State) (s : State) : Res :=
  withTokens k s (fun s =>
    match (if q then s.thr.qs.qcl.head? else some (s.A a)), s.tile.hasEntry s.ch with
    | some A, true => do
      let c ← build s A
      let s := if q then s.modQs (fun x => { x with qcl := x.qcl.drop 1 }) else s
      return (after s).addCmd c
    | _, _ => .error .hold)

/-- The length operand (R231, R235): N[31:0] up to 0x100_0000; the upper half 0, or a remote barrier's fields when `remote`. -/
def lenOk (n : Word) (remote : Bool) : Bool :=
  wbits n 0 32 ≤ 0x1000000 &&
    (if remote then wbits n 54 9 = 0 && (wbit n 63 || wbits n 32 22 = 0) && (!wbit n 63 || wbits n 32 22 < 0x300000) else wbits n 32 32 = 0)

/-- The advance of the d and a registers under inc (R230); `mask48` keeps the upper bits of d (R231). -/
def copyInc (d a n : BitVec 3) (i q mask48 : Bool) (s : State) : State :=
  if !i then s
  else
    let len := wofNat (wbits (s.A n) 0 32)
    let nd := if mask48 then wput (s.A d) 0 48 ((s.A d).toNat + len.toNat) else s.A d + len
    let na := s.A a + len
    let s := s.setA d nd
    if q then s else s.setA a na

/-- CPIN (R231): from global space to scratchpad or own window. -/
def execCpin (k : BitVec 4) (d a n b : BitVec 3) (i q : BitVec 1) (s : State) : Host.Outcome State Fault Refusal :=
  finish s (acceptCmd k a (q = 1) (fun s A => do
    let N := s.A n
    let B := s.A b
    barAligned B N false
    if !lenOk N false then .error (accessViol 0 0)
    let off ← s.localRange (s.A d) (wbits N 0 32) { window := true }
    let bar ← s.barOperand B
    return s.newCmd .cpin (wofNat off) A N bar (wbits N 0 32)) (copyInc d a n (i = 1) (q = 1) false))

/-- CPOUT (R231): from scratchpad or own window to global space. -/
def execCpout (k : BitVec 4) (d a n b : BitVec 3) (i : BitVec 1) (s : State) : Host.Outcome State Fault Refusal :=
  finish s (acceptCmd k a false (fun s A => do
    let N := s.A n
    let B := s.A b
    barAligned B N false
    if !lenOk N false then .error (accessViol 0 0)
    let off ← s.localRange A (wbits N 0 32) { window := true }
    let bar ← s.barOperand B
    return s.newCmd .cpout (s.A d) (wofNat off) N bar (wbits N 0 32)) (copyInc d a n (i = 1) false false))

/-- The destination of a CPLOC: a tile's scratchpad, the own window (no remote barrier), or a bound window that passes the source checks of R217, of which the load-store
domain's is not one for a command. -/
def State.cplocDst (s : State) (x : Word) (off n : Nat) (rb : Bool) : Except Stop (Nat × Option RemoteReq) :=
  match s.localPlace s.ct s.ch off (max n 1) with
  | some (.spad t _) => .ok (t, none)
  | some (.win w o) => do
    let y := s.thr.win[Fin.ofNat 64 w]
    if y.bound && !s.shadow s.ct then s.awaitEntry (s.ctxOf s.ct) y.handle.toNat
    match (if !y.bound || s.shadow s.ct then none else s.remoteCheck (s.ctxOf s.ct) y.handle.toNat o n 1 true) with
    | some (e, r) => .ok (e.peer, some r)
    | none => .error (accessViol 0 x)
  | _ => if rb then .error (accessViol 0 x) else .ok (s.ct, none)

/-- CPLOC (R231, R235). -/
def execCploc (k : BitVec 4) (d a n b : BitVec 3) (i : BitVec 1) (s : State) : Host.Outcome State Fault Refusal :=
  finish s (acceptCmd k a false (fun s A => do
    let N := s.A n
    let B := s.A b
    barAligned B N true
    if !lenOk N true then .error (accessViol 0 0)
    let len := wbits N 0 32
    let src ← s.localRange A len { window := true }
    let dst ← s.localRange (s.A d) len { window := true, alias_ := true }
    let p ← s.cplocDst (s.A d) dst len (wbit N 63)
    let bar ← s.barOperand B
    return { s.newCmd .cploc (wofNat dst) (wofNat src) N bar len with peer := p.1, req := p.2 }) (copyInc d a n (i = 1) false false))

/-- CPREM (R231, R235): to an entry of KIND 1 or 2 of any module of the system; a shadow tile reaches none (R358). -/
def execCprem (k : BitVec 4) (d a n b : BitVec 3) (i : BitVec 1) (s : State) : Host.Outcome State Fault Refusal :=
  finish s (acceptCmd k a false (fun s A => do
    let N := s.A n
    let B := s.A b
    let D := s.A d
    barAligned B N true
    if !lenOk N true then .error (accessViol 0 0)
    let len := wbits N 0 32
    let src ← s.localRange A len { window := true }
    if !s.shadow s.ct then s.awaitEntry (s.ctxOf s.ct) (wbits D 48 16)
    match (if s.shadow s.ct then none else s.remoteCheck (s.ctxOf s.ct) (wbits D 48 16) (wbits D 0 48) len 1 true) with
    | none => .error (accessViol 0 D)
    | some (e, r) =>
      if e.kind = 3 || (wbit N 63 && e.kind ≠ 2) then .error (accessViol 0 D)
      else
        let bar ← s.barOperand B
        return { s.newCmd .cprem D (wofNat src) N bar len with peer := e.peer, req := some r }) (copyInc d a n (i = 1) false true))

/-- A syllable that waits for a remap point: ASSAY of the array or the B stratum, MREMAP, MSHRINK (R308). -/
def remapSyl : Instr → Option (BitVec 4)
  | .assay k _ _ g => if g.toNat ≤ 1 then some k else none
  | .mremap k _ _ _ _ => some k
  | .mshrink k _ _ _ => some k
  | _ => none

/-- A thread whose next W syllable waits for a remap point of its tile, be it for its own nest to end: nothing else of its own holds it. -/
def Thread.remapWaits (t : Thread) : Bool :=
  t.flow.status == .running && !t.active false &&
    match (t.eW.head.bind (fun q => decode .w q.syl)).bind remapSyl with
    | some k => tokReady t.qs.tok .w k
    | none => false

/-- While a syllable of the tile waits for a remap point, no nest latches and no CPINB is accepted (R308). -/
def Tile.remapWaits (x : Tile) : Bool := x.th.toList.any Thread.remapWaits

/-- CPINB (R232). `cols` keeps the physical columns of the placement as they are mapped now. -/
def execCpinb (k : BitVec 4) (d a n b : BitVec 3) (p q : BitVec 1) (s : State) : Host.Outcome State Fault Refusal :=
  finish s (fun s => if s.tile.remapWaits then .error .hold else acceptCmd k a (q = 1) (fun s A => do
    let N := s.A n
    let B := s.A b
    let D := s.A d
    barAligned B N false
    let s0 := wbits D 0 14
    let c0 := wbits D 14 8
    let K := wbits N 0 16
    let C := wbits N 16 8 + 1
    let wb := 2 ^ wbits N 24 2
    let pitch := wbits N 32 32
    if wbits D 22 42 ≠ 0 || wbits N 24 2 = 3 || wbits N 26 6 ≠ 0 || K = 0 || 16384 < K || 16384 < s0 + K * wb || s.tile.geom.cols.length < c0 + C then
      .error (accessViol 0 D)
    else
      let src ← (if p = 1 then (s.localRange A ((K - 1) * pitch + C * wb) {}).map wofNat else .ok A)
      let bar ← s.barOperand B
      return { s.newCmd .cpinb D src N bar (K * C * wb) with local_ := p = 1, cols := (s.tile.geom.cols.drop c0).take C }) id s)

/-- A gather or scatter descriptor with legal values (R226, R233): TABLE, LIST, COUNT, LIMIT, PITCH, ESIZE. -/
def State.readDesc (s : State) (x : Word) : Except Stop (Nat × List Nat) := do
  let off ← s.localRange x 32 { own := true }
  if off % 16 ≠ 0 then .error (accessViol 0 x)
  let b := s.tile.spad.mem.read (s.ownOff off) 32
  let list := leAt b 8 8
  let count := leAt b 16 4
  let esize := leAt b 28 2
  if list % 4 ≠ 0 || 2 ^ 20 < count || esize % 2 ≠ 0 || esize < 2 || 256 < esize || leAt b 30 2 ≠ 0 then .error (accessViol 0 x)
  return (leAt b 0 8, [list, count, leAt b 20 4, leAt b 24 4, esize])

/-- GATHER (R233, R234). -/
def execGather (k : BitVec 4) (d a b : BitVec 3) (p : BitVec 2) (q : BitVec 1) (s : State) : Host.Outcome State Fault Refusal :=
  finish s (acceptCmd k a (q = 1) (fun s A => do
    let B := s.A b
    barAligned B 0 false
    let ds ← s.readDesc A
    let total := (ds.2[1]?).getD 0 * (ds.2[4]?).getD 0
    let off ← s.localRange (s.A d) total {}
    let bar ← s.barOperand B
    return { s.newCmd .gather (wofNat off) (wofNat ds.1) 0 bar total with pol := p = 1, cols := ds.2 }) id)

/-- SCATTER (R233). -/
def execScatter (k : BitVec 4) (d a b : BitVec 3) (s : State) : Host.Outcome State Fault Refusal :=
  finish s (acceptCmd k a false (fun s A => do
    let B := s.A b
    barAligned B 0 false
    let ds ← s.readDesc (s.A d)
    let total := (ds.2[1]?).getD 0 * (ds.2[4]?).getD 0
    let off ← s.localRange A total {}
    let bar ← s.barOperand B
    return { s.newCmd .scatter (wofNat ds.1) (wofNat off) 0 bar total with cols := ds.2 }) id)

/-! ## Bytes with their poison (R228) -/

def flagBytes (base : Nat) (bs : List Byte) (ps : List Nat) : List PByte := bs.zipIdx.map (fun p => (p.1, ps.contains ((base + p.2) / 32)))

/-- Why a sector does not move. -/
inductive CopyStop where
  | ask (atom : Nat)
  | viol (va : Nat)
  | fault (va access : Nat)
  | page (page va : Nat)
  | gated (off : Nat)
  deriving DecidableEq, Repr

/-- The pieces of global bytes; a fault is replayable, a page of host memory is waited for (R225, R227, R365). -/
def State.copyPieces (s : State) (t va n : Nat) (acc : Acc) : Except CopyStop (List Piece) :=
  match s.globalPieces (s.ctxOf t) va n acc with
  | .ok ps => if ps.all (fun p => match p.place with | .mem _ _ => true | _ => false) then .ok ps else .error (.viol va)
  | .error (.viol, x) => .error (.viol x)
  | .error (.fault, x) => .error (.fault x acc.code)
  | .error (.absent loc, x) => .error (.page ((loc - hostLoc) / 0x10000) x)
  | .error (.ask u, _) => .error (.ask u)

def State.copyReadPiece (s : State) (p : Piece) : Except CopyStop (List PByte) :=
  match p.place with
  | .mem loc _ =>
    match s.locAsk loc p.n with
    | some u => .error (.ask u)
    | none => .ok (flagBytes loc (s.locBytes loc p.n) (s.locPoison loc p.n))
  | .spad x o => if s.gated x then .error (.gated p.va) else .ok (flagBytes o ((s.tileAt x).spad.mem.read o p.n) (s.tileAt x).spad.poison)
  | .regs x o => .ok (flagBytes o ((s.tileAt x).regs.mem.read o p.n) (s.tileAt x).regs.poison)
  | _ => .error (.viol p.va)

/-- `n` bytes of global space. -/
def State.copyReadGlobal (s : State) (t va n : Nat) (acc : Acc) : Except CopyStop (List PByte) := do
  let ps ← s.copyPieces t va n acc
  return (← ps.mapM s.copyReadPiece).flatten

/-- `n` bytes of local space. -/
def State.copyReadLocal (s : State) (t h off n : Nat) : Except CopyStop (List PByte) :=
  match s.localPlace t h off n with
  | some p => s.copyReadPiece ⟨p, off, n⟩
  | none => .error (.viol off)

/-! ## Writing -/

/-- Consecutive cells with their poison. -/
def placeBytes (a : Nat) : List PByte → List (Nat × PByte)
  | [] => []
  | b :: r => (a, b) :: placeBytes (a + 1) r

def plainCells (cs : List (Nat × PByte)) : List Cell := cs.map (fun c => (c.1, c.2.1))

/-- The units that receive a byte carrying poison. -/
def poisonUnits (cs : List (Nat × PByte)) : List Nat := ((cs.filter (fun c => c.2.2)).map (fun c => c.1 / 32)).eraseDups

/-- One access that writes bytes carrying poison into a tile's memory (R204, R211, R228). -/
def PMem.carry (m : PMem) (cs : List (Nat × PByte)) : PMem := (m.writeCells (plainCells cs)).taint (poisonUnits cs)

/-- Bytes written into a tile's scratchpad; those in a live granule are not (R227). The answer names the first such. -/
def State.copyWriteSpad (s : State) (x : Nat) (cs : List (Nat × PByte)) : State × Option Nat :=
  let ok := if (s.tileAt x).tags.isEmpty then cs else cs.filter (fun c => !(s.tileAt x).live c.1)
  (s.updTile x (fun y => { y with spad := y.spad.carry ok }),
    if (s.tileAt x).tags.isEmpty then none else (cs.find? (fun c => (s.tileAt x).live c.1)).map (·.1))

/-- Bytes written at locations of HBM or host memory: those that carry poison into a protected atom are not, and the answer names the first of them (R228). Host memory carries no
poison. DEDUCED (log entry 172), unsafe. -/
def State.copyWriteLoc (s : State) (cs : List (Nat × PByte)) : State × Option Nat :=
  let refused := fun (c : Nat × PByte) => c.2.2 && c.1 < hostLoc && (s.grp.imageOff c.1).isSome
  let ok := cs.filter (fun c => !refused c)
  let s := ((cs.map (fun c => c.1 / 256)).eraseDups).foldl (fun (s : State) b => s.evictLoc (256 * b) 256) s
  ((s.locWriteCells (plainCells ok)).hbmTaint ((poisonUnits ok).filter (· < hostLoc / 32)), (cs.find? refused).map (·.1))

/-- Bytes written to global space from `va`, with the address of the first that was refused; a shadow tile hashes them only (R358). -/
def State.copyWriteGlobal (s : State) (t va : Nat) (bs : List PByte) (acc : Acc) : Except CopyStop (State × Option Nat) := do
  let ps ← s.copyPieces t va bs.length acc
  let s := s.addSig t (plainCells (placeBytes va bs))
  if s.shadow t then return (s, none)
  let r := ps.foldl (fun (r : State × Option Nat × List PByte) p =>
    match p.place with
    | .mem loc _ => let w := r.1.copyWriteLoc (placeBytes loc (r.2.2.take p.n)); (w.1, r.2.1.or (w.2.map (fun a => p.va + (a - loc))), r.2.2.drop p.n)
    | _ => r) (s, none, bs)
  return (r.1, r.2.1)

/-- What a sector did, beside its bytes: the CPERR bits it records, each with the first address of its event (R229) and with sticky-error. -/
structure Moved where
  s    : State
  errs : List (Nat × Word)

/-- Bytes written to local space. -/
def State.copyWriteLocal (s : State) (t h off : Nat) (bs : List PByte) : Except CopyStop Moved :=
  match s.localPlace t h off bs.length with
  | some (.spad x o) =>
    if s.gated x then .error (.gated off)
    else
      let r := s.copyWriteSpad x (placeBytes o bs)
      .ok ⟨r.1, (r.2.map (fun a => (2, wofNat (off + (a - o))))).toList⟩
  | some (.regs x o) => .ok ⟨s.updTile x (fun y => { y with regs := y.regs.carry (placeBytes o bs) }), []⟩
  | _ => .error (.viol off)

/-! ## The byte sequences -/

/-- The rows that bytes `start` to `start + n - 1` of a sequence touch, each `len` bytes long: the row, the first byte in it, and how many. -/
def rowRuns (len start : Nat) : Nat → Nat → List (Nat × Nat × Nat)
  | 0, _ => []
  | fuel + 1, n =>
    if n = 0 || len = 0 then []
    else
      let k := min n (len - start % len)
      (start / len, start % len, k) :: rowRuns len (start + k) fuel (n - k)

/-- The bytes of sector `q`: the first and how many. -/
def Cmd.span (c : Cmd) (q : Nat) : Nat × Nat := (256 * q, min 256 (c.total - 256 * q))

/-- An index of a list (R233): none when its atom is poisoned. DESIGN CHOICE (log entry 42), safe. -/
def State.readIndex (s : State) (t : Nat) (c : Cmd) (e : Nat) : Except CopyStop (Option Nat) := do
  let b ← s.copyReadGlobal t ((c.cols[0]?).getD 0 + 4 * e) 4 .gather
  return if b.any (·.2) then none else some (leNat (b.map (·.1)))

/-- The log record of a substituted element (R234). -/
def zeroRecord (s : State) (t h e x esize va : Nat) : List Byte :=
  leBytes 2 0x11 ++ leBytes 1 (s.seenTile t) ++ leBytes 1 h ++ leBytes 4 e ++ leBytes 4 x ++ leBytes 4 esize ++ leBytes 8 va ++ leBytes 8 s.cycleCount

/-- GPSTAT.ZCOUNT and the event log count a substituted element (R234). -/
def State.countZero (s : State) (t h e x esize va : Nat) : State :=
  (s.updThread t h (·.modCsr (fun u => { u with gpstat := if u.gpstat = BitVec.allOnes 32 then u.gpstat else u.gpstat + 1 }))).logRecord (s.ctxOf t)
    (zeroRecord s t h e x esize va)

/-- Element `e` of a gather, all of its bytes, with the CPERR bit it records (R233, R234). -/
def State.gatherElem (s : State) (t h : Nat) (c : Cmd) (e : Nat) : Except CopyStop (List PByte × State × List (Nat × Word)) := do
  let esize := (c.cols[4]?).getD 2
  let zeros := List.replicate esize ((0 : Byte), false)
  match ← s.readIndex t c e with
  | none =>
    if c.pol then return (zeros, s.countZero t h e 0xFFFFFFFF esize (c.indexAt e), [(10, wofNat (c.indexAt e))])
    else
      let f := s.freeBytes esize
      return (f.1.map (fun b => (b, true)), f.2, [(10, wofNat (c.indexAt e))])
  | some x =>
    if (c.cols[2]?).getD 0 ≤ x then return (zeros, s, [(4, wofNat (c.indexAt e))])
    else
      let va := c.src.toNat + x * (c.cols[3]?).getD 0
      let b ← s.copyReadGlobal t va esize .gather
      if c.pol && b.any (·.2) then return (zeros, s.countZero t h e x esize va, [])
      else return (b, s, [])

/-- `k` bytes from byte `r` of element `e` of a scatter. -/
def State.scatterElem (s : State) (t : Nat) (c : Cmd) (e r : Nat) (bs : List PByte) : Except CopyStop Moved := do
  match ← s.readIndex t c e with
  | none => return ⟨s, if r = 0 then [(10, wofNat (c.indexAt e))] else []⟩
  | some x =>
    if (c.cols[2]?).getD 0 ≤ x then return ⟨s, if r = 0 then [(4, wofNat (c.indexAt e))] else []⟩
    else
      let w ← s.copyWriteGlobal t (c.dst.toNat + x * (c.cols[3]?).getD 0 + r) bs .scatter
      return ⟨w.1, (w.2.map (fun a => (11, wofNat a))).toList⟩

/-- The bytes of the rows of one sector of a gather: an element is read when its first byte is reached, and its later bytes are those read then. The last answer is what the next sector goes on with. -/
def State.gatherRuns (s : State) (t h : Nat) (c : Cmd) : List (Nat × Nat × Nat) → Except CopyStop (List PByte × State × List (Nat × Word) × List PByte)
  | [] => .ok ([], s, [], [])
  | (e, r, k) :: rest => do
    let (b, s, e1) ← (if r = 0 then s.gatherElem t h c e else .ok (c.rest, s, []))
    let (b2, s, e2, left) ← s.gatherRuns t h c rest
    return (b.take k ++ b2, s, e1 ++ e2, if rest.isEmpty then b.drop k else left)

def State.scatterRuns (s : State) (t : Nat) (c : Cmd) (bs : List PByte) : List (Nat × Nat × Nat) → Except CopyStop Moved
  | [] => .ok ⟨s, []⟩
  | (e, r, k) :: rest => do
    let m ← s.scatterElem t c e r (bs.take k)
    let m' ← m.s.scatterRuns t c (bs.drop k) rest
    return ⟨m'.s, m.errs ++ m'.errs⟩

/-- The cells of the B stratum that bytes of a CPINB go to: byte `i` of row `k` belongs to column `i / wb` at slice offset s0 + k · wb (R232). -/
def cpinbCells (c : Cmd) (k r : Nat) (bs : List PByte) : List (Nat × PByte) :=
  let wb := 2 ^ wbits c.len 24 2
  bs.zipIdx.map (fun p => (((c.cols[(r + p.2) / wb]?).getD 0) * 16384 + wbits c.dst 0 14 + k * wb + (r + p.2) % wb, p.1))

def State.cpinbRuns (s : State) (t h : Nat) (c : Cmd) : List (Nat × Nat × Nat) → Except CopyStop (List (Nat × PByte))
  | [] => .ok []
  | (k, r, n) :: rest => do
    let a := c.src.toNat + k * wbits c.len 32 32 + r
    let b ← (if c.local_ then s.copyReadLocal t h a n else s.copyReadGlobal t a n .cpinb)
    return cpinbCells c k r b ++ (← s.cpinbRuns t h c rest)

/-- Sector `q` of a command that writes within this module: every byte read, then every byte written. -/
def State.moveSector (s : State) (t h : Nat) (c : Cmd) (q : Nat) : Except CopyStop Moved := do
  let (o, n) := c.span q
  match c.kind with
  | .cpin =>
    let b ← s.copyReadGlobal t (c.src.toNat + o) n .copyIn
    s.copyWriteLocal t h (c.dst.toNat + o) b
  | .cpout =>
    let b ← s.copyReadLocal t h (c.src.toNat + o) n
    let w ← s.copyWriteGlobal t (c.dst.toNat + o) b .copyOut
    return ⟨w.1, (w.2.map (fun a => (11, wofNat a))).toList⟩
  | .cploc =>
    let b ← s.copyReadLocal t h (c.src.toNat + o) n
    s.copyWriteLocal t h (c.dst.toNat + o) b
  | .gather =>
    let r ← s.gatherRuns t h c (rowRuns ((c.cols[4]?).getD 2) o n n)
    let m ← r.2.1.copyWriteLocal t h (c.dst.toNat + o) r.1
    return ⟨m.s.updThread t h (fun x => { x with cmds := x.cmds.map (fun y => if y.id == c.id then { y with rest := r.2.2.2 } else y) }), r.2.2.1 ++ m.errs⟩
  | .scatter =>
    let b ← s.copyReadLocal t h (c.src.toNat + o) n
    s.scatterRuns t c b (rowRuns ((c.cols[4]?).getD 2) o n n)
  | .cpinb =>
    let cs ← s.cpinbRuns t h c (rowRuns (c.cols.length * 2 ^ wbits c.len 24 2) o n n)
    return ⟨s.updTile t (fun y => { y with bst := y.bst.carry cs }), []⟩
  | .cprem => return ⟨s, []⟩
  | .ringRow => return ⟨s, []⟩

/-! ## Landing (R224, R227) -/

/-- `k` sectors land: the barrier and the remote barrier count them. -/
def State.landCmd (s : State) (t h : Nat) (c : Cmd) (qs : List Nat) : State :=
  let s := s.updThread t h (fun x =>
    let landed := qs.foldr insNat c.landed
    { x with cmds := if c.sectors ≤ landed.length then x.cmds.filter (·.id != c.id)
        else x.cmds.map (fun y => if y.id == c.id then { y with landed := landed, sent := c.sent.filter (fun q => !qs.contains q) } else y) })
  (s.landBar t h c.bar qs.length (c.named (qs.headD 0))).signalRemote t h c (if c.req.isSome then 0 else qs.length)

/-- Sticky-error and a CPERR bit for each thing a sector recorded. -/
def State.copyErrs (s : State) (t h : Nat) (c : Cmd) (errs : List (Nat × Word)) : State :=
  errs.foldl (fun s e => (s.cpErr t h e.1 e.2).stickyBar c.bar) s

/-- A command aborts (R227): a CPERR bit, sticky-error, and every sector left counts as landed. -/
def State.abortCmd (s : State) (t h : Nat) (c : Cmd) (bit : Nat) (addr : Word) : State := (s.cpErr t h bit addr).abandonCmd t h c

def State.updCmd (s : State) (t h id : Nat) (f : Cmd → Cmd) : State :=
  s.updThread t h (fun x => { x with cmds := x.cmds.map (fun c => if c.id == id then f c else c) })

/-- The tag under which a command waits for a page of host memory. -/
def pageTag (page : Nat) : Nat := 2 ^ 32 + page

/-- What stops a sector (R212, R225, R227, R98). -/
def State.copyStop (s : State) (t h : Nat) (c : Cmd) : CopyStop → State
  | .ask u => s.ask u
  | .viol va => s.abortCmd t h c 0 (wofNat va)
  | .gated off => s.abortCmd t h c 9 (wofNat off)
  | .page p va => s.updCmd t h c.id (fun c => { c with wait := some (pageTag p), va := wofNat va })
  | .fault va access =>
    let (tag, s) := s.takeTag
    (s.updCmd t h c.id (fun c => { c with wait := some tag, va := wofNat va })).fqPost tag t h
      (faultEntry (wofNat va) (s.ctxOf t) (s.seenTile t) h access 0 3 tag)

/-! ## Which sectors may move (R224, R225) -/

/-- The ranges of bytes that a command may write: a space, the first byte and the byte after the last. -/
def State.mayWrite (s : State) (t h : Nat) (c : Cmd) : List (Nat × Nat × Nat) :=
  let loc := fun (off n : Nat) =>
    match s.localPlace t h off n with
    | some (.spad x o) => [(x, o, o + n)]
    | some (.regs x o) => [(200 + x, o, o + n)]
    | _ => []
  match c.kind, c.req with
  | .cpin, _ => loc c.dst.toNat c.total
  | .gather, _ => loc c.dst.toNat c.total
  | .ringRow, _ => loc c.dst.toNat c.total
  | .cploc, none => loc c.dst.toNat c.total
  | .cpout, _ => [(400, c.dst.toNat, c.dst.toNat + c.total)]
  | .scatter, _ => [(400, c.dst.toNat, c.dst.toNat + ((c.cols[2]?).getD 0 - 1) * (c.cols[3]?).getD 0 + (c.cols[4]?).getD 0)]
  | .cpinb, _ => c.cols.map (fun p => (1000 + p, wbits c.dst 0 14, wbits c.dst 0 14 + wbits c.len 0 16 * 2 ^ wbits c.len 24 2))
  | _, some r => [(10000 + c.peer * 4096 + r.kind.toNat * 256 + r.target.toNat, r.addr.toNat, r.addr.toNat + c.total)]
  | _, none => []

def overlap (a b : Nat × Nat × Nat) : Bool := a.1 == b.1 && a.2.1 < b.2.2 && b.2.1 < a.2.2

/-- An earlier command of the same queue still stands before a byte of this one: it may write it, or both write global space, which two virtual addresses
may name alike, and it does not wait for a fault. -/
def State.copyBlocked (s : State) (t h : Nat) (c : Cmd) : Bool :=
  let mine := s.mayWrite t h c
  ((s.threadAt t h).cmds.takeWhile (·.id != c.id)).any (fun e =>
    e.queue == c.queue &&
      (let theirs := s.mayWrite t h e
       theirs.any (fun a => mine.any (overlap a)) ||
         (e.wait.isNone && theirs.any (fun a => mine.any (fun b => a.1 == b.1 && a.1 == 400)))))

/-- The context of a tile is halted: its commands issue no sectors (R377). -/
def State.ctxHalted (s : State) (t : Nat) : Bool := (s.ctxAt (s.tileAt t).ctx).st == .halted

/-- Sector `q` of a command may land now. A scatter's sectors land in order, so that the higher position's bytes remain (R233), and a gather's, so that its elements are recorded in theirs (R234, R260). -/
def State.maySector (s : State) (t h : Nat) (c : Cmd) (q : Nat) : Bool :=
  q < c.sectors && !c.landed.contains q && !c.sent.contains q && c.wait.isNone && !c.stop && !s.ctxHalted t && !s.copyBlocked t h c &&
    (!(c.kind == .scatter || c.kind == .gather) || q == c.landed.length)

/-- A sector that leaves for a peer with its bytes and its signal; the peer's acknowledgement lands it. -/
def State.sendSector (s : State) (t h : Nat) (c : Cmd) (q : Nat) (r : RemoteReq) : Except CopyStop State := do
  let (o, n) := c.span q
  let b ← s.copyReadLocal t h (c.src.toNat + o) n
  let ps := (b.zipIdx.filter (fun p => p.1.2)).map (·.2)
  let f : Flit := .sector (pastReq r o) (b.map (·.1)) ps c.rb (c.who t h c.id) q
  return (s.emit (BitVec.ofNat 20 c.peer) f).updCmd t h c.id (fun c => { c with sent := c.sent ++ [q], since := s.run.cycle })

/-! ## Window rings' rows (R214, R215) -/

/-- The row of a row command and its ring: `ring` is 4 · row + ring number. -/
def Cmd.row (c : Cmd) : Nat := c.ring / 4
def Cmd.ringNo (c : Cmd) : Fin 4 := Fin.ofNat 4 c.ring

/-- A fault of a row: all its units are poisoned, it counts as landed, and the ring keeps the cause and the address (R215). -/
def State.rowFault (s : State) (t h : Nat) (c : Cmd) (cause : Nat) (va : Nat) : State :=
  let s := s.updTile t (fun y => { y with spad := y.spad.taint (unitsOf c.dst.toNat c.total) })
  let s := s.updThread t h (fun x =>
    let r := x.rings[c.ringNo]
    { x with rings := x.rings.set c.ringNo { r with faults := r.faults.filter (fun f => f.1 % r.s != c.row % r.s) ++ [(c.row, cause, wofNat va)] } })
  s.landCmd t h c ((List.range c.sectors).filter (fun q => !c.landed.contains q))

/-- A sector of a row lands. A fault, of an absent page of host memory too, is deferred and not replayed (R215, R225); a row
comes from the pages that GATHER's elements may come from (R200: no DEV page). -/
def State.rowSector (s : State) (t h : Nat) (c : Cmd) (q : Nat) : State :=
  let (o, n) := c.span q
  match s.copyReadGlobal t (c.src.toNat + o) n .gather with
  | .error (.ask u) => s.ask u
  | .error (.page _ va) => s.rowFault t h c 3 va
  | .error (.fault va _) => s.rowFault t h c 3 va
  | .error (.viol va) => s.rowFault t h c 4 va
  | .error (.gated _) => s
  | .ok b =>
    let r := s.copyWriteSpad t (placeBytes (c.dst.toNat + o) b)
    (r.1.copyErrs t h c (r.2.map (fun a => (2, wofNat a))).toList).landCmd t h c [q]

/-- SECTOR_LAND (R224): one sector of a command of the acting thread moves, or meets what stops it. DESIGN CHOICE (log entry 14), unsafe. -/
def State.landSector (s : State) (t h : Nat) (c : Cmd) (q : Nat) : State :=
  if c.kind = .ringRow then s.rowSector t h c q
  else match c.req with
    | some r =>
      match s.sendSector t h c q r with
      | .ok s' => s'
      | .error e => s.copyStop t h c e
    | none =>
      match s.moveSector t h c q with
      | .ok m => (m.s.forgetAsks.copyErrs t h c m.errs).landCmd t h c [q]
      | .error e => s.copyStop t h c e

/-- DESIGN CHOICE (log entry 121), unsafe. -/
def execSectorLand (s : State) : Host.Outcome State Fault Refusal :=
  match s.run.input with
  | .sector id q =>
    match s.thr.cmds.find? (·.id == id) with
    | some c => if s.maySector s.ct s.ch c q then .next (s.landSector s.ct s.ch c q) else .next s
    | none => .next s
  | _ => .next s

/-- A peer's acknowledgement of a sector (R224, R227, R98, R235): 0 done, 1 refused, 2 gated, 3 reset, 4 done but for a live granule, 5 done but for a protected
atom. `sig` says what became of the barrier signal, named by the barrier's offset `off`: 0 applied or none asked, 1 no live barrier, 2 target reset. A command that aborts here still owes the remote barrier
the signals of the sectors it has not sent. -/
def State.sectorAcked (s : State) (t h id q code sig : Nat) (off : Word) : State :=
  match (s.threadAt t h).cmds.find? (·.id == id) with
  | none => if sig = 1 then s.cpErr t h 3 off else if sig = 2 then s.cpErr t h 7 off else s
  | some c =>
    if !c.sent.contains q then s
    else
      let s := s.copyErrs t h c ((if sig = 1 then [(3, off)] else []) ++ (if sig = 2 then [(7, off)] else []))
      match code with
      | 0 => s.landCmd t h c [q]
      | 4 => (s.copyErrs t h c [(2, c.named q)]).landCmd t h c [q]
      | 5 => (s.copyErrs t h c [(11, c.named q)]).landCmd t h c [q]
      | 1 => s.abortCmd t h c 5 (c.named q)
      | 2 => s.abortCmd t h c 9 (c.named q)
      | _ => s.abortCmd t h c 7 (c.named q)

/-! ## Answers to faults (R225, R365, R367) -/

/-- The dispatcher's reads and stream transfers that wait on a tag go on, or their packets fail with XFER_FAULT (R350). -/
def State.answerPackets (s : State) (tag : Nat) (fail : Bool) : State :=
  let hit := s.disp.nodes.filter (fun n => n.wait == some tag)
  let failOf := fun (p : Packet) =>
    match p.wait, hit.find? (fun n => n.pkt.id == p.id) with
    | some (t, i), none => if t = tag then some (9, 0, i) else none
    | _, some n => some (9, 0, n.idx - (n.desc.xfers.length - n.xdone))
    | none, none => none
  { s with disp := { s.disp with
      packets := s.disp.packets.map (fun p =>
        let p' := if fail && p.fail.isNone then { p with fail := failOf p } else p
        if (p.wait.map (·.1)) == some tag then { p' with wait := none } else p'),
      nodes := s.disp.nodes.map (fun n => if n.wait == some tag then { n with wait := none } else n) } }

/-- Every command that waits on a tag resumes, or aborts with PAGE; so do the dispatcher's packets. -/
def State.answerTag (s : State) (tag : Nat) (fail : Bool) : State :=
  let s := s.answerPackets tag fail
  (List.range 130).foldl (fun s t =>
    (List.range 4).foldl (fun s h =>
      ((s.threadAt t h).cmds.filter (fun c => c.wait == some tag)).foldl (fun s c =>
        if !fail then s.updCmd t h c.id (fun c => { c with wait := none })
        else if c.kind = .ringRow then s.rowFault t h c 3 c.src.toNat
        else s.abortCmd t h c 1 c.va) s) s) s

/-- FQRESP (R367): the host answers a fault tag. -/
def execFqresp (s : State) : Host.Outcome State Fault Refusal :=
  match s.run.input with
  | .response tag fail =>
    if s.disp.fqPend.any (fun p => p.tag == tag.toNat && p.listed) then
      .next (({ s with disp := { s.disp with fqPend := s.disp.fqPend.filter (·.tag != tag.toNat) } }).answerTag tag.toNat fail)
    else .next s
  | _ => .next s

/-- PAGE_REQUEST_RESPONSE (R365): the host brings a page of a HOST leaf in, or refuses it. -/
def execPageRequestResponse (s : State) : Host.Outcome State Fault Refusal :=
  match s.run.input with
  | .page p ok =>
    let s := if ok then { s with mems := { s.mems with hostGone := delNat p.toNat s.mems.hostGone } } else s
    .next (s.answerTag (pageTag p.toNat) (!ok))
  | _ => .next s

/-! ## Remote barrier signals (R98, R235, R374) -/

/-- The base of tile `m`'s part of a save frame (R371). -/
def State.frameBase (s : State) (c frame m : Nat) : Nat := (s.ctxAt c).record.saveBase + 0x80000000 * frame + 0x1000000 * m

/-- Where the state that a context knows as tile `n` lies (R374): on a tile, in a save frame (the node, the tile's index and the frame's part), or nowhere.
A number that the map does not lead anywhere is that physical tile itself, unless another context holds it (DEDUCED, log entry 90). -/
inductive Home where
  | tile (t : Nat)
  | image (node m base : Nat)
  | gone
  deriving DecidableEq, Repr

/-- DEDUCED (log entry 133), unsafe. -/
def State.home (s : State) (c n : Nat) : Home :=
  match (s.ctxAt c).map.reverse.findSome? (fun e => if e.1 == n then (s.disp.nodes.find? (·.id == e.2.1)).map (fun x => (x, e.2.2)) else none) with
  | some (x, m) =>
    if x.phase = .saved then (match x.frame with | some f => .image x.id m (s.frameBase c f m) | none => .gone)
    else (match x.tiles[m]? with | some t => .tile t | none => .gone)
  | none => if c = 0 || (!isService n && ((s.tileAt n).ctx = c || (s.tileAt n).ctx = 0)) then .tile n else .gone

/-- One signal at a saved barrier (R374): the image's tag, the update of R247, and a pending interrupt in the saved threads. -/
def State.signalImage (s : State) (node m base off : Nat) : State × Nat :=
  if (s.mems.hbm.mem.byte (base + 0x400000 + off / 16 / 8)).toNat / 2 ^ (off / 16 % 8) % 2 = 0 then (s, 1)
  else
    match (s.disp.nodes.find? (·.id == node)).bind (·.saved[m]?) with
    | none => (s, 1)
    | some v =>
      let x : Tile := { Tile.reset with th := v.threads, spad := ⟨Memory.empty.write off (s.hbmBytes (base + 0x100000 + off) 16), []⟩ }
      let x := x.barUpdate off 0 0 1 0
      let s := s.hbmWrite (base + 0x100000 + off) (x.spad.mem.read off 16)
      ({ s with disp := { s.disp with nodes := s.disp.nodes.map (fun (n : Node) =>
          if n.id == node then { n with saved := n.saved.modify m (fun v => { v with threads := x.th }) } else n) } }, 0)

/-- What arrives for tile `t` of context `c` waits, and under which number: while its node is being saved (R374), else while its context is halted (R377). -/
def State.holdKey (s : State) (c t : Nat) : Option Nat :=
  match (s.disp.nodes.find? (fun n => (s.tileAt t).node == some n.id && n.saving.isSome)).map (·.id) with
  | some i => some (65 + i)
  | none => if (s.ctxAt c).st = .halted then some c else none

/-- A signal to a barrier of context `c` (R235): 0 applied, parked or held, 1 no live barrier, 2 the tile was reset. `src` is the sender in another module. -/
def State.signal (s : State) (c : Nat) (req : RemoteReq) (who : Option Origin) (src : Option (BitVec 20 × Origin × Nat)) : State × Nat :=
  let off := req.addr.toNat
  match s.home c req.target.toNat with
  | .gone => (s, 2)
  | .image node m base => s.signalImage node m base off
  | .tile t =>
    if s.gated t then
      let k := Fin.ofNat 8 (clusterOf t)
      let x := s.clusters[k]
      ({ s with clusters := s.clusters.set k { x with parked := x.parked ++ [(req, who, src)] } }, 0)
    else match s.holdKey c t with
    | some k => (s.hold k t (.signal req who src), 0)
    | none => if (s.tileAt t).live off then (s.updTile t (·.barUpdate off 0 0 1 0), 0) else (s, 1)

/-- The context that an access key names among the resident ones (R217). -/
def State.ctxByKey (s : State) (key : BitVec 32) : Option Nat :=
  (List.range 64).find? (fun c => c != 0 && (s.ctxAt c).record.key == key &&
    (match (s.ctxAt c).st with | .none => false | .lost => false | .dead => false | _ => true))

/-- The context a signal acts in: kind 0 names it by number, else its key does. -/
def State.signalCtx (s : State) (req : RemoteReq) : Option Nat := if req.kind = 0 then some (req.key.toNat % 64) else s.ctxByKey req.key

/-- What the issuing command records of a signal that was not applied: NOBAR or TRESET, and sticky-error on its own barrier (R235). -/
def State.signalFate (s : State) (who : Option Origin) (addr : Word) (fate : Nat) : State :=
  match who with
  | none => s
  | some o =>
    if fate = 0 then s
    else (s.cpErr o.tile.toNat o.thread.toNat (if fate = 1 then 3 else 7) addr).stickyBar (wofNat o.id)

/-- The fate of a parked or held signal, told to its sender wherever it is. -/
def State.parkedFate (s : State) (p : RemoteReq × Option Origin × Option (BitVec 20 × Origin × Nat)) (fate : Nat) : State :=
  match p.2.2 with
  | some x => if fate = 0 then s else s.emit x.1 (.sectorAck x.2.1 x.2.2 0 (BitVec.ofNat 4 fate) p.1.addr)
  | none => s.signalFate p.2.1 p.1.addr fate

/-- A signal that was parked or held is applied (R98, R374, R377). -/
def State.replaySignal (s : State) (p : RemoteReq × Option Origin × Option (BitVec 20 × Origin × Nat)) : State :=
  match s.signalCtx p.1 with
  | none => s.parkedFate p 2
  | some k => let r := s.signal k p.1 p.2.1 p.2.2; r.1.parkedFate p r.2

/-- REMOTE_BARRIER_SIGNAL (R235). -/
def execRemoteBarrierSignal (s : State) : Host.Outcome State Fault Refusal :=
  match s.run.input with
  | .signal req who =>
    match s.signalCtx req with
    | none => .next (s.signalFate who req.addr 2)
    | some c => let r := s.signal c req who none; .next (r.1.signalFate who req.addr r.2)
  | _ => .next s

end Sys2Proof.Machine
end

