-- ==== Sys2Proof/Machine/Flags.lean ====
section
/-! DEFINITION. The sticky arithmetic flags (R146). -/

namespace Sys2Proof.Machine

def fINV : Flags := 1
def fDIV : Flags := 2
def fOVF : Flags := 4
def fUNF : Flags := 8
def fINX : Flags := 16
def fSAT : Flags := 32

def flagIf (b : Bool) (f : Flags) : Flags := if b then f else 0

end Sys2Proof.Machine
end

