-- ==== Sys2Proof/Machine/Float.lean ====
section
/-! DEFINITION. Floating-point numbers (R127 to R129, R135 to R145, R150 to R152): formats, exact values, the one rounding of an exact value, the arithmetic of
values, and conversions. Every operation is computed exactly and rounded once. -/

namespace Sys2Proof.Machine

/-! ## Formats -/

/-- Which encodings with an all-ones exponent are special (R128). -/
inductive Special where
  | ieee | e4m3 | none
  deriving DecidableEq, Repr

/-- A floating-point format: its exponent and fraction widths (R127). -/
structure Fmt where
  eb : Nat
  mb : Nat
  special : Special
  deriving DecidableEq, Repr

def fp64 : Fmt := ⟨11, 52, .ieee⟩
def fp32 : Fmt := ⟨8, 23, .ieee⟩
def fp16 : Fmt := ⟨5, 10, .ieee⟩
def bf16 : Fmt := ⟨8, 7, .ieee⟩
def e5m2 : Fmt := ⟨5, 2, .ieee⟩
def e4m3 : Fmt := ⟨4, 3, .e4m3⟩
def e2m1 : Fmt := ⟨2, 1, .none⟩

def Fmt.bias (f : Fmt) : Int := 2 ^ (f.eb - 1) - 1
/-- The exponent of the smallest normal. -/
def Fmt.emin (f : Fmt) : Int := 1 - f.bias
def Fmt.signBit (f : Fmt) : Nat := 2 ^ (f.eb + f.mb)

/-- Magnitude bits of infinity in the formats that have one. -/
def Fmt.infBits (f : Fmt) : Nat := (2 ^ f.eb - 1) * 2 ^ f.mb

/-- Magnitude bits of the largest finite value (R127). -/
def Fmt.maxBits (f : Fmt) : Nat :=
  match f.special with
  | .ieee => f.infBits - 1
  | .e4m3 => 0x7E
  | .none => f.signBit - 1

/-- The canonical NaN (R128); E2M1 has none, and a NaN becomes +0 there (R143). -/
def Fmt.nanBits (f : Fmt) : Nat :=
  match f.special with
  | .ieee => f.infBits + 2 ^ (f.mb - 1)
  | .e4m3 => 0x7F
  | .none => 0

/-- A value: NaN (signalling or not), an infinity, or (−1)^neg · m · 2^e. -/
inductive FVal where
  | nan (sig : Bool)
  | inf (neg : Bool)
  | fin (neg : Bool) (m : Nat) (e : Int)
  deriving DecidableEq, Repr

/-- The value of an encoding (R127, R128). -/
def Fmt.decode (f : Fmt) (b : Nat) : FVal :=
  let neg := b / f.signBit % 2 == 1
  let mag := b % f.signBit
  let ex := mag / 2 ^ f.mb
  let fr := mag % 2 ^ f.mb
  let num := if ex = 0 then FVal.fin neg fr (f.emin - f.mb) else FVal.fin neg (2 ^ f.mb + fr) ((ex : Int) - f.bias - f.mb)
  match f.special with
  | .ieee => if mag < f.infBits then num else if mag = f.infBits then .inf neg else .nan (fr / 2 ^ (f.mb - 1) == 0)
  | .e4m3 => if mag = 0x7F then .nan false else num
  | .none => num

/-- The value of an E8M0 code (R129). -/
def decodeE8 (e : Nat) : FVal := if e = 255 then .nan false else .fin false 1 ((e : Int) - 127)

def FVal.isNan : FVal → Bool
  | .nan _ => true
  | _ => false
def FVal.isSig : FVal → Bool
  | .nan s => s
  | _ => false
def FVal.isInf : FVal → Bool
  | .inf _ => true
  | _ => false
def FVal.isZero : FVal → Bool
  | .fin _ m _ => m == 0
  | _ => false
def FVal.neg : FVal → FVal
  | .nan s => .nan s
  | .inf n => .inf (!n)
  | .fin n m e => .fin (!n) m e
def FVal.abs : FVal → FVal
  | .nan s => .nan s
  | .inf _ => .inf false
  | .fin _ m e => .fin false m e
def FVal.sign : FVal → Bool
  | .nan _ => false
  | .inf n => n
  | .fin n _ _ => n

/-! ## Rounding (R13, R135 to R137) -/

inductive RM where
  | rn | rz | ru | rd | sr
  deriving DecidableEq, Repr

/-- RMODE's codes (R135). -/
def RM.ofCode : Nat → RM
  | 0 => .rn | 1 => .rz | 2 => .ru | 3 => .rd | _ => .sr

/-- NextDraw (R137). -/
def nextDraw (x : BitVec 32) : BitVec 32 :=
  let x := x ^^^ (x <<< 13)
  let x := x ^^^ (x >>> 17)
  x ^^^ (x <<< 5)

/-- A positive magnitude: m · 2^e, or something strictly between it and (m + 1) · 2^e when `sticky`. -/
structure Mag where
  m : Nat
  e : Int
  sticky : Bool
  deriving DecidableEq, Repr

/-- The magnitude in units of 2^q, rounded, and whether it was inexact. For SR, t = floor((v − lo) / (hi − lo) · 2^32), with lo the neighbour below the
signed value. A sticky magnitude has at least 32 bits below q. -/
def roundAt (mode : RM) (draw : Nat) (neg : Bool) (x : Mag) (q : Int) : Nat × Bool :=
  if q ≤ x.e then (x.m * 2 ^ (x.e - q).toNat, x.sticky)
  else
    let k := (q - x.e).toNat
    let n := x.m / 2 ^ k
    let rem := x.m % 2 ^ k
    let exact := rem == 0 && !x.sticky
    let t := if k ≤ 32 then rem * 2 ^ (32 - k) else rem / 2 ^ (k - 32)
    let whole := (decide (k ≤ 32) || rem % 2 ^ (k - 32) == 0) && !x.sticky
    let up := match mode with
      | .rn => decide (2 ^ (k - 1) < rem) || (rem == 2 ^ (k - 1) && (x.sticky || n % 2 == 1))
      | .rz => false
      | .ru => !neg
      | .rd => neg
      | .sr => if neg then !decide (draw < 2 ^ 32 - (if whole then t else t + 1)) else decide (draw < t)
    (if exact then n else n + natOfBool up, !exact)

/-- A rounding into a format: the magnitude bits as with an unbounded exponent range, whether they overflow, whether the overflow lies on the side of infinity
(R143), and the inexact and tiny conditions (R146). -/
structure Rounded where
  bits : Nat
  toobig : Bool
  away : Bool
  inx  : Bool
  unf  : Bool
  deriving DecidableEq, Repr

/-- The rounding of a non-zero magnitude. E4M3 has an even largest value, and RN overflows at the tie above it (R136). -/
def Fmt.round (f : Fmt) (mode : RM) (draw : Nat) (neg : Bool) (x : Mag) : Rounded :=
  let E := (Nat.log2 x.m : Int) + x.e
  let q := (if E < f.emin then f.emin else E) - f.mb
  let r := roundAt mode draw neg x q
  let bits := (q - (f.emin - f.mb)).toNat * 2 ^ f.mb + r.1
  let tie := f.special == .e4m3 && mode == .rn && !x.sticky &&
    (if 0 ≤ x.e then x.m * 2 ^ x.e.toNat == 464 else x.m == 464 * 2 ^ (-x.e).toNat)
  { bits := bits, toobig := decide (f.maxBits < bits) || tie,
    away := match mode with | .rn => true | .sr => true | .rz => false | .ru => !neg | .rd => neg,
    inx := r.2, unf := r.2 && decide (E < f.emin) }

def Fmt.withSign (f : Fmt) (neg : Bool) (mag : Nat) : Nat := mag + natOfBool neg * f.signBit

/-- The outcome of a rounding: finite bits, or the overflow value of R143 under SPEC or SAT. -/
def Fmt.deliver (f : Fmt) (sat neg : Bool) (r : Rounded) : Nat × Flags :=
  if !r.toobig then (f.withSign neg r.bits, flagIf r.inx fINX ||| flagIf r.unf fUNF)
  else if !r.away then (f.withSign neg f.maxBits, fOVF ||| fINX)
  else match f.special, sat with
    | .ieee, false => (f.withSign neg f.infBits, fOVF ||| fINX)
    | .e4m3, false => (f.nanBits, fOVF ||| fINX)
    | _, _ => (f.withSign neg f.maxBits, fOVF ||| fINX ||| fSAT)

/-! ## Exact results -/

/-- The exact result of an operation (R141): a NaN with its INV, an infinity with its DIV, a signed zero, or a magnitude. -/
inductive Ex where
  | nan (inv : Bool)
  | inf (neg div : Bool)
  | zero (neg : Bool)
  | val (neg : Bool) (x : Mag)
  deriving DecidableEq, Repr

def FVal.toEx : FVal → Ex
  | .nan s => .nan s
  | .inf n => .inf n false
  | .fin n m e => if m = 0 then .zero n else .val n ⟨m, e, false⟩

/-- An exact result in a format, rounded once (R136, R141). -/
def Fmt.result (f : Fmt) (mode : RM) (draw : Nat) : Ex → Nat × Flags
  | .nan inv => (f.nanBits, flagIf inv fINV)
  | .inf n div => (f.withSign n f.infBits, flagIf div fDIV)
  | .zero n => (f.withSign n 0, 0)
  | .val n x => f.deliver false n (f.round mode draw n x)

/-! ## Arithmetic of values -/

def sgn (neg : Bool) (m : Nat) : Int := if neg then -(m : Int) else m

/-- The exact sum of two finite values, as a signed integer and an exponent. DEDUCED (log entry 33), unsafe. -/
def addFin (n1 : Bool) (m1 : Nat) (e1 : Int) (n2 : Bool) (m2 : Nat) (e2 : Int) : Int × Int :=
  let e := if e1 ≤ e2 then e1 else e2
  (sgn n1 (m1 * 2 ^ (e1 - e).toNat) + sgn n2 (m2 * 2 ^ (e2 - e).toNat), e)

/-- x + y, and whether it is an invalid operation. A zero sum is −0 when both terms are −0, and otherwise +0, or −0 under RD (R136). -/
def FVal.add (rd : Bool) : FVal → FVal → FVal × Bool
  | .nan a, .nan b => (.nan false, a || b)
  | .nan a, _ => (.nan false, a)
  | _, .nan b => (.nan false, b)
  | .inf a, .inf b => if a = b then (.inf a, false) else (.nan false, true)
  | .inf a, _ => (.inf a, false)
  | _, .inf b => (.inf b, false)
  | .fin n1 m1 e1, .fin n2 m2 e2 =>
    let s := addFin n1 m1 e1 n2 m2 e2
    if s.1 = 0 then (.fin ((n1 && n2 && m1 == 0 && m2 == 0) || rd) 0 0, false)
    else (.fin (decide (s.1 < 0)) s.1.natAbs s.2, false)

/-- x · y, exact. -/
def FVal.mul : FVal → FVal → FVal × Bool
  | .nan a, .nan b => (.nan false, a || b)
  | .nan a, _ => (.nan false, a)
  | _, .nan b => (.nan false, b)
  | .inf a, .inf b => (.inf (a != b), false)
  | .inf a, .fin n m _ => if m = 0 then (.nan false, true) else (.inf (a != n), false)
  | .fin n m _, .inf b => if m = 0 then (.nan false, true) else (.inf (n != b), false)
  | .fin n1 m1 e1, .fin n2 m2 e2 => (.fin (n1 != n2) (m1 * m2) (e1 + e2), false)

/-- An exact value with the INV its operation raised. -/
def exOf (p : FVal × Bool) : Ex :=
  match p.1 with
  | .nan _ => .nan p.2
  | v => v.toEx

def exAdd (rd : Bool) (x y : FVal) : Ex := exOf (x.add rd y)
def exSub (rd : Bool) (x y : FVal) : Ex := exOf (x.add rd y.neg)
def exMul (x y : FVal) : Ex := exOf (x.mul y)

/-- x · y + d with one rounding (R141, R167). -/
def exFma (rd : Bool) (x y d : FVal) : Ex :=
  let p := x.mul y
  match p.1 with
  | .nan _ => .nan (p.2 || d.isSig)
  | v => exOf (v.add rd d)

/-- x / y (R141). -/
def exDiv : FVal → FVal → Ex
  | .nan a, y => .nan (a || y.isSig)
  | _, .nan b => .nan b
  | .inf _, .inf _ => .nan true
  | .inf a, .fin n _ _ => .inf (a != n) false
  | .fin n _ _, .inf b => .zero (n != b)
  | .fin n1 m1 e1, .fin n2 m2 e2 =>
    if m2 = 0 then (if m1 = 0 then .nan true else .inf (n1 != n2) true)
    else if m1 = 0 then .zero (n1 != n2)
    else .val (n1 != n2) ⟨m1 * 2 ^ 160 / m2, e1 - e2 - 160, m1 * 2 ^ 160 % m2 != 0⟩

/-- The integer square root, bit by bit from bit `i - 1` down; `r` is the root found so far. -/
def isqrtAux (n : Nat) : Nat → Nat → Nat
  | 0, r => r
  | i + 1, r => isqrtAux n i (if (r + 2 ^ i) * (r + 2 ^ i) ≤ n then r + 2 ^ i else r)

def isqrt (n : Nat) : Nat := isqrtAux n (Nat.log2 n / 2 + 1) 0

/-- √(m · 2^e), with 80 bits more than needed. -/
def sqrtMag (m : Nat) (e : Int) : Mag :=
  let o := (e % 2).toNat
  let v := m * 2 ^ (o + 160)
  let r := isqrt v
  ⟨r, (e - o - 160) / 2, r * r != v⟩

def exSqrt : FVal → Ex
  | .nan s => .nan s
  | .inf false => .inf false false
  | .inf true => .nan true
  | .fin n m e => if m = 0 then .zero n else if n then .nan true else .val false (sqrtMag m e)

/-- 1 / √x: the root of a quotient, exact only where both are. -/
def exRsqrt : FVal → Ex
  | .nan s => .nan s
  | .inf false => .zero false
  | .inf true => .nan true
  | .fin n m e =>
    if m = 0 then .inf n true
    else if n then .nan true
    else
      let o := (e % 2).toNat
      let v := 2 ^ 320 / (m * 2 ^ o)
      let r := isqrt v
      .val false ⟨r, (o - e) / 2 - 160, r * r * (m * 2 ^ o) != 2 ^ 320⟩

/-! ## exp2 and log2 (R167)

Both are irrational except at the operands that have exact results. They are computed as an interval of 4,096 units of 2^−320; where both of its ends round
alike, that is the rounding of the value. Where they do not, which no operand is known to meet, an exact comparison of integers decides. -/

def fixP : Nat := 320
/-- floor(ln 2 · 2^320). -/
def ln2Fix : Nat := 1480553391661173448385607439722553250922680800745876974795605978609098082859138712941075737848984

/-- Σ y^k / k! from term `t` = y^(k−1) / (k−1)!, in units of 2^−320, each step rounded down. -/
def expSum (y : Nat) : Nat → Nat → Nat → Nat
  | 0, _, _ => 0
  | n + 1, k, t => t + expSum y n (k + 1) (t * y / 2 ^ fixP / k)

/-- A lower bound of 2^(F / 2^320). -/
def exp2Fix (F : Nat) : Nat := expSum (F * ln2Fix / 2 ^ fixP) 96 1 (2 ^ fixP)

/-- Σ z^(2k+1) / (2k+1) from the power `p` and its exponent `k`. -/
def atanhSum (z2 : Nat) : Nat → Nat → Nat → Nat
  | 0, _, _ => 0
  | n + 1, k, p => p / k + atanhSum z2 n (k + 2) (p * z2 / 2 ^ fixP)

/-- A lower bound of log2 of m / 2^b, for 2^b ≤ m < 2^(b+1). -/
def log2Fix (m b : Nat) : Nat :=
  let z := (m - 2 ^ b) * 2 ^ fixP / (m + 2 ^ b)
  2 * atanhSum (z * z / 2 ^ fixP) 120 1 z * 2 ^ fixP / (ln2Fix + 1)

/-- The greatest integer below an irrational magnitude in [lo, lo + 4096], where `below n` says that n lies below it. -/
def floorIn (lo : Nat) (below : Nat → Bool) : Nat := lo + ((List.range 4096).filter (fun k => below (lo + 1 + k))).length

/-- The result of an interval [lo, lo + 4096] of units of 2^e that holds an irrational magnitude. Where its ends round alike that is the result; else `below`, an exact comparison of integers, says which
units lie below the magnitude, and every rounding boundary lies on a unit. -/
def Fmt.ofInterval (f : Fmt) (mode : RM) (draw : Nat) (neg : Bool) (lo : Nat) (e : Int) (below : Nat → Bool) : Nat × Flags :=
  let a := f.deliver false neg (f.round mode draw neg ⟨lo, e, true⟩)
  let b := f.deliver false neg (f.round mode draw neg ⟨lo + 4096, e, true⟩)
  if a = b then a else f.deliver false neg (f.round mode draw neg ⟨floorIn lo below, e, true⟩)

/-- n · 2^-320 < 2^(F · 2^-320), compared as integers. -/
def expBelow (F n : Nat) : Bool := n ^ (2 ^ fixP) < 2 ^ (F + fixP * 2 ^ fixP)

/-- n · 2^-320 < log2 (m · 2^e) for m ≠ 0, compared as integers. -/
def logBelow (m : Nat) (e n : Int) : Bool := let k := n - e * (2 ^ fixP : Nat); k < 0 || 2 ^ k.toNat < m ^ (2 ^ fixP)

/-- 2^x. DEDUCED (log entry 20), safe. -/
def Fmt.exp2 (f : Fmt) (mode : RM) (draw : Nat) (x : FVal) : Nat × Flags :=
  match x with
  | .nan s => f.result mode draw (.nan s)
  | .inf false => f.result mode draw (.inf false false)
  | .inf true => f.result mode draw (.zero false)
  | .fin n m e =>
    let X := sgn n (if 0 ≤ (fixP : Int) + e then m * 2 ^ ((fixP : Int) + e).toNat else 0)
    let I := X / 2 ^ fixP
    let F := (X % 2 ^ fixP).toNat
    let I' := if 4000 < I then 4000 else if I < -4000 then -4000 else I
    if F = 0 then f.result mode draw (.val false ⟨1, I', false⟩)
    else f.ofInterval mode draw false (exp2Fix F) (I' - fixP) (expBelow F)

/-- log2 x. -/
def Fmt.log2 (f : Fmt) (mode : RM) (draw : Nat) (x : FVal) : Nat × Flags :=
  match x with
  | .nan s => f.result mode draw (.nan s)
  | .inf false => f.result mode draw (.inf false false)
  | .inf true => f.result mode draw (.nan true)
  | .fin n m e =>
    if m = 0 then f.result mode draw (.inf true true)
    else if n then f.result mode draw (.nan true)
    else
      let b := Nat.log2 m
      let E := (b : Int) + e
      if m = 2 ^ b then f.result mode draw (if E = 0 then .zero false else .val (decide (E < 0)) ⟨E.natAbs, 0, false⟩)
      else
        let A := E * 2 ^ fixP + log2Fix m b
        if 0 ≤ A then f.ofInterval mode draw false A.toNat (-fixP) (fun n => logBelow m e n)
        else f.ofInterval mode draw true (-(A + 4096)).toNat (-fixP) (fun n => !logBelow m e (-(n : Int)))

/-! ## Comparison, minimum, maximum, class (R142, R168, R169) -/

/-- x < y for values that are not NaN; −0 equals +0. -/
def FVal.lt : FVal → FVal → Bool
  | .nan _, _ => false
  | _, .nan _ => false
  | .inf a, .inf b => a && !b
  | .inf a, _ => a
  | _, .inf b => !b
  | .fin n1 m1 e1, .fin n2 m2 e2 => decide ((addFin n1 m1 e1 (!n2) m2 e2).1 < 0)

def FVal.eq : FVal → FVal → Bool
  | .nan _, _ => false
  | _, .nan _ => false
  | .inf a, .inf b => a == b
  | .inf _, _ => false
  | _, .inf _ => false
  | .fin n1 m1 e1, .fin n2 m2 e2 => (addFin n1 m1 e1 (!n2) m2 e2).1 == 0

/-- The smaller, with −0 below +0. -/
def FVal.least (x y : FVal) : FVal := if x.lt y then x else if y.lt x then y else if x.sign then x else y
def FVal.greatest (x y : FVal) : FVal := if x.lt y then y else if y.lt x then x else if x.sign then y else x

/-- A minimum or maximum under the NaN rule: propagate, or drop a NaN operand (R142). -/
def exPick (sel : FVal → FVal → FVal) (ignore : Bool) (x y : FVal) : Ex :=
  if x.isNan && y.isNan then .nan false
  else if x.isNan then (if ignore then y.toEx else .nan false)
  else if y.isNan then (if ignore then x.toEx else .nan false)
  else (sel x y).toEx

/-- VFMIN or VFMAX of two values: exact, so that the result is one of them or the canonical NaN. A signalling NaN sets INV. DEDUCED (log entry 37), unsafe. -/
def Fmt.pick (f : Fmt) (sel : FVal → FVal → FVal) (ignore : Bool) (x y : FVal) : Nat × Flags :=
  ((f.result .rn 0 (exPick sel ignore x y)).1, flagIf (x.isSig || y.isSig) fINV)

/-- The class code of R169, as its bit number. -/
def Fmt.classOf (f : Fmt) : FVal → Nat
  | .inf true => 0
  | .inf false => 7
  | .nan true => 8
  | .nan false => 9
  | .fin n m _ =>
    if m = 0 then (if n then 3 else 4)
    else if m < 2 ^ f.mb then (if n then 2 else 5)
    else (if n then 1 else 6)

/-! ## Conversions (R143 to R145, R171) -/

/-- A float-to-float conversion (R143); an exact one never overflows. -/
def Fmt.narrow (f : Fmt) (sat : Bool) (mode : RM) (draw : Nat) (x : FVal) : Nat × Flags :=
  match x with
  | .nan s => (f.nanBits, flagIf (s || f.special == .none) fINV)
  | .inf n =>
    match f.special, sat with
    | .ieee, false => (f.withSign n f.infBits, 0)
    | .e4m3, false => (f.nanBits, fINV)
    | _, _ => (f.withSign n f.maxBits, fSAT)
  | .fin n m e => if m = 0 then (f.withSign n 0, 0) else f.deliver sat n (f.round mode draw n ⟨m, e, false⟩)

/-- ToInt: an exact real rounded to an integer (R134, R144), and whether it was inexact. -/
def toInt (mode : RM) (draw : Nat) (neg : Bool) (x : Mag) : Int × Bool :=
  let r := roundAt mode draw neg x 0
  (sgn neg r.1, r.2)

/-- The range of integers of `n` bits. -/
def intLo (n : Nat) (signed : Bool) : Int := if signed then -(2 ^ (n - 1)) else 0
def intHi (n : Nat) (signed : Bool) : Int := if signed then 2 ^ (n - 1) - 1 else 2 ^ n - 1

/-- A float to an integer of `n` bits, signed or not (R144). -/
def floatToInt (n : Nat) (signed : Bool) (mode : RM) (draw : Nat) (x : FVal) : Nat × Flags :=
  match x with
  | .nan _ => (0, fINV)
  | .inf neg => (truncInt (if neg then intLo n signed else intHi n signed) n, fINV ||| fSAT)
  | .fin neg m e =>
    let r := toInt mode draw neg ⟨m, e, false⟩
    if r.1 < intLo n signed then (truncInt (intLo n signed) n, fINV ||| fSAT)
    else if intHi n signed < r.1 then (truncInt (intHi n signed) n, fINV ||| fSAT)
    else (truncInt r.1 n, flagIf r.2 fINX)

/-- An integer to a float (R144). -/
def Fmt.ofInt (f : Fmt) (sat : Bool) (mode : RM) (draw : Nat) (v : Int) : Nat × Flags :=
  f.narrow sat mode draw (.fin (decide (v < 0)) v.natAbs 0)

/-- An integer clamped to `n` bits, and SAT where it clamps (R144, R162). -/
def clampInt (n : Nat) (signed : Bool) (v : Int) : Nat × Flags :=
  if v < intLo n signed then (truncInt (intLo n signed) n, fSAT)
  else if intHi n signed < v then (truncInt (intHi n signed) n, fSAT)
  else (truncInt v n, 0)

/-- A value to E8M0 (R145). -/
def toE8 : FVal → Nat × Flags
  | .nan _ => (0xFF, fINV)
  | .inf _ => (0xFF, fINV)
  | .fin _ m e =>
    if m = 0 then (0, fSAT)
    else
      let k := (Nat.log2 m : Int) + e
      if k < -127 then (0, fSAT) else if 127 < k then (254, fSAT) else ((k + 127).toNat, 0)

/-! ## Sums of the matrix array and of reduction trees (R150 to R152) -/

/-- RN of the sum and of the difference of two encodings. -/
def addRN (f : Fmt) (a b : Nat) : Nat × Flags := f.result .rn 0 (exAdd false (f.decode a) (f.decode b))
def subRN (f : Fmt) (a b : Nat) : Nat × Flags := f.result .rn 0 (exSub false (f.decode a) (f.decode b))

/-- The exact sum of two values that each carry the INV of what made them. -/
def addVals (a b : FVal × Bool) : FVal × Bool :=
  let s := a.1.add false b.1
  (s.1, s.2 || a.2 || b.2)

/-- TwoSum and the update of a compensated pair (R152): the new sum and error. -/
def pairAdd (f : Fmt) (S E x : Nat) : Nat × Nat :=
  let s := (addRN f S x).1
  let bv := (subRN f s S).1
  let av := (subRN f s bv).1
  let e := (addRN f (subRN f S av).1 (subRN f x bv).1).1
  if (f.decode s).isNan || (f.decode s).isInf then (s, 0) else (s, (addRN f E e).1)

/-! ## VCVT's formats (R170, R171) -/

/-- A conversion format: an integer of so many bits, a float, or E8M0. -/
inductive CFmt where
  | int (n : Nat) (signed : Bool)
  | flt (f : Fmt)
  | e8
  deriving DecidableEq, Repr

/-- The format codes of R170; 15 is reserved. -/
def CFmt.ofCode : Nat → CFmt
  | 0 => .int 8 true | 1 => .int 16 true | 2 => .int 32 true | 3 => .int 64 true
  | 4 => .flt fp32 | 5 => .flt fp16 | 6 => .flt bf16 | 7 => .flt e4m3 | 8 => .flt e5m2 | 9 => .flt e2m1
  | 10 => .int 8 false | 11 => .int 16 false | 12 => .int 32 false | 13 => .int 64 false
  | _ => .e8

def Fmt.width (f : Fmt) : Nat := 1 + f.eb + f.mb

def CFmt.bits : CFmt → Nat
  | .int n _ => n
  | .flt f => f.width
  | .e8 => 8

/-- The destination represents every value of the source: the exact float conversions. -/
def exactFloat (d s : Fmt) : Bool :=
  d == s || (d == fp32 && s != fp64) || ((d == fp16 || d == bf16) && (s == e5m2 || s == e4m3 || s == e2m1)) || ((d == e5m2 || d == e4m3) && s == e2m1)

/-- Whether a conversion of the pair draws under SR (R171). -/
def convDraws : CFmt → CFmt → Bool
  | .e8, _ => false
  | .int _ _, .int _ _ => false
  | .int _ _, _ => true
  | .flt _, .int _ _ => true
  | .flt d, .flt s => !exactFloat d s
  | .flt d, .e8 => !(d == fp32 || d == bf16)

/-- An exact float conversion: NaN to the canonical NaN, an infinity to itself. -/
def Fmt.exactly (f : Fmt) (x : FVal) : Nat × Flags := f.result .rn 0 x.toEx

/-- Convert (R171). DEDUCED (log entry 34), unsafe. -/
def convert (dst src : CFmt) (sat : Bool) (mode : RM) (draw : Nat) (x : Nat) : Nat × Flags :=
  match src, dst with
  | .int n sg, d =>
    let v : Int := if sg then sextInt x n else (x % 2 ^ n : Nat)
    match d with
    | .int k sd => if intLo k sd ≤ v ∧ v ≤ intHi k sd || !sat then (truncInt v k, 0) else clampInt k sd v
    | .flt f => f.ofInt sat mode draw v
    | .e8 => toE8 (.fin (decide (v < 0)) v.natAbs 0)
  | .flt s, d =>
    let v := s.decode x
    match d with
    | .int k sd => floatToInt k sd mode draw v
    | .flt f => if exactFloat f s then f.exactly v else f.narrow sat mode draw v
    | .e8 => toE8 v
  | .e8, d =>
    let v := decodeE8 x
    match d with
    | .int k sd => floatToInt k sd mode draw v
    | .flt f => if convDraws (.flt f) .e8 then f.narrow sat mode draw v else f.exactly v
    | .e8 => toE8 v

end Sys2Proof.Machine
end

