-- ==== Sys2Proof/Machine/Vec.lean ====
section
/-! DEFINITION. Vectors (R153 to R159): register-space vectors, vq, predicates, and the shared shapes of a vector syllable. -/

namespace Sys2Proof.Machine

/-! ## Elements (R155) -/

/-- Element `i` of `b` bits. -/
def vget (v b i : Nat) : Nat := v / 2 ^ (b * i) % 2 ^ b

/-- Elements of `b` bits, element 0 lowest. -/
def vpack (b : Nat) : List Nat → Nat
  | [] => 0
  | x :: r => x % 2 ^ b + 2 ^ b * vpack b r

def vecOf (b : Nat) (l : List Nat) : VecVal := BitVec.ofNat 4096 (vpack b l)

/-- Element width in bits of a type code read by width alone (class any). -/
def anyBits (y : BitVec 3) : Nat :=
  match y.toNat with
  | 0 => 8 | 1 => 16 | 2 => 32 | 3 => 64 | 4 => 32 | 5 => 16 | 6 => 16 | _ => 8

/-- The integer class: f8 is read as b8 (R37, R159). -/
def intBits (y : BitVec 3) : Option Nat :=
  match y.toNat with
  | 0 => some 8 | 1 => some 16 | 2 => some 32 | 3 => some 64 | 7 => some 8 | _ => none

/-- The float class (R159). -/
def fltOf (y : BitVec 3) : Option Fmt :=
  match y.toNat with
  | 4 => some fp32 | 5 => some fp16 | 6 => some bf16 | _ => none

/-- Element `i` of `b` bits is active under a predicate (R157). -/
def elemActive (p : PredVal) (b i : Nat) : Bool := p.getLsbD (b / 8 * i)

/-! ## Vector operands (R154, R156) -/

/-- The register-space offset of v_i through the thread's VVIEW. -/
def State.vecOff (s : State) (i : BitVec 4) : Nat :=
  s.ch * 0x20000 + (512 * wbits s.thr.csr.vview 9 8 + 512 * wbits s.thr.csr.vview 24 8 * i.toNat) % 0x20000

def State.readVec (s : State) (i : BitVec 4) : VecVal := BitVec.ofNat 4096 (leNat (s.tile.regs.mem.read (s.vecOff i) 512))
/-- A vector written whole: the elements that keep their old bytes are written back with the others, and the poison of all 16 units clears: DESIGN CHOICE (log entry 153: the spec does not say whether the
kept bytes count as covered, R157, R204). -/
def State.writeVec (s : State) (i : BitVec 4) (v : VecVal) : State :=
  let o := s.vecOff i
  s.modTile (fun x => { x with regs := x.regs.write o (leBytes 512 v.toNat) })

/-- The old value of a destination; nothing is kept of vq. -/
def State.oldVec (s : State) (d : BitVec 4) : VecVal := if d = 15 then 0 else s.readVec d

/-- A vector written, or an entry pushed to qws. -/
def State.putVec (s : State) (d : BitVec 4) (v : VecVal) (mask : PredVal) : State :=
  if d = 15 then s.modQs (fun q => { q with qws := q.qws ++ [(v, mask)] }) else s.writeVec d v

/-- The sources of a syllable in their order; each vq pops an entry. -/
def State.takeSrcs (s : State) : List (BitVec 4) → List VecVal × State
  | [] => ([], s)
  | f :: r =>
    if f = 15 then
      let p := (s.modQs (fun q => { q with qlw := q.qlw.drop 1 })).takeSrcs r
      (s.thr.qs.qlw.headD 0 :: p.1, p.2)
    else
      let p := s.takeSrcs r
      (s.readVec f :: p.1, p.2)

/-- The entries a syllable pops from qlw are there, and qws has room for `n` pushes when its destination is vq (R158). -/
def State.vecReady (s : State) (srcs : List (BitVec 4)) (d : Option (BitVec 4)) (n : Nat) : Bool :=
  srcs.count 15 ≤ s.thr.qs.qlw.length && (d != some 15 || s.thr.qs.qws.length + n ≤ 16)

/-- A vector syllable (R158): it starts only when its tokens, its entries and its room are there together, and it raises no trap. -/
def withVec (k : BitVec 4) (srcs : List (BitVec 4)) (d : Option (BitVec 4)) (n : Nat) (body : State → List VecVal → State) (s : State) : Res :=
  withTokens k s (fun s =>
    if !s.vecReady srcs d n then .error .hold
    else
      let p := s.takeSrcs srcs
      .ok (body p.2 p.1))

/-- `n` entries with an all-zero mask pushed where the destination is vq. -/
def State.pushEmpty (s : State) (d : Option (BitVec 4)) (n : Nat) : State :=
  if d = some 15 then s.modQs (fun q => { q with qws := q.qws ++ List.replicate n (0, 0) }) else s

/-- The wrong-type fallback (R37, R159): nothing is written, vq sources pop, a vq destination pushes entries with an all-zero mask; WARN.TYPE. -/
def wrongType (k : BitVec 4) (srcs : List (BitVec 4)) (d : Option (BitVec 4)) (n : Nat) (s : State) : Res :=
  withVec k srcs d n (fun s _ => (s.pushEmpty d n).setWarn 3) s

/-! ## Element by element (R138, R146, R157) -/

/-- `c` elements from element `i`: the active ones computed, each with its draw, the others kept; with the generator and the flags of the active ones. -/
def elemLoop (act : Nat → Bool) (f : Nat → Nat → Nat × Flags) (old : Nat → Nat) (sr : Bool) :
    Nat → Nat → BitVec 32 → List Nat × BitVec 32 × Flags
  | 0, _, x => ([], x, 0)
  | c + 1, i, x =>
    if act i then
      let x' := if sr then nextDraw x else x
      let r := f i x'.toNat
      let t := elemLoop act f old sr c (i + 1) x'
      (r.1 :: t.1, t.2.1, r.2 ||| t.2.2)
    else
      let t := elemLoop act f old sr c (i + 1) x
      (old i :: t.1, t.2.1, t.2.2)

def State.setSeed (s : State) (x : BitVec 32) : State := s.modThr (·.modCsr ({ · with srseed := x }))

/-- The predicate in its role of write mask: active elements of vd take the result, the others keep their value or, for vq, are 0. -/
def State.elementwise (s : State) (d p : BitVec 4) (b : Nat) (sr : Bool) (f : Nat → Nat → Nat × Flags) : State :=
  let pr := s.pred p
  let old := (s.oldVec d).toNat
  let r := elemLoop (elemActive pr b) f (vget old b) sr (4096 / b) 0 s.thr.csr.srseed
  ((s.putVec d (vecOf b r.1) pr).setSeed r.2.1).orFlags r.2.2

/-- Every element written, the predicate being no write mask. -/
def State.wholeVec (s : State) (d : BitVec 4) (b : Nat) (l : List Nat) : State := s.putVec d (vecOf b l) (BitVec.allOnes 512)

/-- Element `i` of each source. -/
def elems (vs : List VecVal) (b i : Nat) : List Nat := vs.map (fun v => vget v.toNat b i)

/-- The `j`-th of a list of operands. -/
def opd (l : List Nat) (j : Nat) : Nat := (l[j]?).getD 0
def vopd (l : List VecVal) (j : Nat) : Nat := ((l[j]?).getD 0).toNat

/-- An integer operation with its predicate as write mask: `f b operands`. -/
def vInt (k : BitVec 4) (y : BitVec 3) (srcs : List (BitVec 4)) (d p : BitVec 4) (f : Nat → List Nat → Nat × Flags) (s : State) : Res :=
  match intBits y with
  | none => wrongType k srcs (some d) 1 s
  | some b => withVec k srcs (some d) 1 (fun s vs => (s.warnIf (y = 7) 3).elementwise d p b false (fun i _ => f b (elems vs b i))) s

/-- An operation on bits alone, of any type, with its predicate as write mask; `f` is given the element's index. -/
def vAny (k : BitVec 4) (y : BitVec 3) (srcs : List (BitVec 4)) (d p : BitVec 4) (f : Nat → List VecVal → Nat → Nat) (s : State) : Res :=
  withVec k srcs (some d) 1 (fun s vs => s.elementwise d p (anyBits y) false (fun i _ => (f (anyBits y) vs i, 0))) s

/-- The rounding that m2 selects (R167). -/
def State.roundMode (s : State) (r : BitVec 2) : RM :=
  match r.toNat with
  | 0 => RM.ofCode s.thr.csr.rmode.toNat
  | 1 => .rn
  | 2 => .rz
  | _ => .sr

/-- A floating-point operation with its predicate as write mask: `f format mode draw operands`. -/
def vFlt (k : BitVec 4) (y : BitVec 3) (srcs : List (BitVec 4)) (d p : BitVec 4) (r : BitVec 2) (f : Fmt → RM → Nat → List Nat → Nat × Flags) (s : State) : Res :=
  match fltOf y with
  | none => wrongType k srcs (some d) 1 s
  | some g =>
    withVec k srcs (some d) 1 (fun s vs =>
      let m := s.roundMode r
      s.elementwise d p g.width (m == .sr) (fun i draw => f g m draw (elems vs g.width i))) s

/-- A predicate of a run of elements, each setting all its bits (R164, R194). -/
def predOf (b : Nat) (l : List Bool) : PredVal := BitVec.ofNat 512 (vpack (b / 8) (l.map (fun x => if x then 2 ^ (b / 8) - 1 else 0)))

/-- A comparison (R164, R168): the bits of the active elements of pd take the result. -/
def State.compare (s : State) (d p : BitVec 4) (b : Nat) (f : Nat → Bool × Flags) : State :=
  let pr := s.pred p
  let old := (s.pred d).toNat
  let r := elemLoop (elemActive pr b) (fun i _ => let c := f i; (if c.1 then 2 ^ (b / 8) - 1 else 0, c.2)) (vget old (b / 8)) false (4096 / b) 0 0
  (s.setPred d (BitVec.ofNat 512 (vpack (b / 8) r.1))).orFlags r.2.2

end Sys2Proof.Machine
end

