-- ==== Sys2Proof/Machine/Accum.lean ====
section
/-! DEFINITION. Accumulator ownership (R312 to R329): resolution, claims, images, spills and refills, the ownership instructions, and the transfers ACZERO,
ACRD and ACWR (R305). -/

namespace Sys2Proof.Machine

/-! ## Positions and slots (R287) -/

def posOf (L : Nat) : Nat := L % 16

/-- The position of a logical block is inside the shape. -/
def Geom.inside (g : Geom) (L : Nat) : Bool := 64 * (L / 4 % 4 + 1) ≤ g.rows.length && 64 * (L % 4 + 1) ≤ g.cols.length

def Tile.ent (x : Tile) (L : Nat) : OwnEnt := x.own[Fin.ofNat 64 L]
def Tile.setEnt (x : Tile) (L : Nat) (e : OwnEnt) : Tile := { x with own := x.own.set (Fin.ofNat 64 L) e }

def OwnEnt.resident (e : OwnEnt) : Bool := e.st == .owned || e.st == .pinned

/-- The 4,096 words of a resident block, row-major. DESIGN CHOICE (log entry 46), safe. -/
def Tile.block (x : Tile) (L : Nat) : Array Nat :=
  let l := x.acc[Fin.ofNat 64 (16 * (x.ent L).slot.toNat + posOf L)]
  if l.isEmpty then Array.replicate 4096 0 else (l.map (·.toNat)).toArray

/-- The words of a resident block replaced. -/
def Tile.setBlock (x : Tile) (L : Nat) (a : Array Nat) : Tile :=
  { x with acc := x.acc.set (Fin.ofNat 64 (16 * (x.ent L).slot.toNat + posOf L)) (if a.all (· == 0) then [] else a.toList.map (BitVec.ofNat 32)) }

/-- The lowest free slot at a block's position: the slots of its four logical blocks that are resident are taken. -/
def Tile.freeSlot (x : Tile) (L : Nat) : Nat :=
  ((List.range 4).find? (fun sl => !(List.range 4).any (fun b => (x.ent (16 * b + posOf L)).resident && (x.ent (16 * b + posOf L)).slot.toNat == sl))).getD 0

/-! ## The ownership fault (R316) -/

/-- REASON: 1 OTHERCTX, 2 OTHERTHREAD, 3 OUTSIDE, 4 BADIMAGE, 5 NOTPINNED. -/
def ownFault (L reason octx : Nat) : Stop := .trap { cause := 6, info := L % 64 + reason * 64 + octx * 1024 }

/-- The context and thread checks of Resolve (R314). -/
def State.ownCheck (s : State) (L : Nat) : Option Stop :=
  let e := s.tile.ent L
  if e.st = .free then none
  else if e.ctx.toNat ≠ s.tile.ctx then some (ownFault L 1 e.ctx.toNat)
  else if !e.pin && e.thread.toNat ≠ s.ch then some (ownFault L 2 0)
  else none

/-- What Resolve meets first among the blocks that a syllable names, before it changes any of them: block by block, the position and then the owner (R314); or, where the syllable checks every
position before it resolves (R297, R305), all the positions first. -/
def State.resolveStop (s : State) (names : List Nat) (each : Bool) : Option Stop :=
  let outside := fun (L : Nat) => if s.tile.geom.inside L then none else some (ownFault L 3 0)
  if each then names.findSome? (fun L => (outside L).or (s.ownCheck L)) else (names.findSome? outside).or (names.findSome? s.ownCheck)

/-! ## Images (R317, R318) -/

def imageSize : Nat := 16448

/-- The bytes of a block's image. -/
def imageOf (x : Tile) (tileNo L : Nat) : List Byte :=
  let e := x.ent L
  let head := [0x41, 0x43, 0x53, 0x50].map (BitVec.ofNat 8) ++ leBytes 1 1 ++ leBytes 1 (natOfBool e.fmt) ++ leBytes 1 L ++ leBytes 1 (natOfBool e.pin) ++
    leBytes 2 e.tag.toNat ++ leBytes 2 x.geom.gen.toNat ++ leBytes 1 e.ctx.toNat ++ leBytes 1 tileNo ++ leBytes 1 e.thread.toNat ++ List.replicate 45 0
  let data := ((x.block L).toList.map (leBytes 4)).flatten
  head ++ leBytes 4 (crc32c (head ++ data)) ++ data

/-- A valid image: magic, version and CRC. -/
def imageValid (b : List Byte) : Bool :=
  leAt b 0 4 = 0x50534341 && leAt b 4 1 = 1 && crc32c (b.take 60 ++ (b.drop 64)) = leAt b 60 4

def imageWords (b : List Byte) : Array Nat :=
  let a := b.toArray
  (Array.range 4096).map (fun i => leNat ((List.range 4).map (fun j => a.getD (64 + 4 * i + j) 0)))

/-- The home of a block (R317); `n` is the tile whose default home it is. -/
def State.homeAddr (s : State) (t L n : Nat) : Nat :=
  let e := (s.tileAt t).ent L
  if e.home = 0 then (s.ctxAt e.ctx.toNat).record.acsp.toNat + imageSize * (64 * n + L) else e.home.toNat

/-- The holding area of the tile (R326). -/
def holdAddr (t L : Nat) : Nat := 0x8C00000000 + 0x200000 * t + imageSize * L

/-- An image read from a global address of a context (R323): the page checks, the repair, and the poison trap. A token alone may order it after the tile's own stores, so it reads what they
have left in the L1 as if that had been written back (R324). -/
def State.readImage (s : State) (c va : Nat) : Except Stop (List Byte) :=
  match s.globalPieces c va imageSize .cpinb with
  | .error (.viol, x) => .error (accessViol 0 (wofNat x))
  | .error (.ask u, _) => .error (.ask u)
  | .error (_, x) => .error (pageFault 0 (wofNat x))
  | .ok ps => do
    let s := ps.foldl (fun (s : State) p => match p.place with | .mem loc _ => s.evictOwn s.ct loc p.n | _ => s) s
    let parts ← ps.mapM (fun p =>
      match p.place with
      | .mem loc _ =>
        match s.locAsk loc p.n with
        | some u => .error (.ask u)
        | none =>
          match (s.locPoison loc p.n).head? with
          | some u => .error (poisoned (wofNat (p.va + (32 * u - loc))))
          | none => .ok (s.locBytes loc p.n)
      | _ => .error (accessViol 0 (wofNat p.va)))
    return parts.flatten

/-- An image read from the holding area, with the same repair and poison trap; TADDR names the physical address there (DESIGN CHOICE, log entry 143). -/
def State.readHold (s : State) (a : Nat) : Except Stop (List Byte) :=
  match s.needAsk a imageSize with
  | some u => .error (.ask u)
  | none => match (s.hbmPoison a imageSize).head? with
    | some u => .error (poisoned (wofNat (32 * u)))
    | none => .ok (s.hbmBytes a imageSize)

/-- The image a refill reads: the holding area's, or that at HOME, each of the tile that wrote it: the block may since have moved (R328; DEDUCED, log entry 92). -/
def State.refillImage (s : State) (L : Nat) : Except Stop (List Byte) := do
  let e := s.tile.ent L
  let b ← (if e.hold then s.readHold (holdAddr e.origin L) else s.readImage s.tile.ctx (s.homeAddr s.ct L e.origin))
  if imageValid b then return b else .error (ownFault L 4 0)

/-! ## Resolution (R314, R315) -/

/-- Claim: the block becomes the thread's, in the lowest free slot, all zeros. -/
def Tile.claim (x : Tile) (h L : Nat) (int : Bool) : Tile :=
  let e : OwnEnt := { st := .owned, pin := false, slot := BitVec.ofNat 2 (x.freeSlot L), fmt := int, hold := false, thread := BitVec.ofNat 2 h,
                      ctx := BitVec.ofNat 6 x.ctx, tag := 0, sgen := (x.ent L).sgen, home := 0, origin := 0 }
  (x.setEnt L e).setBlock L (Array.replicate 4096 0)

/-- A refill returns a spilled block to owned or pinned (R323). -/
def Tile.refill (x : Tile) (L : Nat) (b : List Byte) : Tile :=
  let e := x.ent L
  let e := { e with st := if e.pin then .pinned else .owned, slot := BitVec.ofNat 2 (x.freeSlot L), hold := false, fmt := leAt b 5 1 % 2 == 1,
                    sgen := x.geom.gen }
  (x.setEnt L e).setBlock L (imageWords b)

/-- The images of the spilled blocks among some, all read before any block changes. -/
def State.refillImages (s : State) : List Nat → Except Stop (List (Nat × List Byte))
  | [] => .ok []
  | L :: r => do
    if (s.tile.ent L).st = .spilled then
      let b ← s.refillImage L
      return (L, b) :: (← s.refillImages r)
    else s.refillImages r

/-- Every named block resolved for the acting thread: checked, then refilled and claimed. -/
def State.resolveBlocks (s : State) (names : List Nat) (int each : Bool) : Except Stop State :=
  match s.resolveStop names each with
  | some e => .error e
  | none => do
    let imgs ← s.refillImages names
    let s := imgs.foldl (fun s p => s.modTile (·.refill p.1 p.2)) s
    return names.foldl (fun s L => if (s.tile.ent L).st = .free then s.modTile (·.claim s.ch L int) else s) s

/-- One refill for a syllable: the first of the blocks it names that is spilled, once every block has passed its checks and every image can be read (R314, R323). A pre-emption can come between two refills,
and a later block then stays spilled (R340). -/
def State.refillStep (s : State) (names : List Nat) (each : Bool) : Except Stop (Option State) :=
  match s.resolveStop names each with
  | some e => .error e
  | none => do
    match ← s.refillImages names with
    | [] => return none
    | (L, b) :: _ => return some (s.modTile (·.refill L b))

/-- The tile's shape is empty: every array syllable raises the ownership fault (R289). -/
def State.noArray (s : State) : Bool := s.tile.geom.rows.isEmpty || s.tile.geom.cols.isEmpty

/-- A thread has the array in the middle of an array syllable (R298, R336): not while it is in a handler. -/
def Thread.inArray (x : Thread) : Bool := x.chunking && !x.active false

/-- No nest of the tile runs, and no other thread is in the middle of an array syllable: the array performs one at a time (R298, R336). -/
def State.arrayFree (s : State) : Bool :=
  s.tile.th.toList.zipIdx.all (fun (p : Thread × Nat) => p.1.nest.isNone && (p.2 == s.ch || !p.1.inArray))

/-- An array syllable that holds the W stream until it completes (R298). `first` is the first block it names, 0 for one that names none. -/
def arraySyl (k : BitVec 4) (first : Nat) (body : State → Res) (s : State) : Res :=
  withTokens k s (fun s => if !s.arrayFree then .error .hold else if s.noArray then .error (ownFault first 3 0) else body s)

/-- An array syllable is held in the middle, after a refill: the array is its own (R298). An FWCHUNK keeps its counts. -/
def State.refilled (s : State) : State := (if s.prog.isEmpty then s.setProg [1] else s).setRes .held

/-- An array syllable that resolves blocks: while one of them is spilled, a turn of it refills one block and leaves it held. -/
def blockSyl (k : BitVec 4) (names : List Nat) (each : Bool) (body : State → Res) (s : State) : Res :=
  if tokReady s.thr.qs.tok s.slot k && s.arrayFree && !s.noArray then
    match s.refillStep names each with
    | .error e => .error e
    | .ok (some s') => .ok s'.refilled
    | .ok none => arraySyl k (names.headD 0) body s
  else arraySyl k (names.headD 0) body s

/-- Blocks L to L + NM1. -/
def blockRun (L n : BitVec 6) : List Nat := (List.range (n.toNat + 1)).map (· + L.toNat)

/-! ## Ownership instructions (R319 to R323) -/

/-- The checks of ACFREE and ACSPILL: the position only of a resident block (R314). -/
def State.freeCheck (s : State) (L : Nat) : Option Stop :=
  match s.ownCheck L with
  | some e => some e
  | none => if (s.tile.ent L).resident && !s.tile.geom.inside L then some (ownFault L 3 0) else none

/-- ACPIN (R320). -/
def execAcpin (k : BitVec 4) (x w : BitVec 3) (n l : BitVec 6) (s : State) : Host.Outcome State Fault Refusal :=
  finish s (fun s => if (s.A x).toNat % 64 ≠ 0 then arraySyl k l.toNat (fun s => .error (misaligned 0 (s.A x))) s else blockSyl k (blockRun l n) true (fun s => do
      let X := s.A w
      let H := s.A x
      let run := blockRun l n
      let fresh := run.filter (fun L => (s.tile.ent L).st == .free)
      let s ← s.resolveBlocks run false true
      return run.foldl (fun s L =>
        let home : Word := if H = 0 then 0 else H + wofNat (imageSize * (L - l.toNat))
        let fmt (e : OwnEnt) : Bool := if fresh.contains L then wbit X 16 else e.fmt
        s.modTile (fun y => y.setEnt L { y.ent L with st := .pinned, pin := true, tag := BitVec.ofNat 16 (wbits X 0 16), fmt := fmt (y.ent L), home := home })) s) s)

/-- ACFREE (R321). -/
def execAcfree (k : BitVec 4) (n l : BitVec 6) (s : State) : Host.Outcome State Fault Refusal :=
  finish s (arraySyl k l.toNat (fun s =>
    match (blockRun l n).findSome? s.freeCheck with
    | some e => .error e
    | none => .ok ((blockRun l n).foldl (fun s L => s.modTile (·.setEnt L OwnEnt.free)) s)))

/-- The pieces of an image to be written, or the trap (R322). -/
def State.imagePieces (s : State) (c va : Nat) : Except Stop (List Piece) :=
  match s.globalPieces c va imageSize .scatter with
  | .error (.viol, x) => .error (accessViol 1 (wofNat x))
  | .error (.ask u, _) => .error (.ask u)
  | .error (_, x) => .error (pageFault 1 (wofNat x))
  | .ok ps => .ok ps

/-- An image written at checked pieces, so that any later access returns its bytes: no L1 keeps old ones (R322, R324). A shadow tile hashes it only (R358). -/
def State.writeImage (s : State) (t : Nat) (ps : List Piece) (b : List Byte) : State :=
  (ps.foldl (fun (r : State × List Byte) p =>
    let part := r.2.take p.n
    let s := r.1.addSig t (cellList p.va part)
    (match p.place with
     | .mem loc _ => if s.shadow t then s else (s.evictLoc loc p.n).locWrite loc part
     | _ => s, r.2.drop p.n)) (s, b)).1

/-- A block that has been spilled: its slot is free (R322). -/
def Tile.spilled (x : Tile) (L : Nat) (hold : Bool) (origin : Nat) : Tile :=
  x.setEnt L { x.ent L with st := .spilled, slot := 0, hold := hold, sgen := x.geom.gen, origin := origin }

/-- ACSPILL (R322): every page of every image is checked first. -/
def execAcspill (k : BitVec 4) (n l : BitVec 6) (s : State) : Host.Outcome State Fault Refusal :=
  finish s (arraySyl k l.toNat (fun s =>
    match (blockRun l n).findSome? s.freeCheck with
    | some e => .error e
    | none => do
      let run := (blockRun l n).filter (fun L => (s.tile.ent L).resident)
      let places ← run.mapM (fun L => s.imagePieces s.tile.ctx (s.homeAddr s.ct L (s.seenTile s.ct)))
      return (run.zip places).foldl (fun s p =>
        (s.writeImage s.ct p.2 (imageOf s.tile (s.seenTile s.ct) p.1)).modTile (·.spilled p.1 false (s.seenTile s.ct))) s))

/-- Valid images at A + 16,448 · b for the b-th of `n` blocks from `L`. -/
def State.fillImages (s : State) (A : Word) (L : Nat) : Nat → Nat → Except Stop (List (List Byte))
  | 0, _ => .ok []
  | n + 1, b => do
    let i ← s.readImage s.tile.ctx ((A + wofNat (imageSize * b)).toNat)
    if !imageValid i then .error (ownFault (L + b) 4 0)
    return i :: (← s.fillImages A L n (b + 1))

/-- ACFILL (R323): every image is read and checked before any block changes. -/
def execAcfill (k : BitVec 4) (w : BitVec 3) (n l : BitVec 6) (s : State) : Host.Outcome State Fault Refusal :=
  finish s (arraySyl k l.toNat (fun s =>
    let A := s.A w
    if A.toNat % 64 ≠ 0 then .error (misaligned 0 A)
    else
      let run := blockRun l n
      match s.resolveStop run true with
      | some e => .error e
      | none => do
        let imgs ← s.fillImages A l.toNat (n.toNat + 1) 0
        return (run.zip imgs).foldl (fun s p =>
          s.modTile (fun y =>
            let e := y.ent p.1
            let slot := if e.resident then e.slot else BitVec.ofNat 2 (y.freeSlot p.1)
            let e' : OwnEnt := { st := .pinned, pin := true, slot := slot, fmt := leAt p.2 5 1 % 2 == 1, hold := false, thread := if e.st = .free then BitVec.ofNat 2 s.ch else e.thread,
                                 ctx := BitVec.ofNat 6 y.ctx, tag := BitVec.ofNat 16 (leAt p.2 8 2), sgen := y.geom.gen,
                                 home := A + wofNat (imageSize * (p.1 - l.toNat)), origin := 0 }
            (y.setEnt p.1 e').setBlock p.1 (imageWords p.2))) s))

/-! ## Hardware spills (R326, R327) -/

/-- A hardware spill of block L of tile t: to its home under the owner's translation, or to the holding area when any page refuses it. -/
def State.hwSpill (s : State) (t L : Nat) : State :=
  let x := s.tileAt t
  let e := x.ent L
  let b := imageOf x (s.seenTile t) L
  match s.globalPieces e.ctx.toNat (s.homeAddr t L (s.seenTile t)) imageSize .scatter with
  | .ok ps => (s.writeImage t ps b).updTile t (·.spilled L false (s.seenTile t))
  | .error _ => (s.hbmWrite (holdAddr t L) b).updTile t (·.spilled L true t)

/-- The end of a thread frees the blocks it owns without PIN (R325). -/
def Tile.freeOwned (x : Tile) (h : Nat) : Tile :=
  { x with own := x.own.map (fun e => if e.st != .free && !e.pin && e.thread.toNat == h && e.ctx.toNat == x.ctx then OwnEnt.free else e) }

/-! ## Transfers (R206, R305) -/

/-- Bytes of an element under AVIEW.CVT, and its format. -/
def cvtOfCode : Nat → Option CFmt
  | 1 => some (.flt bf16) | 2 => some (.flt fp16) | 3 => some (.flt e4m3) | 4 => some (.flt e5m2) | _ => none
def cvtBytes (c : Nat) : Nat := match c with | 0 => 4 | 1 => 2 | 2 => 2 | _ => 1

/-- AVIEW's fields: the window offset of row 0 and the pitch in bytes, CVT, SAT. -/
def avBase (v : Word) : Nat := 64 * wbits v 6 11
def avPitch (v : Word) : Nat := 64 * wbits v 17 11
def avCvt (v : Word) : Nat := wbits v 28 4
def avSat (v : Word) : Bool := wbit v 32

/-- A row's 64 words as the bytes that ACRD writes, with its flags. -/
def avRow (v : Word) (row : List Nat) : List Byte × Flags :=
  let c := avCvt v
  row.foldr (fun x (r : List Byte × Flags) =>
    let y := match cvtOfCode c with | none => (x, (0 : Flags)) | some d => convert d (.flt fp32) (avSat v) .rn 0 x
    (leBytes (cvtBytes c) y.1 ++ r.1, r.2 ||| y.2)) ([], 0)

/-- Bytes written to a thread's window from an offset taken modulo the window (R154, R206). -/
def PMem.writeWin (m : PMem) (h off : Nat) (b : List Byte) : PMem :=
  let o := off % 0x20000
  let n := 0x20000 - o
  let m := m.write (h * 0x20000 + o) (b.take n)
  if b.length ≤ n then m else m.write (h * 0x20000) (b.drop n)

/-- Bytes of a thread's window. -/
def Memory.readWin (m : Memory) (h off n : Nat) : List Byte :=
  let o := off % 0x20000
  let k := min n (0x20000 - o)
  m.read (h * 0x20000 + o) k ++ (if n ≤ k then [] else m.read (h * 0x20000) (n - k))

def arrayRow (a : Array Nat) (i : Nat) : List Nat := (List.range 64).map (fun j => a.getD (64 * i + j) 0)

/-- The rows of a block written to register space from AVIEW row `row` (R206). -/
def drainBlock (v : Word) (h row : Nat) (a : Array Nat) (m : PMem) : PMem × Flags :=
  (List.range 64).foldl (fun (r : PMem × Flags) i =>
    let b := avRow v (arrayRow a i)
    (r.1.writeWin h (avBase v + avPitch v * (row + i)) b.1, r.2 ||| b.2)) (m, 0)

/-- ACZERO (R305). -/
def execAczero (k : BitVec 4) (n l : BitVec 6) (s : State) : Host.Outcome State Fault Refusal :=
  finish s (blockSyl k (blockRun l n) false (fun s => do
    let s ← s.resolveBlocks (blockRun l n) false false
    return (blockRun l n).foldl (fun s L => s.modTile (·.setBlock L (Array.replicate 4096 0))) s))

/-- ACRD (R305). -/
def execAcrd (k : BitVec 4) (n l : BitVec 6) (s : State) : Host.Outcome State Fault Refusal :=
  finish s (blockSyl k (blockRun l n) false (fun s => do
    let s ← s.resolveBlocks (blockRun l n) false false
    let v := s.thr.csr.aview
    return (blockRun l n).foldl (fun s L =>
      let r := drainBlock v s.ch (64 * (L - l.toNat)) (s.tile.block L) s.tile.regs
      (s.modTile (fun y => { y with regs := r.1 })).orFlags r.2) s))

/-- A block read from AVIEW rows, widened exactly, with the flags of its signalling NaNs. -/
def fillBlock (v : Word) (h row : Nat) (m : Memory) : Array Nat × Flags :=
  let c := avCvt v
  let n := cvtBytes c
  let r := (List.range 64).map (fun i =>
    let b := (m.readWin h (avBase v + avPitch v * (row + i)) (64 * n)).toArray
    (List.range 64).map (fun j =>
      let x := leNat ((List.range n).map (fun q => b.getD (j * n + q) 0))
      match cvtOfCode c with | none => (x, (0 : Flags)) | some f => convert (.flt fp32) f false .rn 0 x))
  ((r.flatten.map (·.1)).toArray, r.flatten.foldl (fun f e => f ||| e.2) 0)

/-- ACWR (R305, R315). A poisoned unit of register space is read without a trap: DEDUCED (log entry 18). -/
def execAcwr (k : BitVec 4) (n l : BitVec 6) (s : State) : Host.Outcome State Fault Refusal :=
  finish s (blockSyl k (blockRun l n) false (fun s => do
    let s ← s.resolveBlocks (blockRun l n) false false
    let v := s.thr.csr.aview
    return (blockRun l n).foldl (fun s L =>
      let r := fillBlock v s.ch (64 * (L - l.toNat)) s.tile.regs.mem
      (s.modTile (fun y => (if avCvt v = 0 then y else y.setEnt L { y.ent L with fmt := false }).setBlock L r.1)).orFlags r.2) s))

end Sys2Proof.Machine
end

