-- ==== Sys2Proof/Machine/Alu.lean ====
section
/-! DEFINITION. The register operations of the control subset: NOP, ALU, MULDIV, BITS, the immediates, LIH and LIX (R17, R61 to R65). The C slot and the three
engine slots execute all of them (R26). -/

namespace Sys2Proof.Machine

/-- NOP (R17). -/
def execNop (s : State) : Host.Outcome State Fault Refusal := finish s .ok

/-- ADD (R61). -/
def execAdd (d a b : BitVec 5) (s : State) : Host.Outcome State Fault Refusal := finish s (regReg d a b (· + ·))

/-- SUB (R61). -/
def execSub (d a b : BitVec 5) (s : State) : Host.Outcome State Fault Refusal := finish s (regReg d a b (· - ·))

/-- AND (R61). -/
def execAndReg (d a b : BitVec 5) (s : State) : Host.Outcome State Fault Refusal := finish s (regReg d a b (· &&& ·))

/-- OR (R61). -/
def execOrReg (d a b : BitVec 5) (s : State) : Host.Outcome State Fault Refusal := finish s (regReg d a b (· ||| ·))

/-- XOR (R61). -/
def execXorReg (d a b : BitVec 5) (s : State) : Host.Outcome State Fault Refusal := finish s (regReg d a b (· ^^^ ·))

/-- SHL (R61). -/
def execShl (d a b : BitVec 5) (s : State) : Host.Outcome State Fault Refusal := finish s (regReg d a b (fun x y => x <<< shiftAmount y))

/-- SHR (R61). -/
def execShr (d a b : BitVec 5) (s : State) : Host.Outcome State Fault Refusal := finish s (regReg d a b (fun x y => x >>> shiftAmount y))

/-- SAR (R61). -/
def execSar (d a b : BitVec 5) (s : State) : Host.Outcome State Fault Refusal := finish s (regReg d a b (fun x y => x.sshiftRight (shiftAmount y)))

/-- SLT (R61). -/
def execSlt (d a b : BitVec 5) (s : State) : Host.Outcome State Fault Refusal := finish s (regReg d a b aluSlt)

/-- SLTN (R61). -/
def execSltn (d a b : BitVec 5) (s : State) : Host.Outcome State Fault Refusal := finish s (regReg d a b aluSltn)

/-- MIN (R61). -/
def execMinReg (d a b : BitVec 5) (s : State) : Host.Outcome State Fault Refusal := finish s (regReg d a b aluMin)

/-- MAX (R61). -/
def execMaxReg (d a b : BitVec 5) (s : State) : Host.Outcome State Fault Refusal := finish s (regReg d a b aluMax)

/-- MINN (R61). -/
def execMinn (d a b : BitVec 5) (s : State) : Host.Outcome State Fault Refusal := finish s (regReg d a b aluMinn)

/-- MAXN (R61). -/
def execMaxn (d a b : BitVec 5) (s : State) : Host.Outcome State Fault Refusal := finish s (regReg d a b aluMaxn)

/-- ANDN (R61). -/
def execAndn (d a b : BitVec 5) (s : State) : Host.Outcome State Fault Refusal := finish s (regReg d a b (fun x y => x &&& ~~~y))

/-- MUL (R62). -/
def execMul (d a b : BitVec 5) (s : State) : Host.Outcome State Fault Refusal := finish s (regReg d a b (· * ·))

/-- MULH (R62). -/
def execMulh (d a b : BitVec 5) (s : State) : Host.Outcome State Fault Refusal := finish s (regReg d a b mulHigh)

/-- MULHN (R62). -/
def execMulhn (d a b : BitVec 5) (s : State) : Host.Outcome State Fault Refusal := finish s (regReg d a b mulHighN)

/-- DIV (R62). -/
def execDiv (d a b : BitVec 5) (s : State) : Host.Outcome State Fault Refusal := finish s (regReg d a b divS)

/-- DIVN (R62). -/
def execDivn (d a b : BitVec 5) (s : State) : Host.Outcome State Fault Refusal := finish s (regReg d a b divN)

/-- REM (R62). -/
def execRem (d a b : BitVec 5) (s : State) : Host.Outcome State Fault Refusal := finish s (regReg d a b remS)

/-- REMN (R62). -/
def execRemn (d a b : BitVec 5) (s : State) : Host.Outcome State Fault Refusal := finish s (regReg d a b remN)

/-- CLZ (R63). -/
def execClz (d a : BitVec 5) (s : State) : Host.Outcome State Fault Refusal := finish s (regOne d a (fun x => wofNat (clzNat 64 x.toNat)))

/-- CTZ (R63). -/
def execCtz (d a : BitVec 5) (s : State) : Host.Outcome State Fault Refusal := finish s (regOne d a (fun x => wofNat (ctzNat 64 x.toNat)))

/-- POPC (R63). -/
def execPopc (d a : BitVec 5) (s : State) : Host.Outcome State Fault Refusal := finish s (regOne d a (fun x => wofNat (popNat 64 x.toNat)))

/-- BREV (R63). -/
def execBrev (d a : BitVec 5) (s : State) : Host.Outcome State Fault Refusal := finish s (regOne d a (fun x => wofNat (revNat 64 x.toNat)))

/-- BEXT: `l` is len − 1 (R63). -/
def execBext (d a : BitVec 5) (p : BitVec 6) (l : BitVec 4) (s : State) : Host.Outcome State Fault Refusal :=
  finish s (regOne d a (fun x => wofNat (wbits x p.toNat (l.toNat + 1))))

/-- ADDI (R64). -/
def execAddi (d a : BitVec 5) (i : BitVec 15) (s : State) : Host.Outcome State Fault Refusal := finish s (regOne d a (fun x => x + sx i))

/-- ANDI (R64). -/
def execAndi (d a : BitVec 5) (i : BitVec 15) (s : State) : Host.Outcome State Fault Refusal := finish s (regOne d a (fun x => x &&& sx i))

/-- ORI (R64). -/
def execOri (d a : BitVec 5) (i : BitVec 15) (s : State) : Host.Outcome State Fault Refusal := finish s (regOne d a (fun x => x ||| zx i))

/-- XORI (R64). -/
def execXori (d a : BitVec 5) (i : BitVec 15) (s : State) : Host.Outcome State Fault Refusal := finish s (regOne d a (fun x => x ^^^ zx i))

/-- SHLI (R64). -/
def execShli (d a : BitVec 5) (n : BitVec 6) (s : State) : Host.Outcome State Fault Refusal := finish s (regOne d a (fun x => x <<< n.toNat))

/-- SHRI (R64). -/
def execShri (d a : BitVec 5) (n : BitVec 6) (s : State) : Host.Outcome State Fault Refusal := finish s (regOne d a (fun x => x >>> n.toNat))

/-- SARI (R64). -/
def execSari (d a : BitVec 5) (n : BitVec 6) (s : State) : Host.Outcome State Fault Refusal := finish s (regOne d a (fun x => x.sshiftRight n.toNat))

/-- SLTI (R64). -/
def execSlti (d a : BitVec 5) (i : BitVec 15) (s : State) : Host.Outcome State Fault Refusal := finish s (regOne d a (fun x => aluSlt x (sx i)))

/-- SLTIN (R64). -/
def execSltin (d a : BitVec 5) (i : BitVec 15) (s : State) : Host.Outcome State Fault Refusal := finish s (regOne d a (fun x => aluSltn x (sx i)))

/-- LIH (R65). -/
def execLih (d : BitVec 5) (i : BitVec 20) (s : State) : Host.Outcome State Fault Refusal := finish s (fun s => .ok (s.W d (sx i <<< 15)))

/-- LIX reads its own destination (R65). -/
def execLix (d : BitVec 5) (i : BitVec 20) (s : State) : Host.Outcome State Fault Refusal :=
  finish s (regOne d d (fun x => (x <<< 20) + zx i))

end Sys2Proof.Machine
end

