-- ==== Sys2Proof/Machine/VecRed.lean ====
section
/-! DEFINITION. Reductions and scans (R148, R149, R173, R174). -/

namespace Sys2Proof.Machine

/-- A reducing operation of elements: the leaf an element becomes, the combination of two nodes, the empty value, and the last step that makes a NaN root
canonical (R141). -/
structure RedOp where
  width : Nat
  leaf  : Nat → Nat
  join  : Nat → Nat → Nat × Flags
  empty : Nat
  root  : Nat → Nat
  sig   : Nat → Bool

/-- The integer reductions (R148, R173): codes 0 to 7. -/
def intRed (b : Nat) (op : Nat) : Option RedOp :=
  let mk := fun (f : Nat → Nat → Nat) (e : Nat) => some (RedOp.mk b id (fun x y => (f x y, 0)) e id (fun _ => false))
  let pick := fun (signed lo : Bool) (x y : Nat) =>
    let u : Int := if signed then sextInt x b else x
    let v : Int := if signed then sextInt y b else y
    if (decide (u ≤ v)) == lo then x else y
  match op with
  | 0 => mk (fun x y => (x + y) % 2 ^ b) 0
  | 1 => mk (pick true true) (2 ^ (b - 1) - 1)
  | 2 => mk (pick true false) (2 ^ (b - 1))
  | 3 => mk (pick false true) (2 ^ b - 1)
  | 4 => mk (pick false false) 0
  | 5 => mk (· &&& ·) (2 ^ b - 1)
  | 6 => mk (· ||| ·) 0
  | 7 => mk (· ^^^ ·) 0
  | _ => none

/-- The floating-point reductions: SUM with RN at every node, MIN, MAX and AMAX under the NaN rule. -/
def fltRed (f : Fmt) (op : Nat) (ignore : Bool) : Option RedOp :=
  let canon := fun x => if (f.decode x).isNan then f.nanBits else x
  let sig := fun x => (f.decode x).isSig
  let sel := fun (p : FVal → FVal → FVal) (x y : Nat) => f.pick p ignore (f.decode x) (f.decode y)
  match op with
  | 0 => some ⟨f.width, id, addRN f, 0, canon, sig⟩
  | 1 => some ⟨f.width, id, sel FVal.least, f.infBits, canon, sig⟩
  | 2 => some ⟨f.width, id, sel FVal.greatest, f.withSign true f.infBits, canon, sig⟩
  | 8 => some ⟨f.width, (· % f.signBit), sel FVal.greatest, 0, canon, sig⟩
  | _ => none

/-- The operation of a type and an op code; none where the type's class does not take it (R173). -/
def redOf (y : BitVec 3) (op : BitVec 4) (ignore : Bool) : Option RedOp :=
  match fltOf y with
  | some f => fltRed f op.toNat ignore
  | none => match intBits y with
    | some b => intRed b op.toNat
    | none => none

/-- One level of the pairwise tree (R148). -/
def pairLevel (j : Nat → Nat → Nat × Flags) : List (Option Nat) → List (Option Nat) × Flags
  | [] => ([], 0)
  | [a] => ([a], 0)
  | a :: b :: r =>
    let t := pairLevel j r
    match a, b with
    | some x, some y => (some (j x y).1 :: t.1, (j x y).2 ||| t.2)
    | some x, none => (some x :: t.1, t.2)
    | none, some y => (some y :: t.1, t.2)
    | none, none => (none :: t.1, t.2)

/-- The tree's root after at most `n` levels. -/
def treeRoot (j : Nat → Nat → Nat × Flags) : Nat → List (Option Nat) → Option Nat × Flags
  | 0, l => (l.headD none, 0)
  | n + 1, l =>
    match l with
    | [] => (none, 0)
    | [a] => (a, 0)
    | _ =>
      let t := pairLevel j l
      let u := treeRoot j n t.1
      (u.1, t.2 ||| u.2)

/-- The reduction of positions, absent ones being none: value and flags. A signalling NaN among the present ones sets INV (R141). -/
def RedOp.tree (o : RedOp) (l : List (Option Nat)) : Nat × Flags :=
  let t := treeRoot o.join 16 (l.map (·.map o.leaf))
  (match t.1 with | some v => o.root v | none => o.empty, t.2 ||| flagIf (l.any (fun x => match x with | some v => o.sig v | none => false)) fINV)

/-- The elements of a vector as tree positions under a selector. -/
def positions (v w : Nat) (pr : PredVal) : List (Option Nat) :=
  (List.range (4096 / w)).map (fun i => if elemActive pr w i then some (vget v w i) else none)

/-- VRED (R174). -/
def execVred (k : BitVec 4) (y : BitVec 3) (d a o p : BitVec 4) (n : BitVec 1) (s : State) : Host.Outcome State Fault Refusal :=
  finish s (fun s => match redOf y o (n = 1) with
    | none => wrongType k [a] (some d) 1 s
    | some op =>
      withVec k [a] (some d) 1 (fun s vs =>
        let r := op.tree (positions (vopd vs 0) op.width (s.pred p))
        (((s.warnIf (y = 7) 3).wholeVec d op.width [r.1])).orFlags r.2) s)

/-- The groups of `g` positions. -/
def groupsOf (g : Nat) : Nat → List (Option Nat) → List (List (Option Nat))
  | 0, _ => []
  | n + 1, l => l.take g :: groupsOf g n (l.drop g)

/-- VGRED (R174): broadcast, or packed. -/
def execVgred (k : BitVec 4) (y : BitVec 3) (d a o g : BitVec 4) (c n : BitVec 1) (s : State) : Host.Outcome State Fault Refusal :=
  finish s (fun s => match redOf y o (n = 1) with
    | none => wrongType k [a] (some d) 1 s
    | some op =>
      withVec k [a] (some d) 1 (fun s vs =>
        let cnt := 4096 / op.width
        let G := min (2 ^ g.toNat) cnt
        let rs := (groupsOf G (cnt / G) (positions (vopd vs 0) op.width (BitVec.allOnes 512))).map op.tree
        let out := if c = 1 then rs.map (·.1) else (rs.map (fun r => List.replicate G r.1)).flatten
        ((s.warnIf (y = 7) 3).wholeVec d op.width out).orFlags (rs.foldl (fun f r => f ||| r.2) 0)) s)

/-- The running values of a scan from `acc` (R149): inclusive, or the value before each element. An exclusive scan takes its last step too, whose value no element receives, and raises its flags: DESIGN CHOICE
(DESIGN CHOICE, log entry 151). -/
def scanOut (o : RedOp) (excl : Bool) : Nat → List (Option Nat) → List Nat × Flags
  | _, [] => ([], 0)
  | acc, x :: r =>
    let t : Nat × Flags := match x with
      | some v => let j := o.join acc (o.leaf v); (j.1, j.2 ||| flagIf (o.sig v) fINV)
      | none => (acc, 0)
    let u := scanOut o excl t.1 r
    ((if excl then acc else t.1) :: u.1, t.2 ||| u.2)

/-- VSCAN (R174). -/
def execVscan (k : BitVec 4) (y : BitVec 3) (d a o p : BitVec 4) (e n : BitVec 1) (s : State) : Host.Outcome State Fault Refusal :=
  finish s (fun s => match redOf y o (n = 1) with
    | none => wrongType k [a] (some d) 1 s
    | some op =>
      withVec k [a] (some d) 1 (fun s vs =>
        let r := scanOut op (e = 1) op.empty (positions (vopd vs 0) op.width (s.pred p))
        ((s.warnIf (y = 7) 3).wholeVec d op.width r.1).orFlags r.2) s)

end Sys2Proof.Machine
end

