-- ==== Sys2Proof/Machine/Matrix.lean ====
section
/-! DEFINITION. The matrix array (R287 to R304): formats, the checks at latch, nests, MOUTER and MVEC. -/

namespace Sys2Proof.Machine

/-! ## Formats (R292) -/

/-- The kind of a format code of R205. -/
inductive MKind where
  | int8 | fma | pair | mx
  deriving DecidableEq, Repr

/-- The element format of a code (R205); INT8 has none. -/
def elemFmt : Nat → Fmt
  | 1 => e4m3 | 2 => e5m2 | 3 => e2m1 | 4 => bf16 | 5 => fp16 | 6 => e4m3 | 7 => e5m2 | _ => e2m1

/-- The group of codes that pair with each other. -/
def fmtGroup (c : Nat) : Nat :=
  match c with
  | 1 => 1 | 2 => 1 | 6 => 6 | 7 => 6 | n => n

def fmtPair (a b : Nat) : Bool := a ≤ 8 && b ≤ 8 && fmtGroup a == fmtGroup b

def fmtKind (c : Nat) : MKind := if c = 0 then .int8 else if c = 3 then .pair else if 6 ≤ c then .mx else .fma

/-- Half-cycles per k (2ρ), which are also half-bytes per k in a slice (2 wb) and quarters of the element's bits. -/
def halfRate (c : Nat) : Nat := match c with | 3 => 1 | 8 => 1 | 4 => 4 | 5 => 4 | _ => 2

/-! ## The nest table (R293, R296) -/

/-- A level of a nest: its count, its steps, and its exit action. -/
structure Level where
  count : Nat
  arow  : Int
  ak    : Int
  bo    : Int
  bank  : Int
  rg    : Int
  cg    : Int
  exit  : Nat
  deriving DecidableEq, Repr

def Level.of (a b : Word) : Level :=
  { count := wbits a 0 16 + 1, arow := sextInt (wbits a 16 12) 12, ak := sextInt (wbits a 28 12) 12, bo := sextInt (wbits a 40 14) 14,
    bank := sextInt (wbits b 0 3) 3, rg := sextInt (wbits b 3 3) 3, cg := sextInt (wbits b 6 3) 3, exit := wbits b 9 2 }

/-- The levels of a capture, outermost first. -/
def NestTab.levels (t : NestTab) : List Level := (List.finRange 6).reverse.map (fun i => Level.of t.la[i] t.lb[i])

/-- The offsets of a pass. -/
structure Offs where
  ar   : Int
  ak   : Int
  bo   : Int
  bank : Int
  rg   : Int
  cg   : Int
  deriving DecidableEq, Repr

def Offs.step (o : Offs) (l : Level) (n : Nat) : Offs :=
  ⟨o.ar + n * l.arow, o.ak + n * l.ak, o.bo + n * l.bo, o.bank + n * l.bank, o.rg + n * l.rg, o.cg + n * l.cg⟩

def Offs.block (o : Offs) : Nat := (16 * o.bank + 4 * o.rg + o.cg).toNat

/-- The smallest and the largest value of one offset (R297). DEDUCED (log entry 45), unsafe. -/
def extremes (ls : List Level) (base : Int) (f : Level → Int) : Int × Int :=
  ls.foldl (fun e l => let s := f l * ((l.count : Int) - 1); (e.1 + min 0 s, e.2 + max 0 s)) (base, base)

/-- A nest: its tables, its views, and one run of the loop for MGO, one for each group with rows for MGOG. -/
structure NestRun where
  base   : Offs
  levels : List Level
  lo     : Int
  hi     : Int
  deriving DecidableEq, Repr

/-- The fields of NCTL. -/
def NestTab.klen (t : NestTab) : Nat := wbits t.nctl 0 12 + 1
def NestTab.bfmt (t : NestTab) : Nat := wbits t.nctl 12 4
def NestTab.rb (t : NestTab) : Nat := wbits t.nctl 16 2 + 1
def NestTab.cb (t : NestTab) : Nat := wbits t.nctl 18 2 + 1
def NestTab.bsc (t : NestTab) : Nat := wbits t.nctl 20 14

/-- The fields of a TVIEW (R205). -/
def tvRows (v : Word) : Nat := wbits v 17 8 + 1
def tvFmt (v : Word) : Nat := wbits v 36 4

/-- The groups of an MGOG: index, first A row, rows (R300). -/
def groupRows (t : NestTab) : Nat → Nat → Nat → List (Nat × Nat × Nat)
  | 0, _, _ => []
  | n + 1, g, a =>
    let r := wbits t.gtab[Fin.ofNat 64 g] 0 16
    (if r = 0 then [] else [(g, a, r)]) ++ groupRows t n (g + 1) (a + r)

/-- The runs of a latched nest. -/
def nestRuns (t : NestTab) (x view : Word) (group : Option Nat) : List NestRun :=
  let offs := fun (ar bo L : Nat) => (⟨ar, wbits x 16 16, bo, L / 16, L / 4 % 4, L % 4⟩ : Offs)
  match group with
  | none => [⟨offs (wbits x 0 16) (wbits x 32 14) (wbits x 46 6), t.levels, 0, tvRows view⟩]
  | some g =>
    (groupRows t (g + 1) 0 0).map (fun p =>
      let w := t.gtab[Fin.ofNat 64 p.1]
      let cnt := (p.2.2 + 64 * t.rb - 1) / (64 * t.rb)
      let ls := match t.levels with | l5 :: r => { l5 with count := cnt } :: r | [] => []
      ⟨offs p.2.1 (wbits w 16 14) (wbits w 30 6), ls, p.2.1, min (p.2.1 + p.2.2 : Nat) (tvRows view : Nat)⟩)

/-- The base blocks that the passes of a run reach: levels that do not move the block add nothing. -/
def reachBlocks (ls : List Level) (o : Offs) : List Offs :=
  ls.foldl (fun acc l =>
    if l.bank = 0 && l.rg = 0 && l.cg = 0 then acc
    else (acc.map (fun p => (List.range (min l.count 4)).map (fun n => { p with bank := p.bank + n * l.bank, rg := p.rg + n * l.rg, cg := p.cg + n * l.cg }))).flatten.eraseDups)
    [o]

/-- The logical blocks of a rectangle. -/
def rectBlocks (t : NestTab) (L : Nat) : List Nat := ((List.range t.rb).map (fun u => (List.range t.cb).map (fun v => L + 4 * u + v))).flatten

/-- Every block a run names, rising. -/
def NestRun.names (r : NestRun) (t : NestTab) : List Nat :=
  ((reachBlocks r.levels r.base).map (fun o => rectBlocks t o.block)).flatten.foldr insNat []

/-! ## The checks at latch (R297) -/

/-- Every value that an offset takes is a multiple of `m`: its base, and the step of each level that has more than one iteration (R292). -/
def everyMultiple (ls : List Level) (base : Int) (f : Level → Int) (m : Int) : Bool := base % m == 0 && ls.all (fun l => l.count ≤ 1 || f l % m == 0)

/-- The k constraint, which binds every AK and every kb (R292), and the access checks of one run (R297); `h` is twice ρ. -/
def NestRun.check (r : NestRun) (t : NestTab) (group : Bool) : Except Stop Unit :=
  let c := t.bfmt
  let h := halfRate c
  let k := t.klen
  let ak := extremes r.levels r.base.ak Level.ak
  let bo := extremes r.levels r.base.bo Level.bo
  let kb := fun (b : Int) => b * 2 / h
  let m : Int := match fmtKind c with | .mx => 32 | .pair => 2 | _ => 1
  let bytes := k * h / 2
  let bank := extremes r.levels r.base.bank Level.bank
  let rg := extremes r.levels r.base.rg Level.rg
  let cg := extremes r.levels r.base.cg Level.cg
  if !((k : Int) % m == 0 && everyMultiple r.levels r.base.ak Level.ak m && (m == 1 || everyMultiple r.levels r.base.bo Level.bo (m * h / 2))) then
    .error (misaligned 0 0)
  else if ak.1 < 0 || bo.1 < 0 || 16384 < bo.2 + bytes || (fmtKind c = .mx && 16384 < t.bsc + (kb bo.2 + k) / 32) then .error (accessViol 0 0)
  else if group && (match r.levels with | l5 :: _ => l5.arow != 64 * t.rb | [] => false) then .error (accessViol 0 0)
  else if bank.1 < 0 || 3 < bank.2 || rg.1 < 0 || 4 - t.rb < rg.2 || cg.1 < 0 || 4 - t.cb < cg.2 then .error (accessViol 0 0)
  else .ok ()

/-- The capture of a syllable (R294): the one it was appended with, else the tables as they stand. -/
def State.capture (s : State) : NestTab :=
  match (s.thr.eW.head).bind (·.cap) with
  | some c => c
  | none => s.thr.ntab

/-- Whether the acting W syllable is covered by a segment (R410). -/
def State.headSeg (s : State) : Nat :=
  match s.thr.eW.head with
  | some q => q.seg
  | none => if s.thr.seg.isOpen then s.thr.seg.id else 0

/-- MGO and MGOG (R296 to R300): the pops and the room are taken, the checks made, the blocks resolved, and the nest latched; NEST_COMPLETE pushes the tokens.
DESIGN CHOICE (log entry 175), unsafe. -/
def mgo (k x : BitVec 4) (w : BitVec 3) (group : Option Nat) (z : BitVec 1) (s : State) : Res :=
  if !tokReady s.thr.qs.tok .w k || !s.arrayFree || s.tile.remapWaits then .error .hold
  else
    let before := s
    let s := s.popTokens k
    let tab := s.capture
    let view := s.thr.csr.tview[x.toFin]
    if s.noArray then .error (ownFault ((nestRuns tab (s.A w) view group).head?.elim 0 (fun r => r.base.block)) 3 0)
    else if !fmtPair (tvFmt view) tab.bfmt then .ok ((s.setWarn 3).pushTokens k)
    else do
      let runs := nestRuns tab (s.A w) view group
      match runs.findSome? (fun r => match r.check tab group.isSome with | .error e => some e | .ok _ => none) with
      | some e => .error e
      | none =>
        let names := (runs.map (fun r => r.names tab)).flatten.foldr insNat []
        match ← before.refillStep names false with
        | some s' => return s'.refilled
        | none =>
        let s' ← s.resolveBlocks names (tvFmt view = 0) false
        let n : Nest := { tab := tab, view := view, aview := s.thr.csr.aview, x := s.A w, zinit := z = 1, group := group,
                          toks := (k.setWidth 2), seg := s.headSeg, fault := false }
        return s'.modThr (fun t => { t with nest := some n })

/-- MGO (R296). -/
def execMgo (k x : BitVec 4) (w : BitVec 3) (z : BitVec 1) (s : State) : Host.Outcome State Fault Refusal := finish s (mgo k x w none z)

/-- MGOG over GM1 + 1 groups (R300). -/
def execMgog (k x : BitVec 4) (w : BitVec 3) (g : BitVec 6) (z : BitVec 1) (s : State) : Host.Outcome State Fault Refusal :=
  finish s (mgo k x w (some g.toNat) z)

/-! ## One pass (R150, R296) -/

/-- What a nest has done so far: the words of every block, register space, flags, the drain index, and the blocks it has written. -/
structure NestAcc where
  blocks : Array (Array Nat)
  regs   : PMem
  flags  : Flags
  d      : Nat
  wrote  : List Nat

/-- Values of `n` elements of `bits` bits from bit `pos` of some bytes. -/
def elemsAt (b : Array Byte) (pos bits n : Nat) : Array Nat :=
  (Array.range n).map (fun i =>
    let p := pos + i * bits
    if bits = 4 then (b.getD (p / 8) 0).toNat / 2 ^ (p % 8) % 16
    else leNat ((List.range (bits / 8)).map (fun j => b.getD (p / 8 + j) 0)))

/-- The exact sum of products of `n` elements from `i` on (R150). -/
def dotVals (fa fb : Fmt) (a b : Array Nat) (i n : Nat) : FVal × Bool :=
  match (List.range n).map (fun j => (fa.decode (a.getD (i + j) 0)).mul (fb.decode (b.getD (i + j) 0))) with
  | [] => (.fin false 0 0, false)
  | p :: r => r.foldl (fun acc q => let t := acc.1.add false q.1; (t.1, acc.2 || q.2 || t.2)) p

/-- 2^(Ea + Eb − 254) times a value. -/
def scaleVal (v : FVal) (e : Int) : FVal :=
  match v with
  | .fin n m x => .fin n m (x + e)
  | v => v

/-- One cell of one pass: the steps of R150 over KLEN elements. `sa`, `sb` are the scales of the blocks. -/
def cellStep (kind : MKind) (fa fb : Fmt) (klen : Nat) (a b sa sb : Array Nat) (c : Nat) : Nat × Flags :=
  match kind with
  | .int8 => ((List.range klen).foldl (fun c k => truncInt ((c : Int) + sextInt (a.getD k 0) 8 * sextInt (b.getD k 0) 8) 32) c, 0)
  | .fma =>
    (List.range klen).foldl (fun (r : Nat × Flags) k =>
      let y := fp32.result .rn 0 (exFma false (fa.decode (a.getD k 0)) (fb.decode (b.getD k 0)) (fp32.decode r.1))
      (y.1, r.2 ||| y.2)) (c, 0)
  | .pair =>
    (List.range (klen / 2)).foldl (fun (r : Nat × Flags) q =>
      let p := dotVals fa fb a b (2 * q) 2
      let y := fp32.result .rn 0 (exAdd false (fp32.decode r.1) p.1)
      (y.1, r.2 ||| y.2)) (c, 0)
  | .mx =>
    (List.range (klen / 32)).foldl (fun (r : Nat × Flags) q =>
      let ea := sa.getD q 0
      let eb := sb.getD q 0
      let p := dotVals fa fb a b (32 * q) 32
      if p.1.isNan || ea = 255 || eb = 255 then (fp32.nanBits, r.2 ||| fINV)
      else
        let y := fp32.result .rn 0 (exAdd false (fp32.decode r.1) (scaleVal p.1 ((ea : Int) + eb - 254)))
        (y.1, r.2 ||| y.2)) (c, 0)

/-- The operands of one A row, of one B column: elements and scales. DEDUCED (log entry 18), unsafe. -/
def aRow (m : Memory) (h : Nat) (view : Word) (r ak klen : Nat) : Array Nat × Array Nat :=
  let bits := 4 * halfRate (tvFmt view)
  let first := ak * bits / 8
  let b := (m.readWin h (64 * wbits view 6 11 + 64 * wbits view 25 11 * r + first) (((ak + klen) * bits + 7) / 8 - first)).toArray
  (elemsAt b (ak * bits - 8 * first) bits klen,
   if 6 ≤ tvFmt view then elemsAt ((m.readWin h (64 * wbits view 40 11 + 8 * wbits view 51 8 * r + ak / 32) (klen / 32)).toArray) 0 8 (klen / 32) else #[])

def bCol (bst : Memory) (pcol bsc fmt bo klen : Nat) : Array Nat × Array Nat :=
  let h := halfRate fmt
  (elemsAt (bst.read (pcol * 16384 + bo) (klen * h / 2)).toArray 0 (4 * h) klen,
   if 6 ≤ fmt then elemsAt (bst.read (pcol * 16384 + bsc + bo * 2 / h / 32) (klen / 32)).toArray 0 8 (klen / 32) else #[])

/-- What a pass reads that does not change: the tile's columns and slices, the thread. -/
structure NestEnv where
  tab   : NestTab
  view  : Word
  aview : Word
  h     : Nat
  cols  : List Nat
  bst   : Memory

/-- One pass: every cell of the rectangle whose A row exists takes its steps. -/
def nestPass (e : NestEnv) (lo hi : Int) (o : Offs) (x : NestAcc) : NestAcc :=
  let t := e.tab
  let fa := tvFmt e.view
  let columns := (Array.range (64 * t.cb)).map (fun j =>
    bCol e.bst ((e.cols[(64 * o.cg).toNat + j]?).getD 0) t.bsc t.bfmt o.bo.toNat t.klen)
  (List.range (64 * t.rb)).foldl (fun (x : NestAcc) (ui : Nat) =>
    let r := o.ar + ui
    if r < lo || hi ≤ r then x
    else
      let a := aRow x.regs.mem e.h e.view r.toNat o.ak.toNat t.klen
      (List.range (64 * t.cb)).foldl (fun (x : NestAcc) (vj : Nat) =>
        let L := o.block + 4 * (ui / 64) + vj / 64
        let i := 64 * (ui % 64) + vj % 64
        let b := columns.getD vj (#[], #[])
        let old := (x.blocks.getD L #[]).getD i 0
        let y := cellStep (fmtKind fa) (elemFmt fa) (elemFmt t.bfmt) t.klen a.1 b.1 a.2 b.2 old
        { x with blocks := x.blocks.modify L (fun bl => bl.setIfInBounds i y.1), flags := x.flags ||| y.2 })
        { x with wrote := (List.range t.cb).foldr (fun v l => insNat (o.block + 4 * (ui / 64) + v) l) x.wrote }) x

/-- ZeroRect (R296). -/
def zeroRect (t : NestTab) (L : Nat) (x : NestAcc) : NestAcc :=
  { x with blocks := (rectBlocks t L).foldl (fun b n => b.setIfInBounds n (Array.replicate 4096 0)) x.blocks, wrote := (rectBlocks t L).foldr insNat x.wrote }

/-- Drain (R296): the rectangle's blocks in ascending (u, v). -/
def drainRect (e : NestEnv) (L : Nat) (x : NestAcc) : NestAcc :=
  let l := rectBlocks e.tab L
  let x := l.zipIdx.foldl (fun (x : NestAcc) p =>
    let r := drainBlock e.aview e.h (64 * (x.d * l.length + p.2)) (x.blocks.getD p.1 #[]) x.regs
    { x with regs := r.1, flags := x.flags ||| r.2 }) x
  { x with d := x.d + 1 }

/-- The loops, outermost first; the answer also gives the offsets of the last pass, at which the exit actions act. -/
def nestLoop (e : NestEnv) (lo hi : Int) : List Level → Offs → NestAcc → NestAcc × Offs
  | [], o, x => (nestPass e lo hi o x, o)
  | l :: rest, o, x =>
    let r := (List.range l.count).foldl (fun (r : NestAcc × Offs) n => nestLoop e lo hi rest (o.step l n) r.1) (x, o)
    let y := if 2 ≤ l.exit then drainRect e r.2.block r.1 else r.1
    (if l.exit % 2 = 1 then zeroRect e.tab r.2.block y else y, r.2)

/-- The active cycles of a run (R301). -/
def NestRun.cycles (r : NestRun) (t : NestTab) : Nat := (r.levels.foldl (fun n l => n * l.count) 1) * t.klen * halfRate t.bfmt / 2

def Nest.runs (n : Nest) : List NestRun := nestRuns n.tab n.x n.view n.group

/-- The blocks a nest names. -/
def Nest.names (n : Nest) : List Nat := (n.runs.map (fun r => r.names n.tab)).flatten.foldr insNat []

/-- Active cycles count toward the thread's open segment (R301, R409). -/
def State.countActive (s : State) (t h n seg : Nat) : State :=
  if seg ≠ 0 then s.updThread t h (fun x => if x.seg.covers seg then { x with seg := { x.seg with count := x.seg.count + BitVec.ofNat 40 n } } else x) else s

/-- A latched nest runs: its blocks, its drained rows, its flags, its pushes (R147, R296, R298). DESIGN CHOICE (log entry 16), unsafe. -/
def State.runNest (s : State) (t h : Nat) (n : Nest) : State :=
  let x := s.tileAt t
  let e : NestEnv := ⟨n.tab, n.view, n.aview, h, x.geom.cols, x.bst.mem⟩
  let names := n.names
  let start : NestAcc := ⟨(Array.range 64).map (fun L => if names.contains L then x.block L else #[]), x.regs, 0, 0, []⟩
  let r := n.runs.foldl (fun y r =>
    (nestLoop e r.lo r.hi r.levels r.base (if n.zinit then zeroRect n.tab r.base.block y else y)).1) start
  let int := tvFmt n.view == 0
  let s := s.updTile t (fun x =>
    (names.filter r.wrote.contains).foldl (fun x L => (x.setEnt L { x.ent L with fmt := int }).setBlock L (r.blocks.getD L #[])) { x with regs := r.regs })
  let s := s.orFlagsAt t h r.flags
  let s := s.countActive t h ((n.runs.map (fun r => r.cycles n.tab)).foldl (· + ·) 0) n.seg
  s.updThread t h (fun y =>
    let c := tokPush (tokPush y.qs.tok n.toks[1] 3) n.toks[0] 1
    { y with nest := none, qs := { y.qs with tok := c },
             csr := if (n.toks[1] && !tokEn y.qs.tok 3) || (n.toks[0] && !tokEn y.qs.tok 1) then { y.csr with warn := wset y.csr.warn 5 } else y.csr })

/-- A nest restarted after a forced pre-emption first has its spilled blocks refilled, one in each turn; what stops that is raised in the W stream and leaves it latched (R302, R314). -/
def State.restartNest (s : State) (n : Nest) : State :=
  let cur := s.run.cur
  let w := { s with run := { s.run with cur := { cur with turn := .stream .w } } }
  let r := match w.refillStep n.names false with
    | .ok (some s) => s
    | .ok none => match w.resolveBlocks n.names (tvFmt n.view == 0) false with
      | .ok s => s.runNest s.ct s.ch n
      | .error _ => w
    | .error (.trap t) => (if t.cause = 5 then w.forgetAsks else w).deliver t
    | .error (.ask u) => w.ask u
    | .error _ => w
  { r with run := { r.run with cur := cur } }

/-- NEST_COMPLETE (R298): the acting thread's nest. -/
def execNestComplete (s : State) : Host.Outcome State Fault Refusal :=
  match s.thr.nest with
  | some n => if n.names.all (fun L => (s.tile.ent L).resident) then .next (s.runNest s.ct s.ch n) else .next (s.restartNest n)
  | none => .next s

/-! ## MOUTER and MVEC (R303, R304) -/

/-- A vector syllable that names a block: tokens, the array, the entries and the room, and the block resolved. -/
def blockVec (k : BitVec 4) (L : Nat) (srcs : List (BitVec 4)) (d : Option (BitVec 4)) (body : State → List VecVal → State) (s : State) : Res :=
  if !s.vecReady srcs d 1 then .error .hold
  else blockSyl k [L] true (fun s => do
    let s ← s.resolveBlocks [L] false true
    let p := s.takeSrcs srcs
    return body p.2 p.1) s

/-- A wrong type of MOUTER or MVEC (R37, R159): an array syllable all the same, it waits for the array (R298) and faults where there is none (R289). -/
def blockWrongType (k : BitVec 4) (L : Nat) (srcs : List (BitVec 4)) (d : Option (BitVec 4)) (n : Nat) (s : State) : Res :=
  if !s.arrayFree then .error .hold
  else if s.noArray then arraySyl k L (fun s => .ok s) s
  else wrongType k srcs d n s

/-- MOUTER (R303): ha is m2[0] (`j`), hb is m2[1] (`h`). A poisoned unit of register space is read without a trap: DEDUCED (log entry 18). -/
def execMouter (k : BitVec 4) (y : BitVec 3) (l : BitVec 6) (a b : BitVec 4) (h j : BitVec 1) (s : State) : Host.Outcome State Fault Refusal :=
  finish s (fun s =>
    if y ≠ 4 then blockWrongType k l.toNat [a, b] none 0 s
    else blockVec k l.toNat [a, b] none (fun s vs =>
      let va := vopd vs 0
      let vb := vopd vs 1
      let r := (List.range 4096).foldl (fun (r : Array Nat × Flags) n =>
        let z := fp32.result .rn 0 (exFma false (fp32.decode (vget va 32 (64 * j.toNat + n / 64))) (fp32.decode (vget vb 32 (64 * h.toNat + n % 64)))
          (fp32.decode (r.1.getD n 0)))
        (r.1.setIfInBounds n z.1, r.2 ||| z.2)) (s.tile.block l.toNat, 0)
      (s.modTile (fun x => (x.setEnt l.toNat { x.ent l.toNat with fmt := false }).setBlock l.toNat r.1)).orFlags r.2) s)

/-- One level of the row reduction tree (R148, R151): RN into FP32 of the sum of two nodes; a node without a partner passes on unchanged, exact. -/
def rowLevel : List (FVal × Bool) → List (FVal × Bool) × Flags
  | [] => ([], 0)
  | [p] => ([p], 0)
  | p :: q :: r =>
    let t := p.1.add false q.1
    let y := fp32.result .rn 0 (exOf (t.1, p.2 || q.2 || t.2))
    let u := rowLevel r
    ((fp32.decode y.1, false) :: u.1, y.2 ||| u.2)

/-- The root of the tree over exact products, rounded (R151, R333); the last rounding changes only a single product. -/
def rowRoot : Nat → List (FVal × Bool) → Nat × Flags
  | 0, _ => (0, 0)
  | _ + 1, [] => (0, 0)
  | _ + 1, [p] => fp32.result .rn 0 (exOf p)
  | n + 1, l =>
    let t := rowLevel l
    let u := rowRoot n t.1
    (u.1, t.2 ||| u.2)

def rowTree (ps : List (FVal × Bool)) : Nat × Flags := rowRoot 10 ps

/-- MVEC (R304): hd is m2[0] (`j`), hb is m2[1] (`h`). -/
def execMvec (k : BitVec 4) (y : BitVec 3) (l : BitVec 6) (d b : BitVec 4) (h j : BitVec 1) (s : State) : Host.Outcome State Fault Refusal :=
  finish s (fun s =>
    if y ≠ 4 then blockWrongType k l.toNat [b] (some d) 1 s
    else blockVec k l.toNat [b] (some d) (fun s vs =>
      let vb := vopd vs 0
      let blk := s.tile.block l.toNat
      let rows := (List.range 64).map (fun (i : Nat) => rowTree ((List.range 64).map (fun (c : Nat) =>
        (fp32.decode (blk.getD (64 * i + c) 0)).mul (fp32.decode (vget vb 32 (64 * h.toNat + c))))))
      let half := vpack 32 (rows.map (fun (r : Nat × Flags) => r.1))
      let old := (s.oldVec d).toNat
      let keep := if j = 1 then old % 2 ^ 2048 else old / 2 ^ 2048 * 2 ^ 2048
      let s := s.putVec d (BitVec.ofNat 4096 (keep + half * 2 ^ (2048 * j.toNat))) (BitVec.ofNat 512 ((2 ^ 256 - 1) * 2 ^ (256 * j.toNat)))
      s.orFlags (rows.foldl (fun (f : Flags) r => f ||| r.2) 0)) s)

end Sys2Proof.Machine
end

