-- ==== Sys2Proof/Machine/Ring.lean ====
section
/-! DEFINITION. Window rings (R214, R215, R236, R237), PREF (R238) and WFLUSH (R239, R386, R387). -/

namespace Sys2Proof.Machine


/-! ## Rings -/

/-- A row fetch of ring `r` starts: its sectors are expected; a row at or above N is zero-filled and landed at once (R214, R236). -/
def State.startRow (s : State) (r : Fin 4) (row : Nat) : State :=
  let g := s.thr.rings[r]
  let bar := barAt s.ct g.bar
  let n := (g.b + 255) / 256
  let dst := g.slot0 + row % g.s * g.b
  let s := if s.tile.live g.bar then s.modTile (·.barUpdate g.bar 0 n 0 0) else s
  let s := s.modThr (fun x =>
    { x with rings := x.rings.set r { x.rings[r] with faults := x.rings[r].faults.filter (fun f => f.1 % g.s != row % g.s) } })
  let c : Cmd := { s.newCmd .ringRow (wofNat dst) (g.base + wofNat row * g.pitch) 0 bar g.b with ring := 4 * row + r.val, queue := .l }
  if g.n ≤ row then
    let w := s.copyWriteSpad s.ct ((List.range g.b).map (fun i => (dst + i, (0, false))))
    (w.1.copyErrs s.ct s.ch c (w.2.map (fun a => (2, wofNat a))).toList).landBar s.ct s.ch bar n c.dst
  else s.addCmd c

/-- The rows that newly fall inside the lookahead of a head start, in ascending order. -/
def State.startRows (s : State) (r : Fin 4) (head : Nat) : State :=
  let g := s.thr.rings[r]
  let s := (List.range (head + g.l - g.next)).foldl (fun s i => s.startRow r (g.next + i)) s
  s.modThr (fun x => { x with rings := x.rings.set r { x.rings[r] with next := head + g.l } })

/-- A fetch of rows `lo` to `hi − 1` of ring `r` has not landed. -/
def Thread.fetching (t : Thread) (r : Fin 4) (lo hi : Nat) : Bool :=
  t.cmds.any (fun c => c.kind == .ringRow && c.ringNo == r && lo ≤ c.row && c.row < hi)

/-- WRSET's descriptor (R236): a barrier that is not aligned is a misaligned access, any other illegal value an access violation (R226). -/
def State.readRing (s : State) (x : Word) : Except Stop Ring := do
  let off ← s.localRange x 32 { own := true }
  if off % 16 ≠ 0 then .error (accessViol 0 x)
  let b := s.tile.spad.mem.read (s.ownOff off) 32
  let slot0 := leAt b 20 4
  let bar := leAt b 24 4
  let len := 64 * (leAt b 28 2 + 1)
  let n := leAt b 30 1 + 1
  let l := leAt b 31 1 + 1
  if bar % 16 ≠ 0 then .error (misaligned 0 (wofNat bar))
  let w ← s.barOperand (wofNat bar)
  if slot0 % 64 ≠ 0 || 65536 < len || n < l || 0x300000 < slot0 + n * len then .error (accessViol 0 x)
  return ⟨true, wofNat (leAt b 0 8), wofNat (leAt b 8 8), leAt b 16 4, slot0, barOff w, len, n, l, 0, 0, []⟩

/-- WRSET (R236): it waits until the ring's old fetches have landed. -/
def execWrset (k : BitVec 4) (a : BitVec 3) (r : BitVec 2) (s : State) : Host.Outcome State Fault Refusal :=
  finish s (fun s => withTokens k s (fun s => do
    let g ← s.readRing (s.A a)
    if s.thr.cmds.any (fun c => c.kind == .ringRow && c.ringNo == r.toFin) then .error .hold
    else return (s.modThr (fun x => { x with rings := x.rings.set r.toFin g })).startRows r.toFin 0))

/-- Advances of at most L rows each from head `h`, as far as rows have landed: the state, the rows left and the head reached (R214, R237). -/
def State.advance (s : State) (r : Fin 4) : Nat → Nat → Nat → State × Nat × Nat
  | 0, n, h => (s, n, h)
  | fuel + 1, n, h =>
    if n = 0 then (s, 0, h)
    else
      let k := min n s.thr.rings[r].l
      if s.thr.fetching r h (h + k) then (s, n, h)
      else (s.startRows r (h + k)).advance r fuel (n - k) (h + k)

def State.setHead (s : State) (r : Fin 4) (h : Nat) : State := s.modThr (fun x => { x with rings := x.rings.set r { x.rings[r] with head := h } })

/-- A WRADV that was abandoned between its advances had no effect (R268): the rows at the ring's head, whose slots its fetches have taken, are fetched again. -/
def State.refetch (s : State) (r : Fin 4) : State :=
  let g := s.thr.rings[r]
  if g.next ≤ g.head + g.l then s
  else (s.modThr (fun x => { x with rings := x.rings.set r { x.rings[r] with next := g.head } })).startRows r g.head

/-- WRADV (R237): it is held until its last advance has started its fetches, and the ring's head moves then; `prog` keeps the rows left and the head its advances have reached, and a stop forgets them
(R268). DEDUCED (log entry 38), unsafe. -/
def execWradv (k : BitVec 4) (n : BitVec 10) (r : BitVec 2) (s : State) : Host.Outcome State Fault Refusal :=
  finish s (fun s =>
    if !tokReady s.thr.qs.tok s.slot k then .error .hold
    else if !s.thr.rings[r.toFin].valid then .error (accessViol 0 0)
    else
      let w := match s.prog with
        | [m, h] => s.advance r.toFin (n.toNat + 1) m h
        | _ => (s.refetch r.toFin).advance r.toFin (n.toNat + 1) n.toNat s.thr.rings[r.toFin].head
      if w.2.1 = 0 then withTokens k ((w.1.setHead r.toFin w.2.2).setProg []) (fun s => .ok s)
      else if s.prog.isEmpty && w.2.1 = n.toNat && s.thr.rings[r.toFin].next ≤ s.thr.rings[r.toFin].head + s.thr.rings[r.toFin].l then .error .hold
      else .ok ((w.1.setProg [w.2.1, w.2.2]).setRes .held))

/-! ## PREF (R238) -/

/-- The lines of one superblock that are not held are fetched, without waiting for anything. -/
def State.prefetch (s : State) (t b : Nat) : State :=
  ((List.range 4).map (· + 4 * b)).foldl (fun s l =>
    if (s.tileAt t).l1.valid.contains l || (s.locAsk (64 * l) 64).isSome then s else (s.allocL1 t b).fillLine t l) s

/-- PREF: a hint that fetches superblocks of WB pages into the L1, and does nothing for any other address. -/
def execPref (k : BitVec 4) (b : BitVec 3) (c : BitVec 4) (m : BitVec 2) (d : BitVec 9) (s : State) : Host.Outcome State Fault Refusal :=
  finish s (fun s => withTokens k s (fun s =>
    let A := s.A b + 256 * sx d
    let one := fun (s : State) (i : Nat) =>
      let a := A + wofNat (256 * i)
      if wbits a 57 7 ≠ 0 || s.isLocal s.ct a then s
      else match s.walk (s.ctxOf s.ct) a.toNat .load with
        | .ok (.mem loc 0) => s.prefetch s.ct (loc / 256)
        | _ => s
    let s := (List.range (c.toNat + 1)).foldl one s
    .ok (if m = 1 then s.setA b (s.A b + wofNat ((c.toNat + 1) * 256)) else s)))

/-! ## WFLUSH (R239) -/

/-- The windows that a WFLUSH names. -/
def flushSet (w : BitVec 6) (all : Bool) : List (Fin 64) := if all then List.finRange 64 else [w.toFin]

/-- The lines of some windows are to be sent, and stream `sl` waits for their departure (R386, R387). -/
def Thread.flushWin (t : Thread) (ws : List (Fin 64)) (sl : Slot) : Thread :=
  ws.foldl (fun (x : Thread) (i : Fin 64) => { x with win := x.win.set i { x.win[i] with lines := x.win[i].lines.map (·.flag sl) } }) t

/-- WFLUSH: the lines held in its windows are sent; it is held until they have departed, and with ack until every posted write issued before has been
acknowledged. -/
def execWflush (k : BitVec 4) (w : BitVec 6) (l c : BitVec 1) (s : State) : Host.Outcome State Fault Refusal :=
  finish s (fun s =>
    let ws := flushSet w (l = 1)
    let lines := ws.any (fun i => !s.thr.win[i].lines.isEmpty)
    let flits := (ws.map (fun i => s.thr.win[i].flits.map (·.num))).flatten
    let last := flits.foldl max 0
    let done := fun (s : State) => withTokens k (s.setProg []) (fun s => .ok s)
    let wait := fun (s : State) (p : List Nat) => (.ok ((s.setProg p).setRes .held) : Res)
    if !tokReady s.thr.qs.tok s.slot k then .error .hold
    else match s.prog with
      | [] =>
        if lines then wait (s.modThr (·.flushWin ws s.slot)) [1]
        else if c = 1 && !flits.isEmpty then wait s [2, last]
        else done s
      | [1] =>
        if ws.any (fun i => s.thr.win[i].lines.any (·.send)) then .error .hold
        else if c = 1 && !flits.isEmpty then wait s [2, last]
        else done s
      | _ :: n :: _ => if flits.any (· ≤ n) then .error .hold else done s
      | _ => done s)

end Sys2Proof.Machine
end

