-- ==== Sys2Proof/Machine/FastW.lean ====
section
/-! DEFINITION. Fast-weight state: the descriptors, FWSTEP and FWCHUNK (R330 to R337). -/

namespace Sys2Proof.Machine

/-- A descriptor set as its CSRs give it (R330). -/
structure FwSet where
  l0  : Nat
  dv  : Nat
  dk  : Nat
  rf  : Bool
  adr : Word
  str : Word
  deriving DecidableEq, Repr

def UCsr.fwSet (c : UCsr) (f : Fin 4) : FwSet :=
  { l0 := wbits c.fwcfg[f] 0 6, dv := wbits c.fwcfg[f] 8 8 + 1, dk := wbits c.fwcfg[f] 16 8 + 1, rf := wbit c.fwcfg[f] 24, adr := c.fwadr[f], str := c.fwstr[f] }

/-- Row and column blocks of the state. -/
def FwSet.rb (d : FwSet) : Nat := (d.dv + 63) / 64
def FwSet.cb (d : FwSet) : Nat := (d.dk + 63) / 64

/-- The state lies inside its bank (R334). -/
def FwSet.fits (d : FwSet) : Bool := d.l0 / 4 % 4 + d.rb ≤ 4 && d.l0 % 4 + d.cb ≤ 4

/-- The logical blocks that the state occupies (R331). -/
def FwSet.blocks (d : FwSet) : List Nat := ((List.range d.rb).map (fun (u : Nat) => (List.range d.cb).map (fun (v : Nat) => d.l0 + 4 * u + v))).flatten

/-- The window offset of operand number `n` (k, v, q, gates, o) at token `tau` (R330, R333). -/
def FwSet.at (d : FwSet) (n tau : Nat) : Nat := 64 * (wbits d.adr (11 * n) 11 + tau * wbits d.str (11 * n) 11)

/-- FP32 values of a thread's window. -/
def Memory.winF32 (m : Memory) (h off n : Nat) : Array Nat :=
  let b := (m.readWin h off (4 * n)).toArray
  (Array.range n).map (fun i => leNat ((List.range 4).map (fun j => b.getD (4 * i + j) 0)))

/-- Element (i, j) of the state: its block and its place there. -/
def FwSet.cell (d : FwSet) (i j : Nat) : Nat × Nat := (d.l0 + 4 * (i / 64) + j / 64, 64 * (i % 64) + j % 64)

/-- The exact products of a row and a vector. -/
def rowProducts (row vec : Array Nat) : List (FVal × Bool) :=
  (row.toList.zip vec.toList).map (fun (p : Nat × Nat) => (fp32.decode p.1).mul (fp32.decode p.2))

/-- One row of a token step (R333): its new elements, its output, and its flags. -/
def fwRow (rf : Bool) (alpha beta : FVal) (k q row : Array Nat) (v : Nat) : Array Nat × Nat × Flags :=
  let u := rowTree (rowProducts row k)
  let au := fp32.result .rn 0 (exMul alpha (fp32.decode u.1))
  let e := fp32.result .rn 0 (exSub false (fp32.decode v) (fp32.decode au.1))
  let w := fp32.result .rn 0 (exMul beta (fp32.decode e.1))
  let cells := (row.toList.zip k.toList).map (fun (p : Nat × Nat) =>
    let g := fp32.result .rn 0 (exMul alpha (fp32.decode p.1))
    let y := fp32.result .rn 0 (exFma false (fp32.decode w.1) (fp32.decode p.2) (fp32.decode g.1))
    (y.1, g.2 ||| y.2))
  let new : Array Nat := (cells.map (fun (c : Nat × Flags) => c.1)).toArray
  let o := rowTree (rowProducts (if rf then row else new) q)
  (new, o.1, cells.foldl (fun (f : Flags) c => f ||| c.2) (u.2 ||| au.2 ||| e.2 ||| w.2 ||| o.2))

/-- One token step of a set on the acting thread (R333): the state's blocks, now FP32 (R315), and the output; with its flags. -/
def State.fwToken (s : State) (d : FwSet) (tau : Nat) : State × Flags :=
  let x := s.tile
  let m := x.regs.mem
  let k := m.winF32 s.ch (d.at 0 tau) d.dk
  let v := m.winF32 s.ch (d.at 1 tau) d.dv
  let q := m.winF32 s.ch (d.at 2 tau) d.dk
  let g := m.winF32 s.ch (d.at 3 tau) 2
  let blocks := (Array.range 64).map (fun L => if d.blocks.contains L then x.block L else #[])
  let rows := (List.range d.dv).map (fun (i : Nat) =>
    fwRow d.rf (fp32.decode (g.getD 0 0)) (fp32.decode (g.getD 1 0)) k q
      ((Array.range d.dk).map (fun j => let c := d.cell i j; (blocks.getD c.1 #[]).getD c.2 0)) (v.getD i 0))
  let after := rows.zipIdx.foldl (fun (b : Array (Array Nat)) (r : (Array Nat × Nat × Flags) × Nat) =>
    r.1.1.toList.zipIdx.foldl (fun (b : Array (Array Nat)) (e : Nat × Nat) =>
      let c := d.cell r.2 e.2
      b.modify c.1 (fun a => a.setIfInBounds c.2 e.1)) b) blocks
  let x := d.blocks.foldl (fun (x : Tile) L => (x.setEnt L { x.ent L with fmt := false }).setBlock L (after.getD L #[])) x
  let x := { x with regs := x.regs.writeWin s.ch (d.at 4 tau) ((rows.map (fun (r : Array Nat × Nat × Flags) => leBytes 4 r.2.1)).flatten) }
  (s.modTile (fun _ => x), rows.foldl (fun (f : Flags) r => f ||| r.2.2) 0)

/-- The checks of R334, each for every set before the next: the banks, no block named twice, resolution, and every block pinned. DEDUCED (log entry 49), unsafe. -/
def State.fwCheck (s : State) (sets : List FwSet) : Except Stop State := do
  let names := (sets.map FwSet.blocks).flatten
  if sets.any (fun d => !d.fits) then .error (accessViol 0 0)
  else if names.eraseDups.length ≠ names.length then .error (accessViol 0 0)
  else do
    let s ← s.resolveBlocks names false true
    match names.find? (fun L => (s.tile.ent L).st != .pinned) with
    | some L => .error (ownFault L 5 0)
    | none => return s

/-- Token step `tau` of sets in ascending f, each with its flags; it counts 12 active cycles toward the segment that covers the syllable (R337). -/
def State.fwTokens (s : State) (sets : List FwSet) (tau : Nat) : State :=
  sets.foldl (fun (s : State) d =>
    let r := s.fwToken d tau
    (r.1.orFlags r.2).countActive s.ct s.ch 12 s.headSeg) s

/-- The checks of R334 that come before its blocks resolve. -/
def fwFits (sets : List FwSet) : Bool :=
  sets.all (·.fits) && (((sets.map FwSet.blocks).flatten).eraseDups.length == ((sets.map FwSet.blocks).flatten).length)

/-- A turn of FWSTEP or FWCHUNK that its checks or a refill end; none when its next token step can be taken. -/
def State.fwRefill (s : State) (sets : List FwSet) : Except Stop (Option State) :=
  if s.noArray then .error (ownFault ((sets.head?).elim 0 (·.l0)) 3 0)
  else if !fwFits sets then .error (accessViol 0 0)
  else s.refillStep ((sets.map FwSet.blocks).flatten) true

/-- FWSTEP (R333, R334). -/
def execFwstep (k : BitVec 4) (f : BitVec 2) (s : State) : Host.Outcome State Fault Refusal :=
  finish s (fun s =>
    let sets := [s.thr.csr.fwSet f.toFin]
    if !tokReady s.thr.qs.tok .w k || !s.arrayFree then .error .hold
    else do
      match ← s.fwRefill sets with
      | some s => return s.refilled
      | none => withTokens k s (fun s => do return (← s.fwCheck sets).fwTokens sets 0))

/-- No nest of the tile runs, and of the threads whose FWCHUNK was stopped, this is the first (R298, R336). -/
def State.chunkFree (s : State) : Bool :=
  s.tile.th.toList.zipIdx.all (fun (p : Thread × Nat) => p.1.nest.isNone && (s.ch ≤ p.2 || !p.1.inArray))

/-- The set whose token step comes next: the lowest of those with the fewest steps behind them, none when every set of the mask has taken all `T`. It is one of the orders that R335 lets the array choose.
DESIGN CHOICE (log entry 50), unsafe. -/
def nextSet (m : BitVec 4) (counts : List Nat) (T : Nat) : Option Nat :=
  let l := (List.range 4).filter (fun i => m.getLsbD i && counts.getD i 0 < T)
  l.find? (fun i => l.all (fun j => counts.getD i 0 ≤ counts.getD j 0))

/-- FWCHUNK (R335, R336, R339): its pops and its checks come before the first token; each turn takes one token step of one set, and the count of completed steps of each set is kept
with the syllable, so that a forced pre-emption can stop it there; resumed, it is checked again and goes on from its counts; the pushes come with the last token. -/
def execFwchunk (k : BitVec 4) (c : BitVec 6) (m : BitVec 4) (s : State) : Host.Outcome State Fault Refusal :=
  finish s (fun s =>
    let all := s.thr.csr
    let sets := ((List.finRange 4).filter (fun i => m[i])).map all.fwSet
    let started := s.prog.length == 4
    if !(if started then s.chunkFree else tokReady s.thr.qs.tok .w k && s.arrayFree) then .error .hold
    else do
      match ← s.fwRefill sets with
      | some s => return s.refilled
      | none =>
        let counts := if started then s.prog else [0, 0, 0, 0]
        let s ← (if started then s else s.popTokens k).fwCheck sets
        match nextSet m counts (c.toNat + 1) with
        | none => return (s.setProg []).pushTokens k
        | some f =>
          let s := s.fwTokens [all.fwSet (Fin.ofNat 4 f)] (counts.getD f 0)
          let counts := counts.modify f (· + 1)
          if (nextSet m counts (c.toNat + 1)).isNone then return (s.setProg []).pushTokens k
          else return (s.setProg counts).setRes .held)

end Sys2Proof.Machine
end

