-- ==== Sys2Proof/Machine/Assay.lean ====
section
/-! DEFINITION. The shape of the array and its health: the maps (R289, R448 to R451), ASSAY, MREMAP and MSHRINK (R306 to R311), the health records (R452, R453),
Firefly's reads of them (R454), and margining (R455 to R458). -/

namespace Sys2Proof.Machine

/-! ## The hallmark map and the in-field fault map (R448, R450) -/

def xorBytes (l : List Byte) : Byte := l.foldl (· ^^^ ·) 0

/-- Bytes of a hallmark map. -/
def hallmarkBytes (h : BitVec 256) : List Byte := leBytes 32 h.toNat

/-- The entries of a hallmark map, kind and index; none when the map is not used: VERSION or CHECK is wrong, or one of its fifteen entries has a reserved bit set (R448). -/
def hallmarkEntries (h : BitVec 256) : Option (List (Nat × Nat)) :=
  let b := hallmarkBytes h
  let e := (List.range 15).map (fun i => leAt b (1 + 2 * i) 2)
  if leAt b 0 1 % 16 = 1 && b.getD 31 0 == ~~~xorBytes (b.take 31) && e.all (fun v => v < 2 ^ 11) then
    some ((e.take (leAt b 0 1 / 16)).map (fun v => (v % 4, v / 4 % 512)))
  else none

def fieldBase (t : Nat) : Nat := 0xA00000 + 0x200 * t

/-- COUNT of a tile's in-field map; none when the map counts as empty. -/
def State.fieldCount (s : State) (t : Nat) : Option Nat :=
  let b := s.mems.mram.read (fieldBase t) 16
  if leAt b 0 4 = 0x504D4649 && leAt b 6 1 = 1 then some (leAt b 4 2) else none

/-- An entry's bytes, and its fields: target, kind, index, row. -/
def fieldEntry (target kind index row gen hours : Nat) : List Byte :=
  let b := leBytes 7 (target % 4 + kind % 4 * 2 ^ 2 + index % 512 * 2 ^ 4 + row % 512 * 2 ^ 13 + gen % 2 ^ 16 * 2 ^ 24 + hours % 2 ^ 16 * 2 ^ 40)
  b ++ [~~~xorBytes b]

def fieldOf (v : Nat) : Nat × Nat × Nat × Nat := (v % 4, v / 4 % 4, v / 2 ^ 4 % 512, v / 2 ^ 13 % 512)

/-- The entries of a tile's in-field map whose CHECK is right. -/
def State.fieldEntries (s : State) (t : Nat) : List (Nat × Nat × Nat × Nat) :=
  (List.range (min ((s.fieldCount t).getD 0) 62)).filterMap (fun i =>
    let b := s.mems.mram.read (fieldBase t + 16 + 8 * i) 8
    if b.getD 7 0 == ~~~xorBytes (b.take 7) then some (fieldOf (leNat b)) else none)

/-- The physical rows and columns that an entry of a map retires (R448). -/
def retires (kind index : Nat) (cellCosts : Bool) : List Nat × List Nat :=
  match kind with
  | 0 => ([index], [])
  | 1 => ([], [index])
  | 2 => ([], if cellCosts then [index] else [])
  | _ => ((List.range 16).map (· + 16 * (index / 17)), [])

/-- One dimension at a module reset: the physical index of each logical one (R289). -/
def mapOf (ret : List Nat) : List Nat :=
  let good := (List.range 272).filter (fun i => !ret.contains i)
  good.take (min 256 (good.length / 16 * 16))

/-- A tile's shape at a module reset (R289, R448, R451). -/
def State.resetGeom (s : State) (t : Nat) : Geom :=
  match hallmarkEntries (s.tileAt t).hallmark with
  | none => Geom.none
  | some h =>
    let all := h.map (fun e => retires e.1 e.2 true) ++
      (s.fieldEntries t).map (fun e => if e.1 ≤ 1 then retires e.2.1 e.2.2.1 false else ([], []))
    let r := (all.map (fun p => p.1)).flatten.foldr insNat []
    let c := (all.map (fun p => p.2)).flatten.foldr insNat []
    let rows := mapOf r
    let cols := mapOf c
    if rows.length < 128 || cols.length < 128 then ⟨[], [], r, c, 0, []⟩ else ⟨rows, cols, r, c, 0, []⟩

/-! ## Remapping (R309, R310) -/

/-- A dimension's map and its retired indices; `col` chooses columns. -/
def Geom.map (g : Geom) (col : Bool) : List Nat := if col then g.cols else g.rows
def Geom.ret (g : Geom) (col : Bool) : List Nat := if col then g.retC else g.retR
def Geom.spares (g : Geom) (col : Bool) : List Nat := if col then g.spareCols else g.spareRows
def Geom.setMap (g : Geom) (col : Bool) (m : List Nat) : Geom := if col then { g with cols := m } else { g with rows := m }
def Geom.retire (g : Geom) (col : Bool) (p : Nat) : Geom := if col then { g with retC := insNat p g.retC } else { g with retR := insNat p g.retR }
def Geom.next (g : Geom) : Geom := { g with gen := g.gen + 1 }

/-- A B slice's bytes copied to the slice of another physical column. -/
def PMem.moveSlice (m : PMem) (p q : Nat) : PMem :=
  let m' := m.write (q * 16384) (m.mem.read (p * 16384) 16384)
  m'.taint ((m.poison.filter (fun u => u / 512 == p)).map (fun u => u % 512 + 512 * q))

/-- A logical index moves from physical `p` to `q`. The accumulator slots are kept by logical position, so only a column's slice moves. DEDUCED (log entry 54), unsafe. -/
def Tile.moveIndex (x : Tile) (col : Bool) (n p q : Nat) : Tile :=
  { x with geom := x.geom.setMap col ((x.geom.map col).set n q), bst := if col then x.bst.moveSlice p q else x.bst }

/-- A health event: an entry of the in-field map is due (R451). -/
def State.postHealth (s : State) (t target kind index row : Nat) : State :=
  s.pushAgenda [⟨.healthEvent, .health (BitVec.ofNat 8 t) (BitVec.ofNat 2 target) (BitVec.ofNat 2 kind) (BitVec.ofNat 9 index) (BitVec.ofNat 9 row)⟩]

/-- The resident blocks outside a shape are spilled by hardware (R310, R326, R329). -/
def State.spillOutside (s : State) (g : Geom) : State :=
  (List.range 64).foldl (fun (s : State) L => if (s.tile.ent L).resident && !g.inside L then s.hwSpill s.ct L else s) s

/-- A shrink by 16 with PIDX `p` (R310); the flag says that nothing could be done. -/
def State.shrink (s : State) (col : Bool) (p : Nat) : State × Bool :=
  let g := s.tile.geom
  let m := g.map col
  let c := m.length
  if c ≤ 128 then (s, true)
  else
    let s := s.spillOutside (g.setMap col (m.take (c - 16)))
    let s :=
      match m.findIdx? (· == p) with
      | some n =>
        let s := if n < c - 16 then s.modTile (·.moveIndex col n p (m.getD (c - 1) 0)) else s
        (s.modTile (fun x => { x with geom := x.geom.retire col p })).postHealth s.ct 0 (natOfBool col) p 0
      | none => if (g.spares col).contains p then (s.modTile (fun x => { x with geom := x.geom.retire col p })).postHealth s.ct 0 (natOfBool col) p 0 else s
    (s.modTile (fun x => { x with geom := (x.geom.setMap col ((x.geom.map col).take (c - 16))).next }), false)

/-- MREMAP's table (R309). -/
def State.remap (s : State) (col shok : Bool) (p : Nat) : State × Bool :=
  let g := s.tile.geom
  if (g.ret col).contains p then (s, false)
  else
    match (g.map col).findIdx? (· == p) with
    | none => ((s.modTile (fun x => { x with geom := (x.geom.retire col p).next })).postHealth s.ct 0 (natOfBool col) p 0, false)
    | some n =>
      match g.spares col with
      | q :: _ =>
        ((s.modTile (fun x =>
          let x := x.moveIndex col n p q
          { x with geom := (x.geom.retire col p).next })).postHealth s.ct 0 (natOfBool col) p 0, false)
      | [] => if shok then s.shrink col p else (s, true)

/-- No CPINB accepted on the tile has sectors still to land. -/
def Tile.noCpinb (x : Tile) : Bool := x.th.toList.all (fun (t : Thread) => t.cmds.all (fun c => c.kind != .cpinb))

/-- A syllable at a remap point of its tile (R308). -/
def atRemapPoint (k : BitVec 4) (body : State → State) (s : State) : Res :=
  arraySyl k 0 (fun s => if s.tile.noCpinb then .ok (body s) else .error .hold) s

/-- GEOM afterwards, with bit 63 for FAIL, to the register that `w` names. -/
def State.putGeom (s : State) (w : BitVec 3) (fail : Bool) : State := s.setA w (s.tile.geom.word ||| (if fail then wset 0 63 else 0))

/-- MREMAP (R309): `d` is DIM, `sh` is SHOK. -/
def execMremap (k : BitVec 4) (w : BitVec 3) (i : BitVec 9) (d sh : BitVec 1) (s : State) : Host.Outcome State Fault Refusal :=
  finish s (atRemapPoint k (fun s => let r := s.remap (d = 1) (sh = 1) i.toNat; r.1.putGeom w r.2))

/-- MSHRINK (R310). -/
def execMshrink (k : BitVec 4) (w : BitVec 3) (i : BitVec 9) (d : BitVec 1) (s : State) : Host.Outcome State Fault Refusal :=
  finish s (atRemapPoint k (fun s => let r := s.shrink (d = 1) i.toNat; r.1.putGeom w r.2))

/-! ## ASSAY (R306, R307) -/

/-- A fault that the tile's records already hold. -/
def State.knownFault (s : State) (d : Defect) : Bool :=
  s.tile.geom.faulty.any (fun e => e.target == d.target && e.kind == d.kind && e.index == d.index && e.row == d.row) ||
    (s.fieldEntries s.ct).any (fun e => e.1 == d.target && e.2.1 == d.kind && e.2.2.1 == d.index && e.2.2.2 == d.row)

/-- The units of a target that its patterns reach: nothing of a retired row or column is tested. -/
def Geom.tests (g : Geom) (d : Defect) : Bool :=
  2 ≤ d.target ||
    (match d.kind with
     | 0 => !g.retR.contains d.index
     | 1 => !g.retC.contains d.index
     | 2 => !g.retC.contains d.index && !g.retR.contains d.row
     | _ => false)

/-- What is done at once with a faulty unit (R306): a spare that holds it is retired; else nothing but FPEND. A unit whose row or
column has been retired for another is done with. -/
def Geom.afterFault (g : Geom) (d : Defect) : Geom :=
  let retire := fun (col : Bool) (p : Nat) => if (g.spares col).contains p then (g.retire col p).next else g
  if 2 ≤ d.target || !g.tests d then g
  else match d.kind with
    | 0 => retire false d.index
    | 1 => retire true d.index
    | 2 => if g.spareCols.contains d.index then retire true d.index else retire false d.row
    | _ => g

/-- The result word of R307. -/
def assayWord (target weak : Nat) (new : List Defect) : Word :=
  let kind := fun (d : Defect) => match d.kind with | 2 => 1 | 0 => 2 | _ => 3
  match new with
  | [] => wofNat (weak % 2 ^ 16 * 2 ^ 16)
  | d :: _ =>
    let row := if target = 0 then (match d.kind with | 0 => d.index | 2 => d.row | _ => 0) else 0
    let col := if target = 0 && d.kind = 0 then 0 else d.index
    wofNat (new.length % 2 ^ 16 + weak % 2 ^ 16 * 2 ^ 16 + row * 2 ^ 32 + col * 2 ^ 41 + kind d * 2 ^ 50)

/-- The built-in tests of a target on the acting tile. DEDUCED (log entry 53), unsafe. -/
def State.assay (s : State) (target : Nat) (w : BitVec 3) : State :=
  let hit := s.tile.defects.filter (fun d => d.target == target && s.tile.geom.tests d)
  let weak := hit.filter (·.weak)
  let bad := hit.filter (fun d => !d.weak)
  let new := bad.filter (fun d => !s.knownFault d)
  let s := s.setA w (assayWord target weak.length new)
  let s := s.modTile (fun x => { x with geom := bad.foldl Geom.afterFault { x.geom with faulty := x.geom.faulty ++ bad.filter (fun d => !x.geom.faulty.contains d) } })
  let s := new.foldl (fun (s : State) d => s.postHealth s.ct target d.kind d.index d.row) s
  s.pushAgenda [⟨.healthEvent, .assayed (BitVec.ofNat 8 s.ct) (BitVec.ofNat 2 target) (hit.map (fun d => (d.kind, d.index, d.row, !d.weak)))⟩]

/-- ASSAY (R306, R307): the array and the B stratum wait for a remap point; the quick and the full set find the same units here. -/
def execAssay (k : BitVec 4) (w : BitVec 3) (_f : BitVec 1) (g : BitVec 2) (s : State) : Host.Outcome State Fault Refusal :=
  finish s (if g.toNat ≤ 1 then atRemapPoint k (fun s => s.assay g.toNat w) else arraySyl k 0 (fun s => .ok (s.assay g.toNat w)))

/-! ## Health records (R451 to R453) -/

/-- The offsets of the records that a unit concerns. -/
def recordsOf (target kind index row : Nat) : List Nat :=
  match target, kind with
  | 0, 0 => (List.range 17).map (fun c => 16 * (17 * (index / 16) + c))
  | 0, 1 => (List.range 17).map (fun r => 16 * (17 * r + index / 16))
  | 0, 2 => [16 * (17 * (row / 16) + index / 16)]
  | 0, _ => [16 * index]
  | 1, _ => [0x2800 + 16 * index]
  | 2, _ => [0x2400 + 16 * index]
  | _, _ => [0x2600 + 16 * index]

/-- Every record of a target. -/
def recordsAll (target : Nat) : List Nat :=
  match target with
  | 0 => (List.range 289).map (fun i => 16 * i)
  | 1 => (List.range 272).map (fun i => 0x2800 + 16 * i)
  | 2 => (List.range 32).map (fun i => 0x2400 + 16 * i)
  | _ => (List.range 16).map (fun i => 0x2600 + 16 * i)

/-- A bit of both WAKEPENDs (R107). -/
def State.wake (s : State) (b : Nat) : State :=
  (({ s with svc := s.svc.map (fun v => { v with wakepend := v.wakepend ||| BitVec.ofNat 8 (2 ^ b) }) } : State).markPriv (privKey 0 0x808) (wofNat (2 ^ b))).markPriv (privKey 1 0x808) (wofNat (2 ^ b))

/-- WEAKTH (R453). -/
def State.weakTh (s : State) : Nat := s.mems.mram.readN 0xAF0000 2

/-- A finding entered in a record: WEAK with its threshold, or FAULTS; each bin grows by the failing words that the tests met, a free value, and saturates. -/
def State.recordFound (s : State) (a : Nat) (bad : Bool) : State :=
  let s := s.bump (a + if bad then 4 else 2)
  let s := (List.range 6).foldl (fun (s : State) i =>
    let f := s.takeFree
    f.2.mramWrite (a + 8 + i) [BitVec.ofNat 8 (min 255 (f.2.mems.mram.readN (a + 8 + i) 1 + (Config.counted f.1).toNat))]) s
  let set := fun (s : State) (b : Nat) => s.mramWrite (a + 15) [s.mems.mram.byte (a + 15) ||| BitVec.ofNat 8 b]
  if bad then set s 2
  else if s.weakTh ≠ 0 && s.weakTh ≤ s.mems.mram.readN (a + 2) 2 && !(s.mems.mram.byte (a + 15))[0] then (set s 1).wake 7 else s

/-- An entry appended to a tile's in-field map (R450, R451): the entry first, then COUNT, or the whole header of an empty map. A full map drops it, sets OVERFLOW, and a health event names the tile
for replacement. -/
def State.fieldAppend (s : State) (t : Nat) (e : List Byte) : State :=
  let b := fieldBase t
  match s.fieldCount t with
  | none => (s.mramWrite (b + 16) e).mramWrite b (leBytes 4 0x504D4649 ++ leBytes 2 1 ++ [1] ++ List.replicate 9 0)
  | some n =>
    if 62 ≤ n then (s.mramWrite (b + 7) [s.mems.mram.byte (b + 7) ||| 1]).logEntry 5 [t]
    else (s.mramWrite (b + 16 + 8 * n) e).mramWrite (b + 4) (leBytes 2 (n + 1))

/-- An uncorrectable error in a 32-byte unit of the B stratum, the scratchpad or the register space of a tile: the unit is poisoned (R204). -/
def State.sramPoison (s : State) (t target unit : Nat) : State :=
  s.updTile t (fun x => match target with
    | 1 => { x with bst := x.bst.taint [unit] }
    | 2 => { x with spad := x.spad.taint [unit] }
    | 3 => { x with regs := x.regs.taint [unit] }
    | _ => x)

/-- HEALTH_EVENT (R451 to R453); and an error that SEC-DED finds in a tile's memory: one that it corrects is counted in the ECC field of the bank's or slice's record (R204). -/
def execHealthEvent (s : State) : Host.Outcome State Fault Refusal :=
  match s.run.input with
  | .health t target kind index row =>
    .next (s.fieldAppend t.toNat (fieldEntry target.toNat kind.toNat index.toNat row.toNat (s.tileAt t.toNat).geom.gen.toNat s.edge.hours.toNat))
  | .assayed t target found =>
    let s := (recordsAll target.toNat).foldl (fun (s : State) o => s.bump (healthBase t.toNat + o)) s
    .next (found.foldl (fun (s : State) (u : Nat × Nat × Nat × Bool) =>
      (recordsOf target.toNat u.1 u.2.1 u.2.2.1).foldl (fun (s : State) o => s.recordFound (healthBase t.toNat + o) u.2.2.2) s) s)
  | .sram t target bank unit hard => .next (if hard then s.sramPoison t.toNat target.toNat unit else
      (recordsOf target.toNat 1 bank.toNat 0).foldl (fun (s : State) o => s.bump (healthBase t.toNat + o + 6)) s)
  | _ => .next s

/-! ## Firefly's reads (R454) -/

/-- Firefly's answer to a message: a status and its bytes. -/
def State.reply (s : State) (st : Nat) (b : List Byte) : State := { s with edge := { s.edge with ffStatus := st, ffReply := b } }

/-- FF_READ_HALLMARK: command 0x20. -/
def execFfReadHallmark (s : State) : Host.Outcome State Fault Refusal :=
  match s.run.input with
  | .tile t => .next (s.reply 0 (hallmarkBytes (s.tileAt t.toNat).hallmark))
  | _ => .next s

/-- FF_READ_INFIELD: command 0x21. -/
def execFfReadInfield (s : State) : Host.Outcome State Fault Refusal :=
  match s.run.input with
  | .tile t => .next (s.reply 0 (s.mems.mram.read (fieldBase t.toNat) 512))
  | _ => .next s

/-- FF_READ_HEALTH: command 0x22. -/
def execFfReadHealth (s : State) : Host.Outcome State Fault Refusal :=
  match s.run.input with
  | .block t o n => .next (s.reply 0 (s.mems.mram.read (healthBase t.toNat + o.toNat) n.toNat))
  | _ => .next s

/-! ## Margining (R455 to R458) -/

/-- VMARG_WRITE (R455): OFFSET clamped to ±LIMIT, with CLAMPED; ignored under LOCK. CLAMPED is an RS field: it stays 1 only where the written value has its bit 1, or where an earlier write of the cycle set it (R7, R8). -/
def execVmargWrite (s : State) : Host.Outcome State Fault Refusal :=
  match s.run.input with
  | .vmarg d v =>
    let i : Fin 24 := Fin.ofNat 24 d.toNat
    let o := s.margin.vmarg[i]
    if s.margin.vmctl[1] then .next s
    else
      let lim : Int := wbits o 8 8
      let x := sextInt (wbits v 0 8) 8
      let y := max (-lim) (min lim x)
      let n := wput o 0 8 (truncInt y 8)
      let n := if x = y then (if wbit v 17 || wbit (freshBits s.run.fresh (0x860 + d.toNat)) 17 then n else wclr n 17) else wset n 17
      let s := if x = y then s else s.markPriv (0x860 + d.toNat) 0x20000
      .next { s with margin := ({ s.margin with vmarg := s.margin.vmarg.set i n } : Margin).unsettle }
  | _ => .next s

/-- VMARG_SETTLED (R456): the ramp of a rail has ended. -/
def execVmargSettled (s : State) : Host.Outcome State Fault Refusal :=
  match s.run.input with
  | .domain d =>
    let i : Fin 24 := Fin.ofNat 24 d.toNat
    .next { s with margin := { s.margin with applied := s.margin.applied.set i (s.margin.target i), vmarg := s.margin.vmarg.set i (wset s.margin.vmarg[i] 16) } }
  | _ => .next s

/-- The cluster whose logic rail a domain is, if any (R455). -/
def railCluster (d : Nat) : Option Nat := if 4 ≤ d && d < 12 then some (d - 4) else none

/-- The ramps and the readings as time passes (R455, R456): a step of 2.5 mV every 600 tile cycles on every rail that is up and not at its offset, its last step
being the event VMARG_SETTLED; MEASURED anew every 6,000 cycles. DESIGN CHOICE (log entry 55), safe. -/
def State.marginTick (s : State) : State :=
  let s :=
    if s.run.cycle % 600 ≠ 0 then s
    else (List.finRange 24).foldl (fun (s : State) d =>
      let m := s.margin
      let cut := match railCluster d.val with | some c => s.clusters[Fin.ofNat 8 c].st.toNat == 6 | none => false
      let a := sextInt m.applied[d].toNat 8
      let t := sextInt (m.target d).toNat 8
      if a = t || cut then s
      else
        let a' := if a < t then a + 1 else a - 1
        if a' = t then s.pushAgenda [⟨.vmargSettled, .domain (BitVec.ofNat 5 d.val)⟩]
        else { s with margin := { m with applied := m.applied.set d (BitVec.ofInt 8 a') } }) s
  if s.run.cycle % 6000 ≠ 0 then s
  else (List.finRange 24).foldl (fun (s : State) (d : Fin 24) =>
    let f := s.takeFree
    { f.2 with margin := { f.2.margin with vmarg := f.2.margin.vmarg.set d (wput f.2.margin.vmarg[d] 48 16 (Config.railReading d.val f.1).toNat) } }) s

/-- LINK_MARGIN_START (R458): the settings are latched; the measurement lasts DWELL whole frames from the next frame boundary. A port whose link is down ends it at
once with ERRS all ones. -/
def execLinkMarginStart (s : State) : Host.Outcome State Fault Refusal :=
  match s.run.input with
  | .port p =>
    let i : Fin 24 := Fin.ofNat 24 p.toNat
    if s.margin.lmrun[i].isSome then .next s
    else if !s.fab.up[i] then .next { s with margin := { s.margin with lmerr := s.margin.lmerr.set i 0xFFFFFFFF } }
    else
      let c := s.margin.lmctl[i]
      let last := s.fab.frame.toNat + 1 + max 1 (wbits c 32 16)
      .next { s with margin := { s.margin with lmrun := s.margin.lmrun.set i (some (c.setWidth 48, last)) } }
  | _ => .next s

/-- LINK_MARGIN_DONE (R458): what the samplers counted is written and BUSY clears. -/
def execLinkMarginDone (s : State) : Host.Outcome State Fault Refusal :=
  match s.run.input with
  | .margin p errs bits =>
    let i : Fin 24 := Fin.ofNat 24 p.toNat
    if s.margin.lmrun[i].isNone then .next s
    else .next { s with margin := { s.margin with lmrun := s.margin.lmrun.set i none, lmerr := s.margin.lmerr.set i (wofNat (errs.toNat + bits.toNat * 2 ^ 32)) } }
  | _ => .next s

/-- BITS of a measurement of `dwell` frames (R6, R379, R458): a lane carries 224 Gb/s and a frame lasts 20,971.52 ns, so 71.68 units of 2^16 bits a frame. -/
def bitsCompared (dwell : Nat) : Nat := 7168 * max 1 dwell / 100

/-- The measurements that end with a frame; how often the samplers disagreed is a free value. -/
def State.marginFrames (s : State) : State :=
  (List.finRange 24).foldl (fun (s : State) p =>
    match s.margin.lmrun[p] with
    | some (c, last) =>
      if s.fab.frame.toNat < last then s
      else
        let f := s.takeFree
        f.2.pushAgenda [⟨.linkMarginDone, .margin (BitVec.ofNat 5 p.val) (Config.counted f.1) (BitVec.ofNat 32 (bitsCompared (c.toNat / 2 ^ 32 % 2 ^ 16)))⟩]
    | none => s) s

end Sys2Proof.Machine
end

