-- ==== Sys2Proof/Machine/Atomic.lean ====
section
/-! DEFINITION. Fences, the ordering parts of atomics, the atomics, and PHASE (R37, R253 to R259, R272 to R280). -/

namespace Sys2Proof.Machine

/-! ## Fences (R257, R277) -/

/-- The release part of an ordered operation at a scope: CLEAN from cluster scope on (R277). -/
def State.releaseAt (s : State) (sc : BitVec 3) : State := if 2 ≤ sc.toNat then s.cleanL1 s.ct else s

/-- The acquire part: FLUSH from cluster scope on. -/
def State.acquireAt (s : State) (sc : BitVec 3) : State := if 2 ≤ sc.toNat then s.flushL1 s.ct else s

/-- A FENCE's actions; one of tile scope or wider lets a later taken branch fetch the thread's earlier stores (R80). -/
def State.fenceAt (s : State) (rel acq : Bool) (sc : BitVec 3) : State :=
  let s := if 1 ≤ sc.toNat then s.modThr (fun t => { t with fenced := s.mems.stores }) else s
  let s := if rel then s.releaseAt sc else s
  if acq then s.acquireAt sc else s

/-- FENCE (R257, R277): relaxed ordering acts as acquire-release and sets WARN.ORD (R37). -/
def execFence (o : BitVec 2) (sc : BitVec 3) (s : State) : Host.Outcome State Fault Refusal :=
  finish s (fun s => waitEngines s (fun s =>
    .ok (if o = 0 then (s.fenceAt true true sc).setWarn 0 else s.fenceAt (o.getLsbD 1) (o.getLsbD 0) sc)))

/-- Every line of the thread's combining buffers is to be sent. -/
def State.sendAll (s : State) : State := s.modThr (·.flushWin (List.finRange 64) .c)

/-- Nothing stands in a combining buffer or waits for an acknowledgement. -/
def Thread.posted (t : Thread) : Bool := (List.finRange 64).all (fun i => t.win[i].lines.isEmpty && t.win[i].flits.isEmpty)

/-- What XFENCE waits for on its earlier path (R278): 0 SCALAR/VECTOR, 1 COPY, 2 MATRIX, 3 GATHER, 4 FABRIC, 5 SYNC. -/
def Thread.pathDone (t : Thread) (p : Nat) : Bool :=
  match p with
  | 1 => t.cmds.isEmpty && t.progs.isEmpty
  | 2 => t.nest.isNone && t.cmds.all (fun c => c.kind != .cpinb)
  | 3 => t.cmds.all (fun c => c.kind != .gather && c.kind != .scatter)
  | 4 => t.posted && t.remotes.isEmpty
  | _ => true

/-- XFENCE (R258, R278): it waits, before its bundle issues, as FENCE does and for its earlier path; relaxed ordering orders nothing toward other agents. -/
def execXfence (o : BitVec 2) (sc e l : BitVec 3) (s : State) : Host.Outcome State Fault Refusal :=
  finish s (fun s => waitEngines s (fun s =>
    let s := if e = 4 then s.sendAll else s
    if !s.thr.pathDone e.toNat then .ok (s.setRes .waitIssue)
    else
      let s := if o = 0 then s else s.fenceAt (o.getLsbD 1) (o.getLsbD 0) sc
      let s := if e = 0 && l ≠ 0 then s.cleanL1 s.ct else s
      .ok (if l = 0 && e ≠ 0 then s.flushL1 s.ct else s)))

/-! ## The operations of R254 -/

/-- The operations of the synchronisation engine, by code. -/
inductive AmOp where
  | add | min | max | and | or | xor | swap | cas | faddc | ldc | ld | st
  deriving DecidableEq, Repr

def AmOp.code : AmOp → Nat
  | .add => 0 | .min => 1 | .max => 2 | .and => 3 | .or => 4 | .xor => 5 | .swap => 6 | .cas => 7 | .faddc => 8 | .ldc => 9 | .ld => 10 | .st => 11

def AmOp.ofCode : Nat → AmOp
  | 0 => .add | 1 => .min | 2 => .max | 3 => .and | 4 => .or | 5 => .xor | 6 => .swap | 7 => .cas | 8 => .faddc | 9 => .ldc | 10 => .ld | _ => .st

def AmOp.pair : AmOp → Bool
  | .faddc => true
  | .ldc => true
  | _ => false

/-- Bytes of the atom (R253, R254). -/
def AmOp.bytes (op : AmOp) (dbl : Bool) : Nat := (if dbl then 8 else 4) * (if op.pair then 2 else 1)

/-- The new memory value and the two words that d may take: `m` is the old memory value, `v` and `cmp` the operands (R152, R254). -/
def AmOp.apply (op : AmOp) (nat dbl : Bool) (m v cmp : Nat) : Nat × Nat × Nat :=
  let w := if dbl then 64 else 32
  let lo := m % 2 ^ w
  let v := v % 2 ^ w
  let less := if nat then decide (v < m) else decide (sextInt v w < sextInt m w)
  match op with
  | .add => ((m + v) % 2 ^ w, m, 0)
  | .min => (if less then v else m, m, 0)
  | .max => (if less then m else v, m, 0)
  | .and => (m &&& v, m, 0)
  | .or => (m ||| v, m, 0)
  | .xor => (m ^^^ v, m, 0)
  | .swap => (v, m, 0)
  | .cas => (if m = cmp % 2 ^ w then v else m, m, 0)
  | .faddc =>
    let p := pairAdd (if dbl then fp64 else fp32) lo (m / 2 ^ w) v
    (p.1 % 2 ^ w + p.2 % 2 ^ w * 2 ^ w, lo, 0)
  | .ldc => if dbl then (m, lo, m / 2 ^ w) else (m, m, 0)
  | .ld => (m, m, 0)
  | .st => (v, 0, 0)

/-- How a synchronisation engine answers: performed, with the words for d; poisoned; or waiting for the coding group. -/
inductive AmAns where
  | done (s : State) (lo hi : Nat)
  | poison
  | ask (atom : Nat)

/-- An atomic at the synchronisation engine of a die (R220, R256). -/
def State.amSync (s : State) (die off : Nat) (op : AmOp) (nat dbl : Bool) (v cmp : Nat) : AmAns :=
  let m := if die = 0 then s.mems.sync0 else s.mems.sync1
  let n := op.bytes dbl
  let r := op.apply nat dbl (m.readN off n) v cmp
  let m := m.writeN off n r.1
  .done { s with mems := if die = 0 then { s.mems with sync0 := m } else { s.mems with sync1 := m } } r.2.1 r.2.2

/-- An atomic on an atom of HBM (R211, R212, R221, R255). -/
def State.amMem (s : State) (loc : Nat) (op : AmOp) (nat dbl : Bool) (v cmp : Nat) : AmAns :=
  let n := op.bytes dbl
  if op = .st then .done (s.hbmWrite loc (leBytes n v)) 0 0
  else match s.needAsk loc n with
    | some u => .ask u
    | none =>
      if !(s.hbmPoison loc n).isEmpty then .poison
      else
        let m := s.hbmNat loc n
        let r := op.apply nat dbl m v cmp
        .done (if r.1 = m && (op = .ld || op = .ldc) then s else s.hbmWrite loc (leBytes n r.1)) r.2.1 r.2.2

/-- What an atomic does beside its access: the tile's L1 holds none of its bytes (R79, R207), and fetch does not see at once what it stores (R80). -/
def State.amCode (s : State) (t h : Nat) (op : AmOp) (p : Piece) : State :=
  let s := match p.place with
    | .mem loc _ => s.evictOwn t loc p.n
    | _ => s
  if op = .ld || op = .ldc then s else s.markStale t h p

/-- An atomic of thread (t, h) at a resolved place. -/
def State.amLocal (s : State) (t h : Nat) (A : Word) (op : AmOp) (nat dbl : Bool) (v cmp : Nat) : Except Stop (Nat × Nat × State) :=
  match s.resolve t h A (op.bytes dbl) .atomic with
  | .error e => .error e
  | .ok ps =>
    if s.shadow t then .error (accessViol 2 A)
    else
      let ans := match ps with
        | [⟨.sync die off, _, _⟩] => some (s.amSync die off op nat dbl v cmp)
        | [⟨.mem loc ty, va, n⟩] => some ((s.amCode t h op ⟨.mem loc ty, va, n⟩).amMem loc op nat dbl v cmp)
        | _ => none
      match ans with
      | some (.done s lo hi) => .ok (lo, hi, s)
      | some .poison => .error (poisoned A)
      | some (.ask u) => .error (.ask u)
      | none => .error (accessViol 2 A)

/-! ## The instruction (R253 to R256) -/

/-- What an ordering code makes an atomic do (R37, R276): a FENCE before, a release, an acquire, a FENCE after, a warning. -/
structure AmOrder where
  before : Bool := false
  rel    : Bool := false
  acq    : Bool := false
  after  : Bool := false
  warn   : Bool := false

def AmOrder.of (op : AmOp) (o : BitVec 2) : AmOrder :=
  let a := o.getLsbD 0
  let r := o.getLsbD 1
  match op with
  | .st => { rel := r, after := a, warn := a }
  | .ld => { acq := a, before := r, warn := r }
  | .ldc => { acq := a, before := r, warn := r }
  | _ => { rel := r, acq := a }

/-- The words that d, or d and d + 1, take (R254). -/
def State.amResult (s : State) (op : AmOp) (dbl : Bool) (d : BitVec 5) (lo hi : Nat) : State :=
  match op with
  | .st => s
  | .ldc => if dbl then (s.W d (wofNat lo)).W (d + 1) (wofNat hi) else s.W d (wofNat lo)
  | _ => s.W d (wofNat lo)

/-- What precedes the access: the FENCE or the release part. -/
def State.amBefore (s : State) (p : AmOrder) (sc : BitVec 3) : State :=
  let s := if p.before then s.fenceAt true true sc else s
  if p.rel then s.releaseAt sc else s

/-- What follows it: the acquire part or the FENCE, and the warnings. -/
def State.amAfter (s : State) (p : AmOrder) (sc : BitVec 3) (localAddr : Bool) : State :=
  let s := if p.acq then s.acquireAt sc else s
  let s := if p.after then s.fenceAt true true sc else s
  (s.warnIf p.warn 0).warnIf (localAddr && sc = 7) 1

/-- An atomic on this module. -/
def atomicHere (op : AmOp) (nat : Bool) (p : AmOrder) (sc : BitVec 3) (d a b : BitVec 5) (dbl : Bool) (s : State) : Res := do
  let A := s.X a
  if A.toNat % op.bytes dbl ≠ 0 then .error (misaligned 2 A)
  else do
    let (lo, hi, t) ← (s.amBefore p sc).amLocal s.ct s.ch A op nat dbl (s.X b).toNat (s.X d).toNat
    return (t.amResult op dbl d lo hi).amAfter p sc (s.isLocal s.ct A)

/-- A remote atomic (R255): the request leaves once; the stream is held until the answer is here. DEDUCED (log entry 58), unsafe. -/
def atomicRemote (op : AmOp) (nat : Bool) (p : AmOrder) (sc : BitVec 3) (d a b : BitVec 5) (dbl : Bool) (s : State) : Res :=
  let A := s.X a
  if wbits A 0 48 % op.bytes dbl ≠ 0 then .error (misaligned 2 A)
  else do
    if !s.shadow s.ct then s.awaitEntry (s.ctxOf s.ct) (wbits A 48 16)
    match (if s.shadow s.ct then none else s.remoteCheck (s.ctxOf s.ct) (wbits A 48 16) (wbits A 0 48) (op.bytes dbl) 2 false) with
    | none => .error (accessViol 2 A)
    | some (e, req) =>
      if e.kind = 2 then .error (accessViol 2 A)
      else match s.thr.remotes.find? (fun r => r.stream == s.slot) with
        | none =>
          let s := s.amBefore p sc
          .ok ((s.sendRemote (BitVec.ofNat 20 e.peer) (.atomicReq req (BitVec.ofNat 6 op.code) nat dbl (s.X b) (s.X d) s.origin) []).setRes .held)
        | some r =>
          match r.ans with
          | .waiting => .error .hold
          | .word 0 lo hi => .ok ((s.dropRemotes.amResult op dbl d lo.toNat hi.toNat).amAfter p sc false)
          | .word 2 _ _ => .error (poisoned A)
          | _ => .error (accessViol 2 A)

/-- An atomic: a release, or a FENCE of a fallback, waits for earlier engine syllables (R276). -/
def atomic (op : AmOp) (nat : Bool) (o : BitVec 2) (sc : BitVec 3) (d a b : BitVec 5) (z : BitVec 2) (r : BitVec 1) (s : State) : Res :=
  let p := AmOrder.of op o
  let body := fun s => if r = 1 then atomicRemote op nat p sc d a b (z = 1) s else atomicHere op nat p sc d a b (z = 1) s
  if p.rel || p.before || p.after then waitEngines s body else body s

/-- AMADD (R254). -/
def execAmadd (o : BitVec 2) (sc : BitVec 3) (d a b : BitVec 5) (z : BitVec 2) (r : BitVec 1) (s : State) : Host.Outcome State Fault Refusal :=
  finish s (atomic .add false o sc d a b z r)

/-- AMMIN (R254). -/
def execAmmin (o : BitVec 2) (sc : BitVec 3) (d a b : BitVec 5) (z : BitVec 2) (r : BitVec 1) (s : State) : Host.Outcome State Fault Refusal :=
  finish s (atomic .min false o sc d a b z r)

/-- AMMINN (R254). -/
def execAmminn (o : BitVec 2) (sc : BitVec 3) (d a b : BitVec 5) (z : BitVec 2) (r : BitVec 1) (s : State) : Host.Outcome State Fault Refusal :=
  finish s (atomic .min true o sc d a b z r)

/-- AMMAX (R254). -/
def execAmmax (o : BitVec 2) (sc : BitVec 3) (d a b : BitVec 5) (z : BitVec 2) (r : BitVec 1) (s : State) : Host.Outcome State Fault Refusal :=
  finish s (atomic .max false o sc d a b z r)

/-- AMMAXN (R254). -/
def execAmmaxn (o : BitVec 2) (sc : BitVec 3) (d a b : BitVec 5) (z : BitVec 2) (r : BitVec 1) (s : State) : Host.Outcome State Fault Refusal :=
  finish s (atomic .max true o sc d a b z r)

/-- AMAND (R254). -/
def execAmand (o : BitVec 2) (sc : BitVec 3) (d a b : BitVec 5) (z : BitVec 2) (r : BitVec 1) (s : State) : Host.Outcome State Fault Refusal :=
  finish s (atomic .and false o sc d a b z r)

/-- AMOR (R254). -/
def execAmor (o : BitVec 2) (sc : BitVec 3) (d a b : BitVec 5) (z : BitVec 2) (r : BitVec 1) (s : State) : Host.Outcome State Fault Refusal :=
  finish s (atomic .or false o sc d a b z r)

/-- AMXOR (R254). -/
def execAmxor (o : BitVec 2) (sc : BitVec 3) (d a b : BitVec 5) (z : BitVec 2) (r : BitVec 1) (s : State) : Host.Outcome State Fault Refusal :=
  finish s (atomic .xor false o sc d a b z r)

/-- AMSWAP (R254). -/
def execAmswap (o : BitVec 2) (sc : BitVec 3) (d a b : BitVec 5) (z : BitVec 2) (r : BitVec 1) (s : State) : Host.Outcome State Fault Refusal :=
  finish s (atomic .swap false o sc d a b z r)

/-- AMCAS (R254). -/
def execAmcas (o : BitVec 2) (sc : BitVec 3) (d a b : BitVec 5) (z : BitVec 2) (r : BitVec 1) (s : State) : Host.Outcome State Fault Refusal :=
  finish s (atomic .cas false o sc d a b z r)

/-- AMFADDC (R152, R254). -/
def execAmfaddc (o : BitVec 2) (sc : BitVec 3) (d a b : BitVec 5) (z : BitVec 2) (r : BitVec 1) (s : State) : Host.Outcome State Fault Refusal :=
  finish s (atomic .faddc false o sc d a b z r)

/-- AMLDC (R254). -/
def execAmldc (o : BitVec 2) (sc : BitVec 3) (d a b : BitVec 5) (z : BitVec 2) (r : BitVec 1) (s : State) : Host.Outcome State Fault Refusal :=
  finish s (atomic .ldc false o sc d a b z r)

/-- AMLD (R254). -/
def execAmld (o : BitVec 2) (sc : BitVec 3) (d a b : BitVec 5) (z : BitVec 2) (r : BitVec 1) (s : State) : Host.Outcome State Fault Refusal :=
  finish s (atomic .ld false o sc d a b z r)

/-- AMST (R254). -/
def execAmst (o : BitVec 2) (sc : BitVec 3) (a b : BitVec 5) (z : BitVec 2) (r : BitVec 1) (s : State) : Host.Outcome State Fault Refusal :=
  finish s (atomic .st false o sc 0 a b z r)

/-! ## PHASE (R259, R274, R280) -/

/-- The member tiles of an instance: those of a context whose DOMID of the level names it; the shadow tiles of a dual run are an instance of their own. -/
def State.phaseTiles (s : State) (p : PhaseInst) : List Nat :=
  (List.range 128).filter (fun t =>
    let x := s.tileAt t
    let w := x.domid[Fin.ofNat 5 (p.level - 2)]
    x.ctx + (if x.twin.isSome then 64 else 0) == p.ctx && wbit w 63 && wbits w 0 32 == p.inst.toNat)

/-- The number under which a thread arrives: its node and its rank, which a save keeps (R462). -/
def State.rankOf (s : State) (t h : Nat) : Nat := ((s.tileAt t).node.getD 0) * 2 ^ 19 + (s.threadAt t h).flow.rank

/-- What other modules have said of an instance that lies on several of them (R259). -/
def State.phaseSays (s : State) (p : PhaseInst) : List PeerPhase :=
  s.mems.peerPh.filter (fun q => q.level.toNat == p.level && q.inst == p.inst && q.key == (s.ctxAt (p.ctx % 64)).record.key && q.twin == decide (64 ≤ p.ctx))

/-- The tiles of another module that are through with the present phase; those of its ended nodes where it has said nothing of this phase yet. -/
def PhaseInst.share (p : PhaseInst) (qs : List PeerPhase) : Nat :=
  match qs.find? (fun q => q.count == p.count) with
  | some q => q.tiles
  | none => (qs.filter (fun q => q.count < p.count)).foldl (fun n q => max n q.gone) 0

/-- The tiles of other modules that are through, and those of them that are gone. -/
def State.phaseOthers (s : State) (p : PhaseInst) : Nat × Nat :=
  let qs := s.phaseSays p
  ((qs.map (·.peer)).eraseDups.foldl (fun (n : Nat × Nat) m =>
    let mine := qs.filter (fun q => q.peer == m)
    (n.1 + p.share mine, n.2 + (mine.getLast?.map (·.gone)).getD 0)) (0, 0))

/-- Every thread of every member tile of this module has arrived or ended: a thread that has ended counts as arrived (R259). -/
def State.phaseLocal (s : State) (p : PhaseInst) : Bool :=
  (s.phaseTiles p).all (fun t => (List.range 4).all (fun h => (s.threadAt t h).flow.status != .running || p.arrived.contains (s.rankOf t h)))

/-- Every thread of every member tile has arrived or ended, on every module that holds one, and some thread has arrived. -/
def State.phaseFull (s : State) (p : PhaseInst) : Bool :=
  s.phaseLocal p && p.tiles ≤ (s.phaseTiles p).length + p.gone + (s.phaseOthers p).1 && (!p.arrived.isEmpty || (s.phaseSays p).any (fun q => q.count == p.count && q.live))

/-- The nodes of a device instance that are to be pre-empted at a phase that leaves its counter even (R368, R369). -/
def State.coopNodes (s : State) (p : PhaseInst) : List Nat :=
  if p.level ≠ 4 || p.count % 2 = 0 then []
  else ((s.phaseTiles p).filterMap (fun t => (s.tileAt t).node)).eraseDups.filter (fun n =>
    s.disp.nodes.any (fun x => x.id == n && x.req.isSome && x.pkt.flags.getLsbD 1))

def PhaseInst.same (p q : PhaseInst) : Bool := q.level == p.level && q.inst == p.inst && q.ctx == p.ctx

/-- An instance takes a new value. -/
def State.updPhase (s : State) (p : PhaseInst) (f : PhaseInst → PhaseInst) : State :=
  { s with mems := { s.mems with phases := s.mems.phases.map (fun q => if p.same q then f q else q) } }

/-- A completed phase: the counter advances, and its members fetch what any of them stored (R80); a node that is to be pre-empted here is at its cooperative point
(R368). -/
def State.phaseDone (s : State) (p : PhaseInst) : State :=
  let s := (s.coopNodes p).foldl (fun (s : State) n => s.urgent .cooperativePoint (.node n)) s
  let ms := ((s.phaseTiles p).map (fun t => [4 * t, 4 * t + 1, 4 * t + 2, 4 * t + 3])).flatten
  (s.updPhase p (fun q => { q with count := (q.count + 1) % 2 ^ 64, arrived := [], told := 0 })).phaseSync ms

/-- The other modules of the load-store domain are told how many tiles of this one are through with the present phase. -/
def State.phaseTell (s : State) (p : PhaseInst) : State :=
  let n := (s.phaseTiles p).length + p.gone
  let f : Flit := .phase (BitVec.ofNat 3 p.level) p.inst (s.ctxAt (p.ctx % 64)).record.key (decide (64 ≤ p.ctx)) p.count n p.gone (!p.arrived.isEmpty)
  let ms := (List.range s.systemSize).filter (fun m => m != s.modNum.toNat && s.sameDomain s.modNum.toNat m)
  (ms.foldl (fun (s : State) m => s.emit (BitVec.ofNat 20 m) f) s).updPhase p (fun q => { q with told := n })

/-- An instance as it stands completes its phase when its last missing thread has arrived or ended; a share of a wider one that is complete here is told to the others; one
whose tiles are all gone is over. -/
def State.phaseStep (s : State) (p : PhaseInst) : State :=
  let s := if 5 ≤ p.level && s.phaseLocal p && p.told < (s.phaseTiles p).length + p.gone then s.phaseTell p else s
  if s.phaseFull p then s.phaseDone p
  else if 5 ≤ p.level && (s.phaseTiles p).isEmpty && p.tiles ≤ p.gone + (s.phaseOthers p).2 then
    let shares := s.phaseSays p
    { s with mems := { s.mems with phases := s.mems.phases.filter (fun q => !p.same q), peerPh := s.mems.peerPh.filter (fun q => !shares.contains q) } }
  else s

def State.phaseRound (s : State) : State := s.mems.phases.foldl State.phaseStep s

/-- Every instance is looked at: what completes a phase may also complete a share of the next. -/
def State.phaseCheck (s : State) : State := s.phaseRound.phaseRound

/-- The instance that a thread's PHASE names. DEDUCED (log entry 44), unsafe. -/
def State.phaseOf (s : State) (t : Nat) (level : Nat) : PhaseInst :=
  let x := s.tileAt t
  let c := x.ctx + (if x.twin.isSome then 64 else 0)
  let w := x.domid[Fin.ofNat 5 (level - 2)]
  let i := BitVec.ofNat 32 (wbits w 0 32)
  (s.mems.phases.find? (fun p => p.level == level && p.inst == i && p.ctx == c)).getD ⟨level, i, c, 0, [], wbits w 32 20, 0, 0⟩

/-- An arrival at an instance. -/
def State.phaseArrive (s : State) (p : PhaseInst) (who : Nat) : State :=
  let p' := { p with arrived := insNat who p.arrived }
  State.phaseCheck { s with mems := { s.mems with phases := s.mems.phases.filter (fun q => !p.same q) ++ [p'] } }

/-- Another module's word on its share of an instance; of each module the last two phases are kept (DESIGN CHOICE, log entry 131). -/
def State.phaseSaid (s : State) (q : PeerPhase) : State :=
  if q.level.toNat < 5 then s
  else
    let old := fun (x : PeerPhase) => x.level == q.level && x.inst == q.inst && x.key == q.key && x.twin == q.twin && x.peer == q.peer && (x.count == q.count || x.count + 1 < q.count)
    State.phaseCheck { s with mems := { s.mems with peerPh := s.mems.peerPh.filter (fun x => !old x) ++ [q] } }

/-! ### Instances and nodes -/

/-- The instance of the group or the domain level that a node's tiles join, with its member tiles. -/
def Node.wide (n : Node) (r : CtxRec) (level : Nat) : Option (BitVec 32 × Nat) :=
  if level = 5 then (if n.desc.group.getLsbD 31 then some (n.desc.group.setWidth 31 |>.setWidth 32, n.desc.gtiles % 2 ^ 20) else none)
  else (if r.domain.getLsbD 31 then some (r.domain.setWidth 31 |>.setWidth 32, r.dtiles % 2 ^ 20) else none)

/-- `k` tiles join a wider instance: it is created with counter 0 (R274), or they take the places of tiles that are gone. -/
def State.joinWide (s : State) (c level k : Nat) (i : BitVec 32) (tiles : Nat) : State :=
  let p : PhaseInst := ⟨level, i, c, 0, [], tiles, 0, 0⟩
  if k = 0 then s
  else if s.mems.phases.any p.same then s.updPhase p (fun q => { q with gone := q.gone - k, told := 0 })
  else { s with mems := { s.mems with phases := s.mems.phases ++ [p] } }

/-- A placed node's tiles join its wider instances. -/
def State.joinPhases (s : State) (n : Node) (r : CtxRec) : State :=
  [5, 6].foldl (fun (s : State) l =>
    match n.wide r l with
    | some (i, k) => (s.joinWide n.pkt.ctx l n.tiles.length i k).joinWide (n.pkt.ctx + 64) l n.shadow.length i k
    | none => s) s

/-- The tiles of a node that has ended are gone from its wider instances, whose other modules are told; its own instances are no more. -/
def State.leavePhases (s : State) (n : Node) : State :=
  let own := fun (p : PhaseInst) =>
    ((p.level == 2 || p.level == 3) && p.inst.toNat / 128 == n.id % 2 ^ 25) || (p.level == 4 && p.inst.toNat == n.id % 2 ^ 32)
  let s := { s with mems := { s.mems with phases := s.mems.phases.filter (fun p => !own p) } }
  let r := (s.ctxAt n.pkt.ctx).record
  let leave := fun (s : State) (c k : Nat) (l : Nat) (i : BitVec 32) =>
    match s.mems.phases.find? (fun q => q.level == l && q.inst == i && q.ctx == c) with
    | some q => if k = 0 then s else (s.updPhase q (fun q => { q with gone := q.gone + k })).phaseTell { q with gone := q.gone + k }
    | none => s
  State.phaseCheck ([5, 6].foldl (fun (s : State) l =>
    match n.wide r l with
    | some (i, _) => leave (leave s n.pkt.ctx n.tiles.length l i) (n.pkt.ctx + 64) n.shadow.length l i
    | none => s) s)

/-- PHASE (R259, R280): it waits as FENCE does, sends and awaits the posted writes, cleans the L1, arrives, holds until the counter moves, flushes the L1
and writes the counter. In a trap handler it is illegal (R362). -/
def execPhase (sc : BitVec 3) (d : BitVec 5) (s : State) : Host.Outcome State Fault Refusal :=
  finish s (fun s =>
    let p := s.phaseOf s.ct sc.toNat
    let leave := fun (s : State) (n : Nat) => (s.flushL1 s.ct).W d (wofNat n)
    match s.thr.flow.held with
    | .phase _ from_ => if p.count = from_ then .error .hold else .ok (leave s p.count)
    | _ =>
      if s.active then .error illegal
      else if !wbit s.tile.domid[Fin.ofNat 5 (sc.toNat - 2)] 63 then .error (accessViol 0 0)
      else waitEngines s (fun s =>
        let s := s.sendAll
        if !s.thr.posted then .ok (s.setRes .waitIssue)
        else
          let s := (s.cleanL1 s.ct).phaseArrive p (s.rankOf s.ct s.ch)
          .ok ((s.modThr (fun t => { t with flow := { t.flow with held := .phase sc.toNat p.count } })).setRes .held)))

end Sys2Proof.Machine
end

