-- ==== Sys2Proof/Machine/Barrier.lean ====
section
/-! DEFINITION. The transaction barrier instructions (R244 to R250). -/

namespace Sys2Proof.Machine

/-- X(a) as the own-scratchpad offset of a barrier: misaligned access, then access violation (R248). -/
def State.barAddr (s : State) (x : Word) : Except Stop Nat :=
  if x.toNat % 16 ≠ 0 then .error (misaligned 0 x)
  else (s.localRange x 16 { own := true }).map s.ownOff

/-- The offset of a live barrier. -/
def State.liveBar (s : State) (x : Word) : Except Stop Nat := do
  let off ← s.barAddr x
  if s.tile.live off then return off else .error (accessViol 0 x)

/-- The lowest free TBREG. -/
def Thread.tbFree (t : Thread) : Option (Fin 16) := (List.finRange 16).find? (fun i => !tbValid t.csr.tbreg[i])

def Thread.setTb (t : Thread) (i : Fin 16) (v : Word) : Thread := { t with csr := { t.csr with tbreg := t.csr.tbreg.set i v } }

/-- The expectation `e` would take sec above 2^39 − 1 (R248). -/
def Bar.tooMany (g : Bar) (e : Word) : Bool := 2 ^ 39 ≤ e.toNat || (2 ^ 39 - 1 : Int) < sextInt g.sec 40 + e.toNat

/-- TBINIT (R248). -/
def execTbinit (d a b : BitVec 5) (n : BitVec 1) (s : State) : Host.Outcome State Fault Refusal :=
  finish s (fun s => do
    let off ← s.barAddr (s.X a)
    match s.thr.tbFree with
    | none => .error (accessViol 0 (s.X a))
    | some i =>
      let c := s.X b
      if s.tile.live off || 2 ^ 20 ≤ c.toNat then .error (accessViol 0 (s.X a))
      else
        let g : Bar := { phase := 0, arr := c.toNat, notify := n = 1, sticky := false, dropped := false, sec := 0, reload := c.toNat }
        let s := s.modTile (fun x => { x.setBar off g with tags := insNat off x.tags })
        return (s.modThr (·.setTb i (tbEntry off (n = 1) false 0))).W d (wofNat i.val))

/-- TBJOIN (R248). -/
def execTbjoin (d a : BitVec 5) (s : State) : Host.Outcome State Fault Refusal :=
  finish s (fun s => do
    let off ← s.liveBar (s.X a)
    match s.thr.tbFind off, s.thr.tbFree with
    | none, some i => return (s.modThr (·.setTb i (tbEntry off false false 0))).W d (wofNat i.val)
    | _, _ => .error (accessViol 0 (s.X a)))

/-- TBARRIVE (R248): a second arrival in one phase waits; with no arrival pending it only expects, and sets STICKY. -/
def execTbarrive (d a b : BitVec 5) (s : State) : Host.Outcome State Fault Refusal :=
  finish s (fun s => do
    let off ← s.liveBar (s.X a)
    match s.thr.tbFind off with
    | none => .error (accessViol 0 (s.X a))
    | some i =>
      let r := s.thr.csr.tbreg[i]
      let g := s.tile.bar off
      let e := s.X b
      if 2 ^ 39 ≤ e.toNat then .error (accessViol 0 (s.X a))
      else if tbArrived r && tbPhase r == g.phase then .error .hold
      else if g.tooMany e then .error (accessViol 0 (s.X a))
      else if g.arr = 0 then
        return (s.modTile (fun x => (x.barSticky off).barUpdate off 0 e.toNat 0 0)).W d (wofNat g.phase)
      else
        return (((s.modThr (·.setTb i (tbEntry off (tbNotify r) true g.phase))).modTile (·.barUpdate off 1 e.toNat 0 0))).W d (wofNat g.phase))

/-- TBEXPECT (R248). -/
def execTbexpect (a b : BitVec 5) (s : State) : Host.Outcome State Fault Refusal :=
  finish s (fun s => do
    let off ← s.liveBar (s.X a)
    if (s.tile.bar off).tooMany (s.X b) then .error (accessViol 0 (s.X a))
    else return s.modTile (·.barUpdate off 0 (s.X b).toNat 0 0))

/-- TBWAIT (R248): held while the barrier's phase is X(b)[3:0]. -/
def execTbwait (d a b : BitVec 5) (s : State) : Host.Outcome State Fault Refusal :=
  finish s (fun s => do
    let off ← s.liveBar (s.X a)
    if (s.tile.bar off).phase = wbits (s.X b) 0 4 then .error .hold
    else return s.W d (wofNat (s.tile.spad.mem.readN off 8)))

/-- TBDROP (R248, R250). -/
def execTbdrop (a : BitVec 5) (s : State) : Host.Outcome State Fault Refusal :=
  finish s (fun s => do
    let off ← s.liveBar (s.X a)
    match s.thr.tbFind off with
    | none => .error (accessViol 0 (s.X a))
    | some i => return s.modTile (·.tbDrop s.ch i false))

/-- TBPOLL (R248). -/
def execTbpoll (d a : BitVec 5) (h : BitVec 1) (s : State) : Host.Outcome State Fault Refusal :=
  finish s (fun s => do
    let off ← s.liveBar (s.X a)
    return s.W d (wofNat (s.tile.spad.mem.readN (if h = 1 then off + 8 else off) 8)))

end Sys2Proof.Machine
end

