-- ==== Sys2Proof/Machine/Keccak.lean ====
section
/-! DEFINITION. The two fixed functions that the boot chain and the commit records name: SHAKE256 of FIPS 202 (R120, R123, R441) and the verification of an
SLH-DSA-SHAKE-192s signature of FIPS 205 (R120, R121). The spec names both standards and does not repeat them. -/

namespace Sys2Proof.Machine

/-! ## Keccak-f[1600] and SHAKE256 -/

/-- Bit t of the round constants' generator: eight bits are shifted, and feedback enters at places 0, 4, 5 and 6. -/
def keccakShift (r : Nat) : Nat := if r < 128 then 2 * r else (2 * r - 256) ^^^ 0x71

/-- The generator's low bit after t shifts from 1. -/
def keccakBit : Nat → Nat → Bool
  | 0, r => r % 2 == 1
  | t + 1, r => keccakBit t (keccakShift r)

/-- What round k adds to lane 0: seven bits of the generator stand at the places 2^j - 1. -/
def keccakRc (k : Nat) : Word := wofNat ((List.range 7).foldl (fun v j => if keccakBit (7 * k + j) 1 then v + 2 ^ (2 ^ j - 1) else v) 0)

/-- The walk over the 24 lanes other than (0, 0): the t-th one met turns by (t + 1)(t + 2)/2. The pairs are a lane's place, x + 5y, and its turn. -/
def keccakWalk : Nat → Nat → Nat → Nat → List (Nat × Nat)
  | 0, _, _, _ => []
  | n + 1, t, x, y => (x + 5 * y, (t + 1) * (t + 2) / 2 % 64) :: keccakWalk n (t + 1) y ((2 * x + 3 * y) % 5)

/-- The turn of the lane at a place. -/
def keccakTurn (p : Nat) : Nat := (((keccakWalk 24 0 1 0).find? (fun q => q.1 == p)).map (fun q => q.2)).getD 0

/-- The lane of a state at (x, y), both modulo 5. -/
def laneAt (a : List Word) (x y : Nat) : Word := a.getD (x % 5 + 5 * (y % 5)) 0

/-- The parity of column x. -/
def laneColumn (a : List Word) (x : Nat) : Word := (List.range 5).foldl (fun v y => v ^^^ laneAt a x y) 0

/-- A state from its lanes by (x, y). -/
def lanes (f : Nat → Nat → Word) : List Word := (List.range 25).map (fun p => f (p % 5) (p / 5))

/-- The linear steps: every lane takes the parities of two neighbour columns, turns, and moves to (y, 2x + 3y); read from the target, lane (x, y) comes from (x + 3y, x). -/
def keccakMix (a : List Word) : List Word :=
  lanes (fun x y =>
    let u := (x + 3 * y) % 5
    (laneAt a u x ^^^ laneColumn a (u + 4) ^^^ (laneColumn a (u + 1)).rotateLeft 1).rotateLeft (keccakTurn (u + 5 * x)))

/-- The non-linear step along each row, and the constant of round k. -/
def keccakRound (a : List Word) (k : Nat) : List Word :=
  let b := keccakMix a
  lanes (fun x y => laneAt b x y ^^^ (laneAt b (x + 2) y &&& ~~~laneAt b (x + 1) y) ^^^ (if x + y = 0 then keccakRc k else 0))

/-- The permutation: 24 rounds on 25 lanes. -/
def keccakF (a : List Word) : List Word := (List.range 24).foldl keccakRound a

/-- A block of 136 bytes is taken in. -/
def shakeBlock (a : List Word) (b : List Byte) : List Word :=
  keccakF (a.zipIdx.map (fun q => if q.2 < 17 then q.1 ^^^ wofNat (leAt b (8 * q.2) 8) else q.1))

/-- The message in blocks, the last one padded; `n` bounds their number. -/
def shakeIn : Nat → List Word → List Byte → List Word
  | 0, a, m =>
    let p := m.take 135 ++ [0x1F] ++ List.replicate (135 - (m.take 135).length) 0
    shakeBlock a (p.take 135 ++ [p.getD 135 0 ||| 0x80])
  | n + 1, a, m => shakeIn n (shakeBlock a (m.take 136)) (m.drop 136)

/-- `n` blocks of output. -/
def shakeOut : Nat → List Word → List Byte
  | 0, _ => []
  | n + 1, a => ((a.take 17).map (fun w => leBytes 8 w.toNat)).flatten ++ shakeOut n (keccakF a)

/-- The first `n` bytes of SHAKE256. -/
def shake (m : List Byte) (n : Nat) : List Byte := (shakeOut ((n + 135) / 136) (shakeIn (m.length / 136) (List.replicate 25 0) m)).take n

/-- SHAKE256 truncated to 512 bits. -/
def shake256 (m : List Byte) : BitVec 512 := BitVec.ofNat 512 (leNat (shake m 64))

/-! ## SLH-DSA-SHAKE-192s: n = 24, h = 63, d = 7, h' = 9, a = 14, k = 17, lg w = 4, m = 39 -/

/-- The most significant byte first. -/
def beBytes (n v : Nat) : List Byte := (leBytes n v).reverse
def beNat (b : List Byte) : Nat := leNat b.reverse

/-- An address: layer, tree, type, and the three words that the type gives a meaning. -/
structure SlhAdrs where
  layer : Nat
  tree  : Nat
  kind  : Nat
  w1    : Nat
  w2    : Nat
  w3    : Nat

def SlhAdrs.bytes (x : SlhAdrs) : List Byte := beBytes 4 x.layer ++ beBytes 12 x.tree ++ beBytes 4 x.kind ++ beBytes 4 x.w1 ++ beBytes 4 x.w2 ++ beBytes 4 x.w3

/-- The tweaked hashes F, H and T, each 24 bytes. -/
def slhHash (seed : List Byte) (x : SlhAdrs) (m : List Byte) : List Byte := shake (seed ++ x.bytes ++ m) 24

/-- The first `n` numbers of `b` bits in a byte string, from its most significant bit. -/
def slhDigits (m : List Byte) (b n : Nat) : List Nat := (List.range n).map (fun i => beNat m / 2 ^ (8 * m.length - b * (i + 1)) % 2 ^ b)

/-- Bytes 24i on of a signature. -/
def slhPart (sig : List Byte) (i n : Nat) : List Byte := (sig.drop (24 * i)).take (24 * n)

/-- A one-time public key from its signature: the chains run on to their ends. -/
def slhWots (seed : List Byte) (x : SlhAdrs) (sig m : List Byte) : List Byte :=
  let d := slhDigits m 4 48
  let sum := d.foldl (fun c v => c + (15 - v)) 0
  let digits := d ++ slhDigits (beBytes 2 (16 * sum)) 4 3
  let ends := digits.zipIdx.map (fun (p : Nat × Nat) =>
    (List.range (15 - p.1)).foldl (fun v j => slhHash seed { x with kind := 0, w2 := p.2, w3 := p.1 + j } v) (slhPart sig p.2 1))
  slhHash seed { x with kind := 1, w2 := 0, w3 := 0 } ends.flatten

/-- Up a tree from a node with its authentication path: at each height the index says on which side the node stands. -/
def slhClimb (seed : List Byte) (x : SlhAdrs) (path : List Byte) (levels idx base : Nat) (node : List Byte) : List Byte :=
  (List.range levels).foldl (fun v k =>
    let other := slhPart path k 1
    slhHash seed { x with w2 := k + 1, w3 := (base + idx) / 2 ^ (k + 1) } (if idx / 2 ^ k % 2 = 0 then v ++ other else other ++ v)) node

/-- The public key of the few-time signature. -/
def slhFors (seed : List Byte) (tree leaf : Nat) (sig md : List Byte) : List Byte :=
  let roots := (slhDigits md 14 17).zipIdx.map (fun (p : Nat × Nat) =>
    let x : SlhAdrs := ⟨0, tree, 3, leaf, 0, p.2 * 2 ^ 14 + p.1⟩
    slhClimb seed x (slhPart sig (15 * p.2 + 1) 14) 14 p.1 (p.2 * 2 ^ 14) (slhHash seed x (slhPart sig (15 * p.2) 1)))
  slhHash seed ⟨0, tree, 4, leaf, 0, 0⟩ roots.flatten

/-- The root that the hypertree's signatures lead to. -/
def slhRoot (seed : List Byte) (tree leaf : Nat) (sig m : List Byte) : List Byte :=
  ((List.range 7).foldl (fun (r : List Byte × Nat × Nat) j =>
    let part := slhPart sig (60 * j) 60
    let pk := slhWots seed ⟨j, r.2.1, 0, r.2.2, 0, 0⟩ part r.1
    (slhClimb seed ⟨j, r.2.1, 2, 0, 0, 0⟩ (slhPart part 51 9) 9 r.2.2 0 pk, r.2.1 / 512, r.2.1 % 512)) (m, tree, leaf)).1

/-- The signature of a message under a public key of 48 bytes verifies; the message is signed in the pure form with an empty context (PRESUMED, log entry 144: R120 names the algorithm and the bytes
signed, not the form). -/
def slhVerify (key sig m : List Byte) : Bool :=
  let seed := key.take 24
  let digest := shake (sig.take 24 ++ key ++ [0, 0] ++ m) 39
  let tree := beNat ((digest.drop 30).take 7) % 2 ^ 54
  let leaf := beNat ((digest.drop 37).take 2) % 512
  sig.length == 16224 && key.length == 48 &&
    slhRoot seed tree leaf (sig.drop (24 * 256)) (slhFors seed tree leaf (slhPart sig 1 255) (digest.take 30)) == key.drop 24

end Sys2Proof.Machine
end

