-- ==== Sys2Proof/Machine/Region.lean ====
section
/-! DEFINITION. Segments (R409 to R413) and containment regions (R414 to R418): SEGBEGIN, SEGEND, CROPEN, CRCLOSE, the deadline and the array fault. -/

namespace Sys2Proof.Machine

def State.modSeg (s : State) (f : Segment → Segment) : State := s.modThr (fun t => { t with seg := f t.seg })

/-- SEGBEGIN (R409). -/
def execSegbegin (a : BitVec 5) (s : State) : Host.Outcome State Fault Refusal :=
  finish s (fun s =>
    if s.thr.seg.isOpen then .error illegal
    else waitEngines s (fun s =>
      let x := s.X a
      if wbits x 40 24 ≠ 0 then .error (accessViol 0 x)
      else .ok (s.modSeg (fun g => ⟨true, 0, 0xFFFFFFFF, x.setWidth 40, x ≠ 0, 0, g.id + 1, [], false⟩))))

/-- SEGEND (R409): the segment closes and the measured count is delivered; a mismatch raises cause 10 at the boundary after its bundle. DEDUCED (log entry 51), unsafe.
DEDUCED (log entry 52), unsafe. -/
def execSegend (d a b : BitVec 5) (s : State) : Host.Outcome State Fault Refusal :=
  finish s (fun s =>
    if !s.thr.seg.isOpen then .error illegal
    else waitEngines s (fun s =>
      let g := s.thr.seg
      let bad := natOfBool (g.count != (s.X a).setWidth 40) + 2 * natOfBool (g.sig ^^^ 0xFFFFFFFF != (s.X b).setWidth 32)
      .ok ((s.modSeg (fun g => { g with isOpen := false, bad := bad })).W d (g.count.setWidth 64))))

/-- The sub-arrays that hold the cells of some blocks (R449). -/
def Geom.subArrays (g : Geom) (names : List Nat) : List Nat :=
  (names.map (fun (L : Nat) =>
    let rows := ((g.rows.drop (64 * (L / 4 % 4))).take 64).map (· / 16)
    let cols := ((g.cols.drop (64 * (L % 4))).take 64).map (· / 16)
    (rows.eraseDups.map (fun r => cols.eraseDups.map (fun c => 17 * r + c))).flatten)).flatten.foldr insNat []

/-- The SIG count of a health record (R452). -/
def State.bumpSig (s : State) (a : Nat) : State := s.mramWrite (a + 14) (leBytes 1 (min (s.mems.mram.readN (a + 14) 1 + 1) 0xFF))

/-- The SIG counts of the sub-arrays and, where vector syllables ran, of every lane (R452). -/
def State.sigEvent (s : State) (t : Nat) (arrays : List Nat) (lanes : Bool) : State :=
  let s := arrays.foldl (fun (s : State) i => s.bumpSig (healthBase t + 16 * i)) s
  if lanes then (List.range 256).foldl (fun (s : State) i => s.bumpSig (healthBase t + 0x1400 + 16 * i)) s else s

/-- The segment-signature trap that SEGEND left due (R409): TEPC names the next bundle. It is counted in the health records of every sub-array and lane that the segment used (R452). -/
def State.segFault (s : State) : State :=
  if s.thr.seg.bad = 0 then s
  else
    let n := s.thr.seg.bad
    let s := s.sigEvent s.ct s.thr.seg.arrays s.thr.seg.lanes
    ((s.modSeg (fun g => { g with bad := 0 })).deliver { cause := 10, info := n, slot := some .c }).setRes .trapped

/-- SEG_DEADLINE (R412): the budget of the acting thread has run out; the segment closes and the deadline fault is raised, once what the other streams have started is complete (R268). -/
def execSegDeadline (s : State) : Host.Outcome State Fault Refusal :=
  if s.thr.seg.isOpen && s.thr.seg.budget && s.thr.seg.left = 0 && !s.thr.awaits .c then
    .next (((s.modSeg (fun g => { g with isOpen := false })).deliver { cause := 9, slot := some .c }).setRes .trapped)
  else .next s

/-- CROPEN (R414). -/
def execCropen (d a : BitVec 5) (s : State) : Host.Outcome State Fault Refusal :=
  finish s (fun s =>
    if 4 ≤ s.thr.crs.length then .error illegal
    else waitEngines s (fun s =>
      let x := s.X a
      if x.toNat % 16 ≠ 0 then .error (misaligned 0 x)
      else if x = 0 then .error (accessViol 0 x)
      else
        let r : Region := ⟨x, s.thr.qs.tok, s.thr.flow.loops.length, wbit s.thr.csr.uimask 8, s.thr.nextCmd⟩
        let s := s.modThr (fun t => { t with crs := r :: t.crs })
        .ok (s.W d (wofNat s.thr.crs.length))))

/-- What CRCLOSE still waits for: commands and shuffle programs accepted since the region opened. Ring fetches are no commands. -/
def Thread.regionBusy (t : Thread) (r : Region) : Bool :=
  t.cmds.any (fun c => r.cmd ≤ c.id && c.kind != .ringRow) || t.progs.any (fun p => r.cmd ≤ p.id)

/-- CRCLOSE (R414). -/
def execCrclose (d : BitVec 5) (s : State) : Host.Outcome State Fault Refusal :=
  finish s (fun s =>
    match s.thr.crs with
    | [] => .error illegal
    | r :: rest => waitEngines s (fun s =>
        if s.thr.regionBusy r then .error .waitIssue
        else .ok ((s.modThr (fun t => { t with crs := rest })).W d (wofNat rest.length))))

/-- An action on behalf of one stream of a thread; the turn is then as before. -/
def State.asStream (s : State) (t h : Nat) (sl : Slot) (f : State → State) : State :=
  let c := s.run.cur
  let s := f { s with run := { s.run with cur := ⟨Fin.ofNat 130 t, Fin.ofNat 4 h, .stream sl, 0⟩ } }
  { s with run := { s.run with cur := c } }

/-- The array fault of a thread's nest (R302, R415): the event is counted once, the nest is abandoned, and cause 10 with INFO[2] is raised in the W stream. While another stream is in a
syllable that a trap lets complete (R268) the fault stays with the nest, and the array's turn delivers it afterwards. -/
def State.arrayFault (s : State) (t h : Nat) (n : Nest) : State :=
  let names := (n.runs.map (fun r => r.names n.tab)).flatten.foldr insNat []
  let s := if n.fault then s else s.sigEvent t ((s.tileAt t).geom.subArrays names) false
  if (s.threadAt t h).awaits .w then s.updThread t h (fun x => { x with nest := some { n with fault := true } })
  else s.asStream t h .w (fun s => (s.modThr (fun x => { x with nest := none })).deliver { cause := 10, info := 4 })

/-- ARRAY_FAULT (R415): of the thread that the input names, or of the acting thread. -/
def execArrayFault (s : State) : Host.Outcome State Fault Refusal :=
  let w := match s.run.input with
    | .origin o => (o.tile.toNat % 130, o.thread.toNat)
    | _ => (s.ct, s.ch)
  match (s.threadAt w.1 w.2).nest with
  | some n => .next (s.arrayFault w.1 w.2 n)
  | none => .next s

end Sys2Proof.Machine
end

