-- ==== Sys2Proof/Machine/Window.lean ====
section
/-! DEFINITION. Remote accesses: WINBIND (R392), the departure and the fate of posted writes (R386 to R388), and what a target does with the posted writes, remote
loads, atomics and sectors that reach it (R217, R224, R228, R255, R374, R377, R386, R389). -/

namespace Sys2Proof.Machine

open Host (Cell)

/-! ## The sender's side -/

def State.modWin (s : State) (t h w : Nat) (f : Window → Window) : State :=
  s.updThread t h (fun x => { x with win := x.win.set (Fin.ofNat 64 w) (f x.win[Fin.ofNat 64 w]) })

def State.winAt (s : State) (t h w : Nat) : Window := (s.threadAt t h).win[Fin.ofNat 64 w]

/-- WINBIND's wait (R392): the window's lines are sent, and every posted write through it is acknowledged and every remote load returned. -/
def windowQuiet (w : Nat) (s : State) (body : State → Res) : Res :=
  waitEngines s (fun s =>
    let x := s.winAt s.ct s.ch w
    if !x.lines.isEmpty then .ok ((s.modThr (·.flushWin [Fin.ofNat 64 w] .c)).setRes .held)
    else if !x.flits.isEmpty || !s.thr.remotes.isEmpty then .error .hold
    else body s)

/-- WINBIND (R392). -/
def execWinbind (d a : BitVec 5) (w : BitVec 6) (s : State) : Host.Outcome State Fault Refusal :=
  finish s (windowQuiet w.toNat · (fun s =>
    let h := wbits (s.X a) 0 16
    let old := (s.winAt s.ct s.ch w.toNat).bind
    match s.winAsk (s.ctxOf s.ct) h, s.winEntry (s.ctxOf s.ct) h with
    | some u, _ => .error (.ask u)
    | none, some e =>
      if e.kind ≠ 2 then .error (accessViol 0 0)
      else .ok ((s.modWin s.ct s.ch w.toNat (fun x => { x with handle := BitVec.ofNat 16 h, bound := true })).W d old)
    | none, none => .error (accessViol 0 0)))

/-- WINBIND.unbind (R392): WBINDw is cleared. -/
def execWinbindUnbind (d : BitVec 5) (w : BitVec 6) (s : State) : Host.Outcome State Fault Refusal :=
  finish s (windowQuiet w.toNat · (fun s =>
    let old := (s.winAt s.ct s.ch w.toNat).bind
    .ok ((s.modWin s.ct s.ch w.toNat (fun x => { x with handle := 0, bound := false })).W d old)))

/-- The line that may depart now: the oldest, when it is to be sent and the allowance admits it (R386, R387). -/
def Window.departs (w : Window) : Option Line := if w.flits.length < max w.limit.toNat 1 then (w.lines.head?).filter (·.send) else none

/-- The line leaves as one posted flit, and the stores that wait for it go on. -/
def State.departLine (s : State) (t h w : Nat) : State :=
  match (s.winAt t h w).departs with
  | none => s
  | some l =>
    let n := (s.threadAt t h).nextCmd
    let s := s.emit l.dst (.posted l.req l.mask l.data ⟨BitVec.ofNat 8 t, BitVec.ofNat 2 h, 0, n⟩)
    (s.modWin t h w (fun x => ({ x with lines := x.lines.drop 1, flits := x.flits ++ [⟨n, l.off, s.run.cycle, l.dst⟩] } : Window).pump x.pend)).updThread t h
      (fun x => { x with nextCmd := n + 1 })

/-- LINE_DEPART (R387): the thread and, as its number, the window. -/
def execLineDepart (s : State) : Host.Outcome State Fault Refusal :=
  match s.run.input with
  | .origin o => .next (s.departLine o.tile.toNat o.thread.toNat o.id)
  | _ => .next s

/-- COMBINE_TIMEOUT (R386): 256 cycles without a store by the thread to the window. -/
def execCombineTimeout (s : State) : Host.Outcome State Fault Refusal :=
  match s.run.input with
  | .origin o =>
    let t := o.tile.toNat
    let h := o.thread.toNat
    if 256 ≤ (s.winAt t h o.id).idle then .next (s.modWin t h o.id (fun w => { w with lines := w.lines.map (fun l => { l with send := true }) }))
    else .next s
  | _ => .next s

/-- The failure of a posted flit (R388): `bit` of WSTAT, the count, the first offset, UICAUSE.WERR. -/
def State.postFailed (s : State) (t h w off bit : Nat) : State :=
  (s.modWin t h w (fun x =>
    let v := x.wstat
    let v := if wbits v 0 6 = 0 then wput v 16 24 off else v
    let v := wput v 8 8 (min (wbits v 8 8 + 1) 255)
    { x with wstat := wset v bit })).updThread t h (fun x => (({ x with csr := { x.csr with uicause := wset x.csr.uicause 16 } } : Thread).mark 0x009 16).mark (0x480 + w) bit)

/-- The fate of a posted flit: 0 done, else the WSTAT bit plus 1 (R388). -/
def State.postDone (s : State) (t h n code : Nat) : State :=
  (List.range 64).foldl (fun (s : State) w =>
    match (s.winAt t h w).flits.find? (·.num == n) with
    | none => s
    | some f =>
      let s := s.modWin t h w (fun x => { x with flits := x.flits.filter (·.num != n) })
      if code = 0 then s else s.postFailed t h w f.off (min (code - 1) 5)) s

/-- POSTED_ACK (R388). -/
def execPostedAck (s : State) : Host.Outcome State Fault Refusal :=
  match s.run.input with
  | .ack o c => .next (s.postDone o.tile.toNat o.thread.toNat o.id c.toNat)
  | _ => .next s

/-- What a request to a peer waits at most (R212, R388, R389, R393). -/
def replyTime : Nat := 120000

/-- POSTED_TIMEOUT (R388): the flit fails with DOWN. -/
def execPostedTimeout (s : State) : Host.Outcome State Fault Refusal :=
  match s.run.input with
  | .origin o =>
    let t := o.tile.toNat
    let h := o.thread.toNat
    if (List.range 64).any (fun w => (s.winAt t h w).flits.any (fun f => f.num == o.id && f.since + replyTime ≤ s.run.cycle)) then
      .next (s.postDone t h o.id 4)
    else .next s
  | _ => .next s

/-- The answer to a request that a stream waits on. -/
def State.answer (s : State) (o : Origin) (a : Answer) : State :=
  s.updThread o.tile.toNat o.thread.toNat (fun x =>
    { x with remotes := x.remotes.map (fun r => if r.id == o.id && r.ans == .waiting then { r with ans := a } else r) })

/-- REMOTE_LOAD_TIMEOUT (R389): the request has no reply and fails. -/
def execRemoteLoadTimeout (s : State) : Host.Outcome State Fault Refusal :=
  match s.run.input with
  | .origin o =>
    if (s.threadAt o.tile.toNat o.thread.toNat).remotes.any (fun r => r.id == o.id && r.since + replyTime ≤ s.run.cycle) then .next (s.answer o .failed)
    else .next s
  | _ => .next s

/-- What is due at a thread's windows and requests in a cycle: departures, the combining timeout, and the ends of waiting (R386 to R389, R460).
DEDUCED (log entry 57), unsafe. -/
def State.windowTick (s : State) (t h : Nat) : State :=
  let x := s.threadAt t h
  let who := fun (n : Nat) => (⟨BitVec.ofNat 8 t, BitVec.ofNat 2 h, 0, n⟩ : Origin)
  let late := fun (since : Nat) => since + replyTime ≤ s.run.cycle
  let evs := (List.finRange 64).flatMap (fun (w : Fin 64) =>
    let y := x.win[w]
    (if y.departs.isSome then [⟨Instr.lineDepart, Input.origin (who w.val)⟩] else []) ++
      (if y.lines.any (fun l => !l.send) && 256 ≤ y.idle + 1 then [⟨.combineTimeout, .origin (who w.val)⟩] else []) ++
      (y.flits.filter (fun f => late f.since)).map (fun f => (⟨.postedTimeout, .origin (who f.num)⟩ : Event)))
  let evs := evs ++ (x.remotes.filter (fun r => r.ans == .waiting && late r.since)).map (fun r =>
    (⟨if r.stream == .c && x.flow.held == .launch then .launchReplyTimeout else .remoteLoadTimeout, .origin (who r.id)⟩ : Event))
  let s := (x.cmds.filter (fun c => !c.sent.isEmpty && late c.since)).foldl (fun (s : State) c =>
    s.abortCmd t h c 5 (c.named (c.sent.headD 0))) s
  let s := if x.win.toList.all (fun w => w.lines.isEmpty) then s
    else s.updThread t h (fun x => { x with win := x.win.map (fun w => if w.lines.isEmpty then w else { w with idle := w.idle + 1 }) })
  s.pushAgenda evs

/-! ## The target's side -/

/-- Where a remote access acts (R217, R374). -/
inductive Reached where
  | mem (ps : List Piece)
  | spad (t off : Nat)
  | image (base off : Nat)
  | sync (die off : Nat)
  /-- a tile for which arrivals wait under number `key` (R374, R377) -/
  | hold (key t off : Nat)
  /-- the group has to supply an atom of a page table first (R212, R439) -/
  | ask (atom : Nat)
  /-- refused: 1 NOKEY, 2 GATED, 3 TARGET_RESET, 5 RANGE -/
  | refused (code : Nat)

/-- The target's checks of R217 for `n` bytes, and the map of R374. DEDUCED (log entry 56), unsafe. -/
def State.reach (s : State) (r : RemoteReq) (n : Nat) (acc : Acc) : Reached :=
  if r.kind = 0 then .refused 1
  else match s.ctxByKey r.key with
  | none => .refused 1
  | some c =>
    let a := r.addr.toNat
    match r.kind.toNat with
    | 1 => (match s.globalPieces c a n acc with | .ok ps => .mem ps | .error (.ask u, _) => .ask u | .error _ => .refused 5)
    | 2 =>
      if 0x300000 < a + n then .refused 5
      else match s.home c r.target.toNat with
        | .gone => .refused 3
        | .image _ _ base => .image base a
        | .tile t => if s.gated t then .refused 2 else match s.holdKey c t with | some k => .hold k t a | none => .spad t a
    | 3 => if 0x800000 < a + n then .refused 5 else .sync (r.target.toNat % 2) a
    | _ => .refused 1

/-- A granule of a saved scratchpad that holds a live barrier (R371, R374). -/
def State.imageLive (s : State) (base off : Nat) : Bool :=
  (s.mems.hbm.mem.byte (base + 0x400000 + off / 16 / 8)).toNat / 2 ^ (off / 16 % 8) % 2 == 1

/-- Bytes of one access written where it acts, poison carried; the answer is 0 done, 1 some bytes in a live granule, 2 some carried into a protected atom. -/
def State.writeReached (s : State) (x : Reached) (cs : List (Nat × PByte)) : State × Nat :=
  match x with
  | .spad t off => let w := s.copyWriteSpad t (cs.map (fun c => (off + c.1, c.2))); (w.1, natOfBool w.2.isSome)
  | .image base off =>
    let ok := cs.filter (fun c => !s.imageLive base (off + c.1))
    let w := s.copyWriteLoc (ok.map (fun c => (base + 0x100000 + off + c.1, c.2)))
    (w.1, natOfBool (ok.length < cs.length))
  | .mem ps =>
    let r := ps.foldl (fun (r : State × Bool × Nat) p =>
      match p.place with
      | .mem loc _ =>
        let w := r.1.copyWriteLoc ((cs.filter (fun c => r.2.2 ≤ c.1 && c.1 < r.2.2 + p.n)).map (fun c => (loc + (c.1 - r.2.2), c.2)))
        (w.1, r.2.1 || w.2.isSome, r.2.2 + p.n)
      | _ => (r.1, r.2.1, r.2.2 + p.n)) (s, false, 0)
    (r.1, if r.2.1 then 2 else 0)
  | _ => (s, 0)

/-- A save waits for the sectors and posted writes that its own module has under way (R370): they act on the tile at once. DEDUCED (log entry 133), unsafe. -/
def Reached.ownNow (x : Reached) (own : Bool) : Reached :=
  match x with
  | .hold k t o => if own && 64 < k then .spad t o else x
  | x => x

/-- What waits has taken bytes of a die's holding buffer (R377): its data bytes (DESIGN CHOICE, log entry 169). -/
def Arrival.size : Arrival → Nat
  | .flit (.posted _ _ _ _) _ => 64
  | .flit (.sector _ d _ _ _ _) _ => d.length
  | _ => 0

/-- A die's 2 MiB holding buffer has no room for `n` more bytes (R377). -/
def State.holdFull (s : State) (die n : Nat) : Bool := 2 ^ 21 < ((s.mems.heldIn.filter (fun e => e.key < 64 && e.die == die)).map (·.what.size)).foldl (· + ·) n

/-- A posted write of the same stream of the same thread is held under number `k`: what follows it waits behind it (R390). -/
def State.behindHeld (s : State) (k : Nat) (src : BitVec 20) (who : Origin) : Bool :=
  s.mems.heldIn.any (fun e =>
    match e.what with
    | .flit (.posted _ _ _ w) m => e.key == k && m == src && w.tile == who.tile && w.thread == who.thread && w.stream == who.stream
    | _ => false)

/-- The bytes of a posted line, by place in the line. -/
def lineCells (mask : BitVec 64) (data : BitVec 512) : List (Nat × PByte) :=
  ((List.range 64).filter (fun i => mask.getLsbD i)).map (fun i => (i, (BitVec.ofNat 8 (data.toNat / 2 ^ (8 * i)), false)))

/-- A posted flit at its target (R386): its fate goes back. Data for a synchronisation SRAM is refused: only atomics reach it (R220). -/
def State.postedArrives (s : State) (src : BitVec 20) (r : RemoteReq) (mask : BitVec 64) (data : BitVec 512) (who : Origin) : State :=
  let cs := lineCells mask data
  let n := cs.foldl (fun m c => max m (c.1 + 1)) 0
  match (s.reach r n .store).ownNow (src == s.modNum) with
  | .refused c => s.emit src (.postedAck who (BitVec.ofNat 4 c))
  | .sync _ _ => s.emit src (.postedAck who 5)
  | .hold k t _ => s.hold k t (.flit (.posted r mask data who) src)
  | .ask u => (s.askFor false u).hold 64 0 (.flit (.posted r mask data who) src)
  | x => let w := s.writeReached x cs; w.1.emit src (.postedAck who (if w.2 = 1 then 6 else 0))

/-- POSTED_WRITE_RECEIVE (R386). -/
def execPostedWriteReceive (s : State) : Host.Outcome State Fault Refusal :=
  match s.run.input with
  | .posted src r mask data who => .next (s.postedArrives src r mask data who)
  | _ => .next s

/-- A remote load at its target (R389): the bytes, whether a poisoned atom was read for a byte that the sender lacks, or a refusal. A halted context's tile answers, unless
an earlier write of the stream is held (R390). DEDUCED (log entry 59), unsafe. -/
def State.loadArrives (s : State) (src : BitVec 20) (r : RemoteReq) (len : BitVec 10) (lacks : BitVec 512) (who : Origin) : State :=
  let n := len.toNat
  let wants := fun (a u : Nat) => (List.range n).any (fun i => lacks.getLsbD i && (a + i) / 32 == u)
  let spad := fun (m : PMem) (o : Nat) => s.emit src (.loadReply who true ((unitsOf o n).any (fun u => m.poison.contains u && wants o u)) (m.mem.read o n))
  match s.reach r n .load with
  | .spad t o => spad (s.tileAt t).spad o
  | .hold k t o => if 64 < k || s.behindHeld k src who then s.hold k t (.flit (.loadReq r len lacks who) src) else spad (s.tileAt t).spad o
  | .image base o => s.emit src (.loadReply who true ((s.hbmPoison (base + 0x100000 + o) n).any (wants (base + 0x100000 + o))) (s.hbmBytes (base + 0x100000 + o) n))
  | .mem ps =>
    let at_ := ps.filterMap (fun p => match p.place with | .mem loc _ => some (loc, p.n, p.va - r.addr.toNat) | _ => none)
    let hit := fun (p : Nat × Nat × Nat) (u : Nat) => (List.range p.2.1).any (fun i => lacks.getLsbD (p.2.2 + i) && (p.1 + i) / 32 == u)
    match at_.findSome? (fun p => ((unitsOf p.1 p.2.1).filter (hit p)).findSome? (fun u => s.locAsk (32 * u) 32)) with
    | some u => (s.askFor false u).hold 64 0 (.flit (.loadReq r len lacks who) src)
    | none => s.emit src (.loadReply who true (at_.any (fun p => (s.locPoison p.1 p.2.1).any (hit p))) ((at_.map (fun p => s.locBytes p.1 p.2.1)).flatten))
  | .ask u => (s.askFor false u).hold 64 0 (.flit (.loadReq r len lacks who) src)
  | _ => s.emit src (.loadReply who false false [])

/-- REMOTE_LOAD_RECEIVE (R389). -/
def execRemoteLoadReceive (s : State) : Host.Outcome State Fault Refusal :=
  match s.run.input with
  | .load src r len lacks who => .next (s.loadArrives src r len lacks who)
  | _ => .next s

/-- A remote atomic at its target (R255): KIND 1 at the engine of the stack's die in the target context, KIND 3 at the die's engine. -/
def State.atomicArrives (s : State) (src : BitVec 20) (r : RemoteReq) (op : AmOp) (nat dbl : Bool) (v cmp : Word) (who : Origin) : State :=
  let n := op.bytes dbl
  let no := s.emit src (.atomicReply who 1 0 0)
  if r.addr.toNat % n ≠ 0 then no
  else
    let ans := match s.reach r n .atomic with
      | .sync die o => some (s.amSync die o op nat dbl v.toNat cmp.toNat)
      | .ask u => some (.ask u)
      | .mem [⟨.mem loc _, _, _⟩] => if loc < hostLoc then some (s.amMem loc op nat dbl v.toNat cmp.toNat) else none
      | _ => none
    match ans with
    | some (.done s lo hi) => s.emit src (.atomicReply who 0 (wofNat lo) (wofNat hi))
    | some .poison => s.emit src (.atomicReply who 2 0 0)
    | some (.ask u) => (s.askFor false u).hold 64 0 (.flit (.atomicReq r (BitVec.ofNat 6 op.code) nat dbl v cmp who) src)
    | none => no

/-- A sector of a CPREM at its target (R224, R228, R231, R235): its bytes, then its barrier signal; both fates go back. -/
def State.sectorArrives (s : State) (src : BitVec 20) (r : RemoteReq) (data : List Byte) (ps : List Nat) (sig : Option Nat) (who : Origin) (q : Nat) : State :=
  let cs := data.zipIdx.map (fun (p : Byte × Nat) => (p.2, ((p.1, ps.contains p.2) : PByte)))
  let ack := fun (s : State) (code sg : Nat) => s.emit src (.sectorAck who q (BitVec.ofNat 4 code) (BitVec.ofNat 4 sg) (wofNat (sig.getD 0)))
  let signal := fun (s : State) =>
    match sig, s.ctxByKey r.key with
    | some off, some c => s.signal c { r with addr := wofNat off } none (some (src, who, q))
    | some _, none => (s, 2)
    | none, _ => (s, 0)
  match (s.reach r data.length .store).ownNow (src == s.modNum) with
  | .refused 2 => let w := signal s; ack w.1 2 w.2
  | .refused 3 => ack s 3 (if sig.isSome then 2 else 0)
  | .refused 5 => let w := signal s; ack w.1 1 w.2
  | .refused _ => ack s 1 0
  | .sync _ _ => ack s 1 0
  | .hold k t _ => s.hold k t (.flit (.sector r data ps sig who q) src)
  | .ask u => (s.askFor false u).hold 64 0 (.flit (.sector r data ps sig who q) src)
  | x =>
    let w := s.writeReached x cs
    let g := signal w.1
    ack g.1 (match w.2 with | 0 => 0 | 1 => 4 | _ => 5) g.2

/-- The HBM address that offset 0 of BAR2 shows (R126): HBM_APBASE below a size of 1 TiB. -/
def Edge.bar2Base (e : Edge) : Nat := if e.bar2 = 10 then 0 else e.apbase.toNat * 2 ^ 30

/-- How many of `n` bytes from an offset of BAR2 reach HBM: those inside the aperture and below 0x88_0000_0000. -/
def Edge.bar2Take (e : Edge) (off n : Nat) : Nat := min n (min (2 ^ e.bar2.toNat * 2 ^ 30 - off) (0x8800000000 - (e.bar2Base + off)))

/-- The host's read through BAR2: all ones beyond what BAR2 shows; it waits where the coding group has to supply an atom (R126, R212, R439). -/
def State.hostRead (s : State) (off : BitVec 40) (n : BitVec 13) : State :=
  let k := s.edge.bar2Take off.toNat n.toNat
  let a := s.edge.bar2Base + off.toNat
  match s.needAsk a k with
  | some u => (s.askFor true u).hold 64 0 (.hostRead off n)
  | none => { s with edge := { s.edge with hostData := s.hbmBytes a k ++ List.replicate (n.toNat - k) 0xFF } }.forgetAtoms (unitsOf a k)

/-- What is held under one number is taken up again, in arrival order (R212, R374, R377). -/
def State.releaseIn (s : State) (k : Nat) : State :=
  let l := s.mems.heldIn.filter (fun e => e.key == k)
  l.foldl (fun (s : State) (e : HeldIn) =>
    match e.what with
    | .flit (.posted r m d w) src => s.postedArrives src r m d w
    | .flit (.loadReq r n m w) src => s.loadArrives src r n m w
    | .flit (.atomicReq r op nat dbl v cmp w) src => s.atomicArrives src r (AmOp.ofCode op.toNat) nat dbl v cmp w
    | .flit (.sector r d ps sg w q) src => s.sectorArrives src r d ps sg w q
    | .flit _ _ => s
    | .write c va bs => (s.writeUnder c va bs).1
    | .hostRead off n => s.hostRead off n
    | .signal r w src => s.replaySignal (r, w, src)) { s with mems := { s.mems with heldIn := s.mems.heldIn.filter (fun e => e.key != k) } }

/-- A flit for a halted context finds the holding buffer of the tile's die full: it waits, unacknowledged, at its source (R377). -/
def State.turnedAway (s : State) (f : Flit) : Bool :=
  let full := fun (r : RemoteReq) (n size : Nat) => match s.reach r n .store with | .hold k t _ => k < 64 && s.holdFull (dieOf t) size | _ => false
  match f with
  | .posted r m d _ => full r ((lineCells m d).foldl (fun m c => max m (c.1 + 1)) 0) 64
  | .sector r d _ _ _ _ => full r d.length d.length
  | _ => false

end Sys2Proof.Machine
end

