-- ==== Sys2Proof/Machine/Round.lean ====
section
/-! DEFINITION. Protected regions and rounds on this module (R402 to R408, R419, R420, R426, R427, R429, R431, R432, R459): PROT, UNPROT, the round instructions, deltas,
votes and decisions. -/

namespace Sys2Proof.Machine

def State.modGrp (s : State) (f : Group → Group) : State := { s with grp := f s.grp }

/-! ## Who takes part (R429, R433, R436, R440) -/

/-- The entries that take part in rounds and recovery: those not lost, and a spare or replacement that has joined. -/
def Group.takesPart (g : Group) (e : Nat) : Bool := g.valid e && (!g.isLost e || g.joined.any (fun j => j.1.toNat == e) || (e == g.own && g.recast))
def Group.parties (g : Group) : List Nat := (List.range 20).filter g.takesPart

/-- The surviving member with the lowest index: the decision root and the coordinator. -/
def Group.root (g : Group) : Nat := ((List.range 16).find? (fun e => g.valid e && !g.isLost e)).getD 0

/-- A flit to every other party. -/
def State.toParties (s : State) (f : Flit) : State :=
  (s.grp.parties.filter (· != s.grp.own)).foldl (fun (s : State) e => s.emit (s.grp.moduleOf e) f) s

/-! ## Commit records and the undo log (R419, R426, R427) -/

/-- The commit record of a round. -/
def commitRecord (g : Group) (round frame : Nat) : List Byte :=
  let b := [0x54, 0x43, 0x4D, 0x54].map (BitVec.ofNat 8) ++ leBytes 1 1 ++ leBytes 1 (if g.role = 2 then 2 else 1) ++ leBytes 1 g.index ++ leBytes 1 0 ++
    leBytes 2 g.number ++ List.replicate 6 0 ++ leBytes 8 round ++ leBytes 8 frame ++ List.replicate 28 0
  b ++ leBytes 4 (crc32c b)

/-- The round of a valid commit record. -/
def recordRound (b : List Byte) : Option Nat :=
  if leAt b 0 4 = 0x544D4354 && crc32c (b.take 60) = leAt b 60 4 then some (leAt b 16 8) else none

/-- The higher of two rounds, where there is one. -/
def laterRound : Option Nat → Option Nat → Option Nat
  | some a, some b => some (max a b)
  | some a, none => some a
  | none, b => b

/-- The module's last committed round: the higher of its two valid records; none without one. -/
def State.lastCommitted (s : State) : Option Nat :=
  let r := fun (o : Nat) => recordRound (s.mems.hbm.mem.read (s.grp.logBase + o) 64)
  laterRound (r 0) (r 64)

/-- Every first-touch bit is cleared. -/
def State.clearBitmap (s : State) : State :=
  { s with mems := { s.mems with hbm := { s.mems.hbm with mem := ⟨s.mems.hbm.mem.cells.filter (fun c => c.1 < bitmapBase || bitmapBase + 0x60000000 ≤ c.1)⟩ } } }

/-- The log is emptied and the bitmap cleared. -/
def State.emptyLog (s : State) : State := s.clearBitmap.modGrp (fun g => { g with used := 0, logFull := decide (g.logCap = 0) })

/-- The physical address of an offset of the module's own image or, on a holder, of its parity image. -/
def State.imageAt (s : State) (off : Nat) : Option Nat := if s.grp.role = 2 then some (s.grp.parityBase + off) else s.grp.imagePa off

/-- Every valid undo record of a round is written back over its atom. -/
def State.rollback (s : State) (round : Nat) : State :=
  (List.range s.grp.used).foldl (fun (s : State) i =>
    let b := s.mems.hbm.mem.read (s.grp.logBase + 0x10000 + 64 * i) 64
    if leAt b 40 8 = round && crc32c (b.take 60) = leAt b 60 4 then
      (match s.imageAt (leAt b 32 8) with | some a => s.rawWrite a (b.take 32) | none => s)
    else s) s

/-! ## Deltas at a holder (R420, R430, R432, R438) -/

/-- Why a delta waits at a holder: the round before it is not applied, the group recovers, its unit is being read, or the log is full. DEDUCED (log entry 64), unsafe. -/
def State.deltaWaits (s : State) (d : Delta) : Bool :=
  s.grp.st == .recovering || s.grp.st == .applying || s.grp.round.toNat < d.round.toNat || s.grp.frozen.any (fun u => u.1 == d.offset / 0x10000) ||
    (!s.touched d.offset && s.grp.logCap ≤ s.grp.used)

/-- A delta of the current round is recorded and XORed in with its coefficient. -/
def State.applyDelta (s : State) (d : Delta) : State :=
  let a := s.grp.parityBase + d.offset
  let old := s.mems.hbm.mem.read a 32
  (s.firstTouch old d.offset s.grp.round.toNat).rawWrite a (gfAdd old (gfScale (gfCoef s.grp.index d.member.toNat) (leBytes 32 d.delta.toNat)))

/-- A delta at a holder: applied and acknowledged, held, or acknowledged only. DEDUCED (log entry 68), unsafe. -/
def State.deltaArrives (s : State) (src : BitVec 20) (d : Delta) : State :=
  if s.grp.role ≠ 2 || s.grp.st == .none || s.grp.st == .lost then s
  else
    let ack := fun (s : State) => s.emit src (.deltaAck (BitVec.ofNat 2 s.grp.index) d)
    if d.round.toNat < s.grp.round.toNat then ack s
    else if s.deltaWaits d then
      s.modGrp (fun g => { g with heldDelta := g.heldDelta ++ [(src, d)], logFull := g.logFull || (d.round == g.round && g.logCap ≤ g.used) })
    else if !s.grp.unitBuilt d.offset then ack s
    else ack (s.applyDelta d)

/-- Held deltas proceed. -/
def State.releaseDeltas (s : State) : State :=
  s.grp.heldDelta.foldl (fun (s : State) d => s.deltaArrives d.1 d.2) (s.modGrp ({ · with heldDelta := [] }))

/-- DELTA_RECEIVE (R420). -/
def execDeltaReceive (s : State) : Host.Outcome State Fault Refusal :=
  match s.run.input with
  | .delta src d => .next (s.deltaArrives src d)
  | _ => .next s

/-! ## Votes and decisions (R404, R429, R431) -/

/-- The root's decision goes to every party with an apply frame two frames on. -/
def State.decide (s : State) (commit : Bool) : State :=
  let f := s.fab.frame + 2
  let r := s.grp.round
  (s.toParties (.decision r commit f)).modGrp ({ · with decision := some (r, commit, f, none) })

/-- A vote at the root. -/
def State.voteArrives (s : State) (member : BitVec 4) (round : Word) (ready : Bool) : State :=
  if s.grp.root ≠ s.grp.own || round ≠ s.grp.round || s.grp.decision.isSome || !(s.grp.st == .opened || s.grp.st == .preparing || s.grp.st == .voted) then s
  else if !ready then s.decide false
  else
    let s := s.modGrp (fun g => { g with votes := if g.votes.contains member then g.votes else member :: g.votes })
    if (List.range s.grp.k).all (fun i => s.grp.votes.any (fun v => v.toNat == i)) then s.decide true else s

/-- This member's vote, with its image size. -/
def State.castVote (s : State) (ready : Bool) : State :=
  let m := BitVec.ofNat 4 s.grp.index
  let s := s.modGrp ({ · with st := .voted, asked := s.grp.asked || !ready })
  if s.grp.root = s.grp.own then s.voteArrives m s.grp.round ready
  else s.emit (s.grp.moduleOf s.grp.root) (.vote m s.grp.round ready (wofNat s.grp.imageSize))

/-- A preparing member votes ready once every holder has acknowledged every delta. -/
def State.prepCheck (s : State) : State := if s.grp.st = .preparing && s.grp.unacked.isEmpty then s.castVote true else s

/-- VOTE_RECEIVE (R429). -/
def execVoteReceive (s : State) : Host.Outcome State Fault Refusal :=
  match s.run.input with
  | .vote m r ready _ => .next (s.voteArrives m r ready)
  | _ => .next s

/-- DECISION_RECEIVE (R429): kept until its apply frame. A joining module keeps it until it knows the round (R436). -/
def execDecisionReceive (s : State) : Host.Outcome State Fault Refusal :=
  match s.run.input with
  | .decision r commit f =>
    if s.grp.decision.isNone && (s.grp.busy || r = s.grp.round && (s.grp.st == .opened || s.grp.st == .preparing || s.grp.st == .voted)) then
      .next (s.modGrp ({ · with decision := some (r, commit, f, none) }))
    else .next s
  | _ => .next s

/-- A C stream of the group's context on a tile holds for the decision of the current round. DEDUCED (log entry 65), unsafe. -/
def State.someoneAsks (s : State) : Bool :=
  s.grp.asked || s.tiles.toList.any (fun (x : Tile) => x.ctx == s.grp.ctxNo && x.th.toList.any (fun (t : Thread) => t.flow.held == .decide s.grp.round || t.flow.held == .commit s.grp.round))

/-- A holder's copy of a region's entry when a round is decided: what entered in it stays or goes, and what it removes goes or stays (R402, R403, R426). An entry of the next
round is left alone. -/
def PeerRegion.decided (r : PeerRegion) (round : Word) (commit : Bool) : Option PeerRegion :=
  if (if commit then r.going else r.fresh) = some round then none
  else some { r with fresh := if r.fresh = some round then none else r.fresh, going := if r.going = some round then none else r.going }

/-- The application of a decision (R402, R403, R426, R427): the record or the rollback, and the region tables. -/
def State.applyDecision (s : State) (commit : Bool) : State :=
  let s :=
    if commit then (s.rawWrite (s.grp.logBase + s.grp.round.toNat % 2 * 64) (commitRecord s.grp s.grp.round.toNat s.fab.frame.toNat)).emptyLog
    else (s.rollback s.grp.round.toNat).emptyLog
  s.modGrp (fun g =>
    { g with
      st := .applying,
      regions := (g.regions.filter (fun r => if commit then !r.going else !r.fresh)).map (fun r => { r with fresh := false, going := false }),
      peerReg := g.peerReg.filterMap (fun r => r.decided g.round commit),
      expBusy := if commit && g.expBusy = 1 then 0 else g.expBusy,
      expRes := if commit && g.expBusy = 1 then 1 else g.expRes })

/-- The end of the application: the next round opens, and what was held proceeds. Entries of rounds that a resolution passed over are gone (R433).
DEDUCED (log entry 66), unsafe. -/
def State.openRound (s : State) (next : Word) (unrep abort : Bool) : State :=
  let s := s.modGrp (fun g =>
    { g with lastRound := g.round, lastAbort := abort, unrep := unrep, round := next, st := .opened, votes := [], decision := none, asked := false, reports := [],
             peerReg := (g.peerReg.filter (fun r => r.fresh.all (fun x => next.toNat ≤ x.toNat))).map (fun r => { r with going := r.going.filter (fun x => next.toNat ≤ x.toNat) }) })
  s.releaseHeld.releaseDeltas

/-- DECISION_APPLY (R427, R429, R433): at the apply frame the decision is applied, and the next step of the same event ends the application. A resolution commits the round that
some survivor committed, if any, and aborts the one after it, and always sets UNREP; a
decision that was pending when the group began to recover is not applied of itself. -/
def execDecisionApply (s : State) : Host.Outcome State Fault Refusal :=
  match s.grp.decision with
  | none => .next s
  | some (r, commit, f, next) =>
    if s.fab.frame.toNat < f.toNat then .next s
    else
      let commits := commit && (next.isNone || s.grp.round.toNat ≤ r.toNat)
      if s.grp.st = .applying then .next (s.openRound (next.getD (s.grp.round + 1)) (next.isSome || !s.someoneAsks) (!commits))
      else if s.grp.st == .none || s.grp.st == .lost || (s.grp.st == .recovering && next.isNone) then .next s
      else .next ((s.applyDecision commits).pushAgenda [⟨.decisionApply, .none⟩])

/-- An acknowledgement of a delta (R431, R212, R438). -/
def State.deltaAcked (s : State) (holder : BitVec 2) (d : Delta) : State :=
  (s.modGrp (fun g => { g with unacked := g.unacked.erase (holder, d) })).prepCheck.sendAsks

/-! ## The instructions -/

/-- The thread belongs to the context that TGRP_CFG.CTX names. -/
def State.ourThread (s : State) : Bool := s.ctxOf s.ct == s.grp.ctxNo && s.grp.ctxNo != 0

/-- A round word (R404). -/
def roundWord (r : Word) (code : Nat) : Word := wput r 60 4 code

/-- What the three round instructions share (R404, R459): no group, a lost group, a recovery, an outcome not yet reported; else the instruction itself. A holder has no votes and never shows
PREPARING or VOTED (R432): its threads are answered as without a group (DESIGN CHOICE, log entry 168). -/
def roundInstr (d : BitVec 5) (body : State → Res) : State → Res := inPrimary (fun s =>
  if !s.ourThread || s.grp.st == .none || s.grp.role = 2 then .ok (s.W d (roundWord s.grp.round 3))
  else if s.grp.st == .lost then .ok (s.W d (roundWord s.grp.round 4))
  else if s.grp.st == .recovering then .error .hold
  else if s.grp.unrep then .ok ((s.modGrp ({ · with unrep := false })).W d (roundWord s.grp.lastRound (natOfBool s.grp.lastAbort)))
  else body s)

def State.setHeld (s : State) (m : Held) : State := s.modThr (fun t => { t with flow := { t.flow with held := m } })

/-- RNDPREP (R405): step 2 is taken once the bundle's fence is done; then it is held until the ready vote stands. Where another thread's RNDABORT votes first, it is held
until the round is decided and reports the outcome (DESIGN CHOICE, log entry 132). DEDUCED (log entry 63), unsafe. -/
def execRndprep (d : BitVec 5) (s : State) : Host.Outcome State Fault Refusal :=
  finish s (roundInstr d (fun s =>
    let wait := fun (s : State) (r : Word) =>
      if s.grp.round = r && s.grp.st = .voted && !s.grp.asked then (.ok ((s.setHeld .no).W d (roundWord r 0)) : Res)
      else if s.grp.round = r then .ok ((s.setHeld (.prep r)).setRes .held)
      else .ok ((s.setHeld .no).W d (roundWord s.grp.lastRound (natOfBool s.grp.lastAbort)))
    match s.thr.flow.held with
    | .prep r => wait s r
    | _ =>
      if s.grp.st = .opened then
        waitEngines s (fun s =>
          let s := s.cleanL1 s.ct
          let s := (s.modGrp ({ · with st := .preparing })).prepCheck
          wait s s.grp.round)
      else .ok (s.W d (roundWord s.grp.round 2))))

/-- A hold until the decision of round `r` has been applied (R406, R407); `mark` is what the thread keeps meanwhile. -/
def awaitDecision (d : BitVec 5) (mark : Word → Held) (r : Word) (s : State) : Res :=
  if s.grp.round = r then .ok ((s.setHeld (mark r)).setRes .held)
  else .ok ((s.setHeld .no).W d (roundWord s.grp.lastRound (natOfBool s.grp.lastAbort)))

/-- RNDCOMMIT (R406). Nothing of its wait stands at a stop (R462). -/
def execRndcommit (d : BitVec 5) (s : State) : Host.Outcome State Fault Refusal :=
  finish s (roundInstr d (fun s =>
    match s.thr.flow.held with
    | .commit r => awaitDecision d .commit r s
    | _ => if s.grp.st = .opened then .ok (s.W d (roundWord s.grp.round 2)) else awaitDecision d .commit s.grp.round s))

/-- RNDABORT (R407). -/
def execRndabort (d : BitVec 5) (s : State) : Host.Outcome State Fault Refusal :=
  finish s (roundInstr d (fun s =>
    match s.thr.flow.held with
    | .decide r => awaitDecision d .decide r s
    | _ =>
      let r := s.grp.round
      awaitDecision d .decide r (if s.grp.st == .opened || s.grp.st == .preparing then s.castVote false else s)))

/-- RNDSTAT (R408, R459). -/
def execRndstat (d : BitVec 5) (w : BitVec 1) (s : State) : Host.Outcome State Fault Refusal :=
  finish s (inPrimary fun s =>
    let g := s.grp
    let v := if !s.ourThread then 0
      else if w = 0 then wofNat (wbits g.round 0 60 + g.st.code * 2 ^ 60 + natOfBool g.unrep * 2 ^ 63)
      else wofNat (natOfBool g.logFull + natOfBool g.lastAbort * 2 + natOfBool g.recast * 4 + g.regions.length % 128 * 2 ^ 4 + min g.used (2 ^ 24 - 1) * 2 ^ 16)
    .ok (s.W d v))

/-! ## PROT and UNPROT (R402, R403) -/

/-- The physical pages of a region, with the image offset of each: a page that is not write-back HBM is an access violation, an absent one a page fault. -/
def State.regionPages (s : State) (base off : Nat) : Nat → Except Stop (List (Nat × Nat))
  | 0 => .ok []
  | n + 1 =>
    match s.walk (s.ctxOf s.ct) base .store with
    | .ok (.mem loc ty) =>
      if ty ≠ 0 || hostLoc ≤ loc then .error (accessViol 1 (wofNat base))
      else do return (loc, off) :: (← s.regionPages (base + 0x10000) (off + 0x10000) n)
    | .ok _ => .error (accessViol 1 (wofNat base))
    | .error .viol => .error (accessViol 1 (wofNat base))
    | .error (.ask u) => .error (.ask u)
    | .error _ => .error (pageFault 1 (wofNat base))

/-- A region's entry for the holders' tables, and its contents as deltas against zero, an atom at a time (R402, R403, R426). -/
def State.sendRegion (s : State) (r : PRegion) (removed : Bool) : State :=
  let s := s.grp.deltaHolders.foldl (fun (s : State) e =>
    s.emit (s.grp.moduleOf e) (.region (BitVec.ofNat 4 s.grp.index) (BitVec.ofNat 6 r.index) r.base r.spec (some s.grp.round) removed)) s
  r.pa.foldl (fun (s : State) p =>
    (List.range 2048).foldl (fun (s : State) i => s.sendDelta (p.2 + 32 * i) (s.mems.hbm.mem.read (p.1 + 32 * i) 32)) s) s

/-- Length and image offset of PROT's X(b), in bytes. -/
def specLen (b : Word) : Nat := wbits b 0 23 * 0x10000
def specOff (b : Word) : Nat := wbits b 23 23 * 0x10000

def overlaps (a n b m : Nat) : Bool := a < b + m && b < a + n

/-- PROT (R402, R459). On a holder no group serves it (DESIGN CHOICE, log entry 168). -/
def execProt (d a b : BitVec 5) (i : BitVec 6) (s : State) : Host.Outcome State Fault Refusal :=
  finish s (fun s =>
    let A := s.X a
    let B := s.X b
    if !s.ourThread || s.grp.st == .none || s.grp.st == .lost || s.grp.role = 2 then .error (accessViol 1 A)
    else if A.toNat % 0x10000 ≠ 0 then .error (misaligned 1 A)
    else if specLen B = 0 || wbits B 46 18 ≠ 0 || s.grp.regions.any (fun r => r.index == i.toNat) || 0x6000000000 < specOff B + specLen B ||
        2 ^ 57 < A.toNat + specLen B ||
        s.grp.regions.any (fun r => overlaps (specOff B) (specLen B) (specOff r.spec) (specLen r.spec) || overlaps A.toNat (specLen B) r.base.toNat (specLen r.spec)) then
      .error (accessViol 1 A)
    else do
      let pa ← s.regionPages A.toNat (specOff B) (specLen B / 0x10000)
      if s.grp.st ≠ .opened then .error .hold
      else
        let r : PRegion := ⟨i.toNat, A, pa, B, true, false⟩
        let s := (s.modGrp (fun g => { g with regions := g.regions ++ [r] })).sendRegion r false
        return s.W d (wofNat s.grp.imageSize))

/-- UNPROT (R403, R459; on a holder, DESIGN CHOICE, log entry 168). -/
def execUnprot (i : BitVec 6) (s : State) : Host.Outcome State Fault Refusal :=
  finish s (fun s =>
    if !s.ourThread || s.grp.st == .none || s.grp.st == .lost || s.grp.role = 2 then .error (accessViol 1 0)
    else match s.grp.regions.find? (fun r => r.index == i.toNat) with
      | none => .error (accessViol 1 0)
      | some r =>
        if s.grp.st ≠ .opened then .error .hold
        else
          let s := s.sendRegion r true
          .ok (s.modGrp (fun g => { g with regions := g.regions.map (fun q => if q.index == i.toNat then { q with going := true } else q) })))

end Sys2Proof.Machine
end

