-- ==== Sys2Proof/Machine/Group.lean ====
section
/-! DEFINITION. The coding group (R212, R213, R421 to R443): joining and leaving, heartbeats, the loss of a module and its resolution, repair on read, recasting, and the
export and restore of shards. -/

namespace Sys2Proof.Machine

/-! ## Configuration (R421 to R423) -/

/-- The hash of a module's configuration, over what is the same on every module. -/
def Group.hash (g : Group) : Word :=
  Config.configHash (wofNat (wbits g.cfg 0 23) :: g.members.toList ++ g.holders.toList ++ g.domains.toList)

/-- The group as NONE leaves it: the configuration stays, everything else is gone. -/
def Group.cleared (g : Group) : Group :=
  { Group.reset with cfg := g.cfg, round := g.round, log := g.log, holders := g.holders, members := g.members, domains := g.domains, rcCfg := g.rcCfg,
                     expA := g.expA, expB := g.expB, expSlot := g.expSlot, expRes := g.expRes, expMiss := g.expMiss }

/-- A power or cooling domain of an entry: byte 0 or 1 of its DOM field. -/
def Group.domOf (g : Group) (e cool : Nat) : Nat := wbits g.domains[Fin.ofNat 5 (e / 4)] (16 * (e % 4) + 8 * cool) 8

/-- The placement check (R423). -/
def Group.placed (g : Group) : Bool :=
  let es := (List.range g.k) ++ (List.range g.m).map (16 + ·)
  [0, 1].all (fun c => es.all (fun e => (es.filter (fun f => g.domOf f c == g.domOf e c)).length ≤ g.m))

/-- The checks of R422; a replacement holder's own number stands in no entry (R440, DEDUCED, log entry 84). DEDUCED (log entry 70), unsafe. -/
def Group.goodCfg (g : Group) (num : BitVec 20) : Bool :=
  let mods := g.entries.map (fun e => wbits (g.entryWord e) 0 20)
  2 ≤ g.k && g.k ≤ 16 &&
  (List.range 16).all (fun e => g.valid e == (e < g.k)) &&
  (List.range 4).all (fun j => g.valid (16 + j) == (j < g.m)) &&
  (if g.role = 1 then g.index < 16 && g.valid g.index && wbits (g.entryWord g.index) 0 20 == num.toNat
   else g.role == 2 && g.index < 4 && g.valid (16 + g.index) &&
     (wbits (g.entryWord (16 + g.index)) 0 20 == num.toNat || !mods.contains num.toNat)) &&
  mods.eraseDups.length == mods.length &&
  g.logBase + wbits g.log 0 12 * 0x100000 ≤ 0x9000000000 &&
  (g.role != 2 || g.parityBase + 0x6000000000 < 0x8800000000)

def State.grpErr (s : State) (e : BitVec 4) : State := s.modGrp ({ · with cmdErr := e })

/-- A replacement holder joins under an entry that names the lost module, not itself (R440). DEDUCED (log entry 84), unsafe. -/
def State.replaces (s : State) : Bool := s.grp.role = 2 && wbits (s.grp.entryWord s.grp.own) 0 20 ≠ s.modNum.toNat

/-- JOIN (R422, R436): after the checks the module begins its heartbeats, and BUSY stands until its peers have answered. A replacement notes the frame. DEDUCED (log entry 71), unsafe. -/
def execJoinGroup (s : State) : Host.Outcome State Fault Refusal :=
  let g := s.grp
  if g.st ≠ .none then .next (s.grpErr 3)
  else if g.role ≠ 3 && !g.goodCfg s.modNum then .next (s.modGrp (fun g => { g.cleared with cmdErr := 1 }))
  else if g.role ≠ 3 && !g.placed then .next (s.modGrp (fun g => { g.cleared with cmdErr := 2 }))
  else .next (s.modGrp (fun g => { g.cleared with busy := true, heard := if s.replaces then g.cleared.heard.set (Fin.ofNat 20 g.own) (s.fab.frame + 1) else g.cleared.heard }))

/-- LEAVE (R422): the regions go without deltas, so what was held becomes plain writes. DEDUCED (log entry 72), unsafe. -/
def execLeaveGroup (s : State) : Host.Outcome State Fault Refusal :=
  let busy := s.grp.expBusy
  let s := (s.modGrp ({ · with regions := [] })).releaseHeld.emptyLog
  let s := s.modGrp Group.cleared
  .next (if busy = 0 then s else s.modGrp ({ · with expRes := 1 }))

/-! ## Sources of a repair or a rebuild (R212, R425, R438) -/

/-- COEF of TGRP_RECAST. -/
def Group.coef (g : Group) : Nat := wbits g.rcCfg 0 8

/-- The bytes of a recast unit here: the page of the own image, or of the parity. -/
def State.unitBytes (s : State) (u : Nat) : List Byte :=
  match s.imageAt (u * 0x10000) with
  | some a => s.mems.hbm.mem.read a 0x10000
  | none => List.replicate 0x10000 0

/-- The poisoned atoms of a unit that can still be asked for. -/
def State.unitAsks (s : State) (u : Nat) : List Nat :=
  match s.grp.imagePa (u * 0x10000) with
  | none => []
  | some a => s.mems.hbm.poison.filter (fun x => a ≤ 32 * x && 32 * x < a + 0x10000 && s.mustAsk x)

/-- Protected writes to a unit wait for a peer's release. -/
def State.freeze (s : State) (u : Nat) (src : BitVec 20) : State :=
  if s.grp.frozen.contains (u, src) then s else s.modGrp (fun g => { g with frozen := g.frozen ++ [(u, src)] })

/-- A source's part of a unit: its bytes times its coefficient (R437). -/
def State.sendUnit (s : State) (u : BitVec 23) (dst : BitVec 20) : State :=
  s.queueOut ⟨24, s.modNum, dst, 0, none, s.fab.hold, .unitData (BitVec.ofNat 20 (2 ^ s.grp.own)) u (gfScale s.grp.coef (s.unitBytes u.toNat))⟩

/-- A request waits until this module can serve it. -/
def State.want (s : State) (f : Flit) (src : BitVec 20) : State := s.modGrp (fun g => { g with wants := g.wants ++ [(f, src)] })

/-- A request for a unit: a member holds its writes to it, waits for the acknowledgements of its deltas and streams; a holder waits for the word to read. -/
def State.unitAsked (s : State) (u : BitVec 23) (src : BitVec 20) : State :=
  if !s.grp.rcActive || s.grp.role = 2 then s
  else
    let s := s.freeze u.toNat src
    let lost := s.unitAsks u.toNat
    if s.grp.unacked.any (fun d => d.2.offset / 0x10000 == u.toNat) then s.want (.unitReq u) src
    else if !lost.isEmpty then (lost.foldl (fun (s : State) a => s.askFor false a) s).want (.unitReq u) src
    else s.sendUnit u src

/-- A request for one atom (R212): the answer is this module's atom of the image or of the parity, or that it cannot answer. A member first holds its writes to
the atom and waits for the acknowledgements of its deltas. -/
def State.atomAsked (s : State) (target : BitVec 5) (atom : Nat) (src : BitVec 20) : State :=
  let off := 32 * atom
  let say := fun (s : State) (d : Option (BitVec 256)) => s.emit src (.reconstructed (BitVec.ofNat 5 s.grp.own) atom d)
  let here := s.imageAt off
  let bad := match here with | some a => s.mems.hbm.poison.contains (a / 32) | none => false
  if !s.grp.serving || !s.grp.unitBuilt off || bad then say s none
  else
    let s := if s.grp.role = 2 then s else s.freeze (off / 0x10000) src
    if s.grp.unacked.any (fun d => d.2.offset == off) then s.want (.reconstruct target atom) src
    else say s (some (match here with | some a => BitVec.ofNat 256 (leNat (s.mems.hbm.mem.read a 32)) | none => 0))

/-- The requests that waited try again. -/
def State.serveWants (s : State) : State :=
  s.grp.wants.foldl (fun (s : State) (w : Flit × BitVec 20) =>
    match w.1 with
    | .unitReq u => s.unitAsked u w.2
    | .reconstruct t a => s.atomAsked t a w.2
    | _ => s) (s.modGrp ({ · with wants := [] }))

/-- The release of a unit by the module that asked for it (R438, step 5); a replacement holder that has rebuilt it gets its deltas from now on (R440). -/
def State.unfreeze (s : State) (u : Nat) (src : BitVec 20) (built : Bool) : State :=
  let s := s.modGrp (fun g =>
    let who := (g.joined.find? (fun j => 16 ≤ j.1.toNat && j.2.1 == src)).map (fun j => (j.1.toNat - 16, u))
    { g with frozen := g.frozen.filter (· != (u, src)),
             holderUnits := match who with | some x => if built && !g.holderUnits.contains x then x :: g.holderUnits else g.holderUnits | none => g.holderUnits })
  s.releaseHeld.releaseDeltas

/-- RECONSTRUCT_REQUEST (R212). -/
def execReconstructRequest (s : State) : Host.Outcome State Fault Refusal :=
  match s.run.input with
  | .reconstruct src t a => .next (s.atomAsked t a src)
  | _ => .next s

/-- DELTA_ACK (R212, R430, R431, R438). -/
def execDeltaAck (s : State) : Host.Outcome State Fault Refusal :=
  match s.run.input with
  | .deltaAck h d => .next ((s.deltaAcked h d).serveWants)
  | _ => .next s

/-! ## Repair on read (R212) -/

/-- What waits on the coding group tries again. -/
def State.retryAsks (s : State) : State := ((s.releaseHeld).releaseIn 64).serveWants

/-- The end of an attempt: the peers that held their writes for it go on. -/
def State.endAsk (s : State) (atom : Nat) : State :=
  match s.grp.imageOff (32 * atom) with
  | none => s
  | some off =>
    let s := s.grp.livePeers.foldl (fun (s : State) e => s.emit (s.grp.moduleOf e) (.unitDone (BitVec.ofNat 23 (off / 0x10000)) false)) s
    s.modGrp (fun g => { g with got := g.got.filter (fun x => x.2.1 != off / 32) })

/-- An attempt fails: the poisoning is reported if it has not been (R210), the reads that wait consume poison, the held writes and a peer's requests here, a program's own reads when they run again. An attempt that no such read waits for is
forgotten: the next read tries again. -/
def State.failAsk (s : State) (atom : Nat) : State :=
  let s := if s.grp.asks.any (fun a => a.atom == atom && a.found) then (s.stackEvent atom 4).setAsk atom ({ · with found := false }) else s
  (((s.setAsk atom ({ · with deadline := 0 })).endAsk atom).retryAsks).modGrp (fun g => { g with asks := g.asks.filter (fun a => a.atom != atom || a.deadline != 0 || a.reads) })

/-- The answers that carry bytes, one for each entry. -/
def Group.answers (g : Group) (img : Nat) : List (Nat × List Byte) :=
  g.got.filterMap (fun x => if x.2.1 = img then x.2.2.map (fun d => (x.1.toNat, leBytes 32 d.toNat)) else none)

/-- The state of an attempt after an answer or a loss: k answers decode the atom, and it fails once every peer has answered with fewer. -/
def State.checkAsk (s : State) (atom : Nat) : State :=
  match s.grp.imageOff (32 * atom) with
  | none => s
  | some off =>
    let got := s.grp.answers (off / 32)
    let all := s.grp.livePeers.all (fun e => s.grp.got.any (fun x => x.1.toNat == e && x.2.1 == off / 32))
    if s.grp.k ≤ got.length then
      s.urgent .repairOnRead (.atomData atom (BitVec.ofNat 256 (leNat (decodeAtom s.grp.k s.grp.own (got.take s.grp.k)))))
    else if all || s.grp.livePeers.length < s.grp.k then s.urgent .repairTimeout (.atom atom)
    else s

/-- An answer arrives. -/
def State.atomAnswered (s : State) (e : BitVec 5) (img : Nat) (d : Option (BitVec 256)) : State :=
  match s.grp.asks.find? (fun a => a.deadline != 0 && (s.grp.imageOff (32 * a.atom)).map (· / 32) == some img) with
  | none => s
  | some a =>
    if s.grp.got.any (fun x => x.1 == e && x.2.1 == img) then s
    else ((s.modGrp (fun g => { g with got := g.got ++ [(e, img, d)] })).sendAsks).checkAsk a.atom

/-- REPAIR_ON_READ (R212): the rebuilt atom is written back, its poison is cleared, the repair is counted, and what waited goes on. -/
def execRepairOnRead (s : State) : Host.Outcome State Fault Refusal :=
  match s.run.input with
  | .atomData atom d =>
    if !s.grp.asks.any (fun a => a.atom == atom) then .next s
    else
      let s := ((s.rawWrite (32 * atom) (leBytes 32 d.toNat)).stackEvent atom 6).endAsk atom
      .next ((s.modGrp (fun g => { g with asks := g.asks.filter (fun a => a.atom != atom) })).retryAsks)
  | _ => .next s

/-- Too few peers are left, or every one has answered, and the atom cannot be decoded. -/
def State.askHopeless (s : State) (atom : Nat) : Bool :=
  match s.grp.imageOff (32 * atom) with
  | none => true
  | some off =>
    (s.grp.answers (off / 32)).length < s.grp.k &&
      (s.grp.livePeers.length < s.grp.k || s.grp.livePeers.all (fun e => s.grp.got.any (fun x => x.1.toNat == e && x.2.1 == off / 32)))

/-- REPAIR_TIMEOUT (R212): the attempt has failed when its 120,000 cycles are over or too few modules can answer. -/
def execRepairTimeout (s : State) : Host.Outcome State Fault Refusal :=
  match s.run.input with
  | .atom atom =>
    match s.grp.asks.find? (fun a => a.atom == atom && a.deadline != 0) with
    | none => .next s
    | some a => if a.deadline ≤ s.run.cycle || s.askHopeless atom || !s.grp.serving then .next (s.failAsk atom) else .next s
  | _ => .next s

/-- PLANISH_VISIT (R210, R213), and what a read finds at the controller: a correctable atom (`found` 1) keeps its bytes, and the correction is counted; an uncorrectable one (2) is repaired in a
protected region, its poisoning being reported only when that fails, and written with the poison pattern elsewhere, which is reported at once. -/
def execPlanishVisit (s : State) : Host.Outcome State Fault Refusal :=
  match s.run.input with
  | .scrub atom found =>
    let was := s.mems.hbm.poison.contains atom
    if 0x9000000000 ≤ 32 * atom then .next s
    else if !was && found = 1 then .next (s.stackEvent atom 6)
    else if !was && found.toNat < 2 then .next s
    else
      let s := if was then s else { s with mems := { s.mems with hbm := s.mems.hbm.taint [atom] } }
      if (s.grp.imageOff (32 * atom)).isSome && s.mustAsk atom then .next ((s.askFor false atom).setAsk atom (fun a => { a with found := a.found || !was }))
      else .next (if was then s else s.stackEvent atom 4)
  | _ => .next s

/-! ## Recasting (R436 to R440) -/

/-- SOURCE (R437). -/
def execStartSource (s : State) : Host.Outcome State Fault Refusal :=
  if !s.grp.serving then .next (s.grpErr 3)
  else
    let s := s.modGrp ({ · with rcActive := true, cmdErr := 0 })
    .next (s.emit (BitVec.ofNat 20 (wbits s.grp.rcCfg 32 20)) (.source (BitVec.ofNat 5 s.grp.own) true))

/-- STOPSRC (R437). -/
def execStopSource (s : State) : Host.Outcome State Fault Refusal :=
  if !s.grp.rcActive then .next (s.grpErr 0)
  else
    let t := BitVec.ofNat 20 (wbits s.grp.rcCfg 32 20)
    let s := s.modGrp (fun g => { g with rcActive := false, cmdErr := 0, frozen := g.frozen.filter (fun x => x.2 != t), wants := g.wants.filter (fun x => x.2 != t) })
    .next ((s.emit t (.source (BitVec.ofNat 5 s.grp.own) false)).releaseHeld.releaseDeltas)

/-- The source set of a target changes: the units in progress are given up and their sources released, since the coefficients change with the set. -/
def State.dropUnits (s : State) : State :=
  let s := s.grp.pending.foldl (fun (s : State) u =>
    s.grp.sources.foldl (fun (s : State) e => s.emit (s.grp.moduleOf e) (.unitDone (BitVec.ofNat 23 u) false)) s) s
  s.modGrp ({ · with pending := [], parts := [] })

def State.sourceSays (s : State) (e : BitVec 5) (on : Bool) : State :=
  let s := s.dropUnits
  s.modGrp (fun g => { g with sources := (g.sources.filter (· != e.toNat)) ++ (if on then [e.toNat] else []) })

/-- The rebuild is whole: RECAST clears, a spare becomes a member, and every module clears the index's bit (R436). -/
def State.checkRebuilt (s : State) : State :=
  if !s.grp.recast || s.grp.units.length < s.grp.unitTotal || (s.grp.role = 2 && s.grp.restoring) then s
  else
    let own := s.grp.own
    let s := s.modGrp (fun g =>
      { g with recast := false, cfg := if g.role = 3 then wput g.cfg 29 2 1 else g.cfg, sources := [],
               mlost := if own < 16 then g.mlost &&& ~~~BitVec.ofNat 16 (2 ^ own) else g.mlost,
               hlost := if own < 16 then g.hlost else g.hlost &&& ~~~BitVec.ofNat 4 (2 ^ (own - 16)) })
    s.toParties (.rebuilt (BitVec.ofNat 5 own))

/-- The streams of some sources for a unit, XORed on their way. With the last member's the holders may read; with the last of all the unit is rebuilt (R437, R438). -/
def State.unitPart (s : State) (es : BitVec 20) (u : BitVec 23) (data : List Byte) : State :=
  if !s.grp.pending.contains u.toNat || s.grp.parts.any (fun p => p.1 == u.toNat && p.2.1 &&& es != 0) then s
  else
    let s := s.modGrp (fun g => { g with parts := g.parts ++ [(u.toNat, es, data)] })
    let have_ := fun (x : Nat) => s.grp.parts.any (fun p => p.1 == u.toNat && p.2.1.getLsbD x)
    let s :=
      if es.toNat % 2 ^ 16 != 0 && (s.grp.sources.filter (· < 16)).all have_ then
        (s.grp.sources.filter (16 ≤ ·)).foldl (fun (s : State) h => s.emit (s.grp.moduleOf h) (.unitGo u)) s
      else s
    if s.grp.sources.all have_ then
      s.urgent .recastUnit (.unit u ((s.grp.parts.filter (fun p => p.1 == u.toNat)).map (fun p => p.2.2)))
    else s

/-- A holder source is told that every member source is ready: it holds the unit's deltas and streams. DEDUCED (log entry 74), unsafe. -/
def State.unitGoes (s : State) (u : BitVec 23) (src : BitVec 20) : State :=
  if !s.grp.rcActive || s.grp.role ≠ 2 then s else (s.freeze u.toNat src).sendUnit u src

/-- RECAST_UNIT (R437, R438): the XOR of the parts is written without a log record, the unit is whole, and its sources go on. -/
def execRecastUnit (s : State) : Host.Outcome State Fault Refusal :=
  match s.run.input with
  | .unit u parts =>
    if !s.grp.recast || !s.grp.pending.contains u.toNat then .next s
    else
      let bytes := parts.foldl gfAdd (List.replicate 0x10000 0)
      let s := match s.imageAt (u.toNat * 0x10000) with | some a => s.rawWrite a bytes | none => s
      let s := s.grp.sources.foldl (fun (s : State) e => s.emit (s.grp.moduleOf e) (.unitDone u true)) s
      let s := s.modGrp (fun g =>
        { g with units := insNat u.toNat g.units, pending := g.pending.filter (· != u.toNat), parts := g.parts.filter (fun p => p.1 != u.toNat) })
      .next s.checkRebuilt.releaseDeltas.retryAsks
  | _ => .next s

/-- The background rebuild: the lowest unit not yet whole, one at a time (R439). DEDUCED (log entry 75), unsafe. -/
def State.recastTick (s : State) : State :=
  if !s.grp.recast || !s.grp.pending.isEmpty || s.grp.sources.length < s.grp.k || (s.grp.role = 2 && s.grp.restoring) then s
  else
    match (List.range s.grp.unitTotal).find? (fun u => !s.grp.units.contains u) with
    | some u => s.requestUnit u
    | none => s

/-- A spare or replacement is whole (R436, R440). While a restore is completed, the holders' word ends it (R443). -/
def State.rebuiltSays (s : State) (e : Nat) : State :=
  let s := s.modGrp (fun g =>
    { g with mlost := if e < 16 then g.mlost &&& ~~~BitVec.ofNat 16 (2 ^ e) else g.mlost,
             hlost := if e < 16 then g.hlost else g.hlost &&& ~~~BitVec.ofNat 4 (2 ^ (e - 16)),
             joined := g.joined.map (fun j => if j.1.toNat == e then (j.1, j.2.1, true) else j) })
  if s.grp.restoring && s.grp.role ≠ 2 && s.grp.joined.all (fun j => j.1.toNat < 16 || j.2.2) then
    (s.modGrp ({ · with restoring := false })).releaseHeld
  else s

/-! ## The loss of a module (R428, R433 to R435) -/

def Group.maskOf (p : Nat → Bool) : BitVec 20 := BitVec.ofNat 20 ((List.range 20).foldl (fun n e => n + natOfBool (p e) * 2 ^ e) 0)

/-- The entries held for lost, and those of them that nobody has taken. -/
def Group.lostMask (g : Group) : BitVec 20 := Group.maskOf g.isLost
def Group.absentMask (g : Group) : BitVec 20 := Group.maskOf (fun e => g.isLost e && !g.joined.any (fun j => j.1.toNat == e))

/-- This module's report: a received commit that is not yet applied counts as committed (R433, step 2). -/
def State.report (s : State) : Report :=
  let c := match s.grp.decision with | some (r, true, _, _) => laterRound s.lastCommitted (some r.toNat) | _ => s.lastCommitted
  ⟨BitVec.ofNat 5 s.grp.own, s.grp.round, BitVec.ofNat 3 s.grp.st.code, c.map wofNat, s.grp.lostMask, s.grp.absentMask⟩

/-- The resolution at the coordinator, once every survivor's report names the same losses (R433, step 3): r* is the highest round that any of them has committed, and there may be none. DEDUCED (log entry 78), unsafe. -/
def State.resolveGroup (s : State) : State :=
  let g := s.grp
  let here := fun (e : Nat) => g.reports.any (fun r => r.entry.toNat == e && r.absent == g.absentMask)
  if g.st ≠ .recovering || g.root ≠ g.own || !(g.entries.filter (fun e => !g.isLost e)).all here then s
  else
    let commit := g.reports.foldl (fun n r => laterRound n (r.committed.map (·.toNat))) none
    let next := wofNat (1 + g.reports.foldl (fun n r => max n r.round.toNat) 0)
    let f := s.fab.frame + 2
    (s.toParties (.resolution (commit.map wofNat) next f)).modGrp ({ · with decision := some (wofNat (commit.getD 0), commit.isSome, f, some next) })

/-! ### Joining as a spare or replacement (R436, R440) -/

/-- The region table and the pages of a member's image, as PROT would enter it; pages that are not mapped to write-back HBM are left out. -/
def State.regionOf (s : State) (r : PeerRegion) : PRegion :=
  let n := wbits r.spec 0 23
  let off := wbits r.spec 23 23 * 0x10000
  let pa := (List.range n).filterMap (fun i =>
    match s.walk s.grp.ctxNo (r.base.toNat + i * 0x10000) .store with
    | .ok (.mem loc 0) => if loc < hostLoc then some (loc, off + i * 0x10000) else none
    | _ => none)
  ⟨r.index.toNat, r.base, pa, r.spec, r.fresh.isSome, r.going.isSome⟩

/-- A joining module has heard every peer. With no report it enters OPEN (R422), unless its number is not its entry's: only a replacement holder may join so (R440). With the reports of every survivor it enters OPEN, or
RECOVERING where the coordinator does, as the entry that they hold for lost, in the coordinator's round, with every recast unit to be rebuilt; what the coordinator has decided
meanwhile it applies with the others (R436). -/
def State.checkJoin (s : State) : State :=
  let g := s.grp
  if !g.busy then s
  else
    let heard := fun (e : Nat) => g.heard[Fin.ofNat 20 e] != 0
    match (List.range 16).findSome? (fun e => g.reports.find? (fun r => r.entry.toNat == e)) with
    | none =>
      if g.role = 3 || !g.peers.all heard then s
      else if wbits (g.entryWord g.own) 0 20 ≠ s.modNum.toNat then s.modGrp (fun g => { g.cleared with cmdErr := 1 })
      else (s.modGrp ({ · with busy := false, st := .opened, cmdErr := 0 })).emptyLog
    | some c =>
      let there := g.peers.filter (fun e => c.absent.toNat / 2 ^ e % 2 == 0)
      if there.all (fun e => heard e && g.reports.any (fun r => r.entry.toNat == e && r.lost.toNat / 2 ^ g.own % 2 == 1)) then
        let s := (s.modGrp (fun g =>
          { g with busy := false, st := if c.state = 5 then .recovering else .opened, cmdErr := 0, round := c.round,
                   decision := g.decision.filter (fun d => d.2.2.2.isSome || d.1 == c.round), mlost := BitVec.ofNat 16 (c.lost.toNat % 2 ^ 16), hlost := BitVec.ofNat 4 (c.lost.toNat / 2 ^ 16),
                   recast := true, units := [], reports := [] })).emptyLog
        let s := if s.grp.role = 2 then s
          else s.modGrp (fun g => { g with regions := (g.peerReg.filter (fun r => r.member.toNat == g.own)).map s.regionOf, peerReg := [] })
        s.checkRebuilt
      else s

/-- A report arrives at the coordinator, or at a joining module. -/
def State.reportArrives (s : State) (r : Report) : State :=
  let s := s.modGrp (fun g => { g with reports := g.reports.filter (fun x => x.entry != r.entry) ++ [r] })
  if s.grp.busy then s.checkJoin else s.resolveGroup

/-- RECOVERY_REPORT (R433). -/
def execRecoveryReport (s : State) : Host.Outcome State Fault Refusal :=
  match s.run.input with
  | .report r => if s.grp.busy || s.grp.serving then .next (s.reportArrives r) else .next s
  | _ => .next s

def State.sendReport (s : State) : State :=
  if s.grp.root = s.grp.own then s.reportArrives s.report else s.emit (s.grp.moduleOf s.grp.root) (.report s.report)

/-- An export is abandoned (R442). -/
def State.abandonExport (s : State) : State := if s.grp.expBusy = 1 then s.modGrp ({ · with expBusy := 0, expRes := 1, expWait := false }) else s

/-- Every attempt at a repair fails at once (R435). -/
def State.failAsks (s : State) : State := s.grp.asks.foldl (fun (s : State) a => if a.deadline = 0 then s else s.failAsk a.atom) s

/-- The module enters LOST. -/
def State.enterLost (s : State) : State :=
  ((s.modGrp ({ · with st := .lost, decision := none, wants := [], frozen := [], sources := [], pending := [], parts := [] })).abandonExport).failAsks

/-- Posted writes to a module that is declared lost fail with DOWN (R388). -/
def State.peerLost (s : State) (m : BitVec 20) : State :=
  (List.range 130).foldl (fun (s : State) t =>
    (List.range 4).foldl (fun (s : State) h =>
      (List.range 64).foldl (fun (s : State) w =>
        ((s.winAt t h w).flits.filter (fun f => f.dst == m)).foldl (fun (s : State) f => s.postDone t h f.num 4) s) s) s) s

/-- A peer is declared lost (R428, R431 to R435). A resolution not yet applied is taken back into the reports. -/
def State.declareLost (s : State) (e : Nat) : State :=
  let g := s.grp
  if !g.serving || e = g.own || !g.valid e || (g.isLost e && !g.joined.any (fun j => j.1.toNat == e)) then s
  else
    let m := g.moduleOf e
    let s := if g.sources.contains e then s.dropUnits else s
    let s := s.modGrp (fun g =>
      { g with
        mlost := if e < 16 then g.mlost ||| BitVec.ofNat 16 (2 ^ e) else g.mlost,
        hlost := if e < 16 then g.hlost else g.hlost ||| BitVec.ofNat 4 (2 ^ (e - 16)),
        joined := g.joined.filter (fun j => j.1.toNat != e),
        heard := g.heard.set (Fin.ofNat 20 e) 0,
        reports := g.reports.filter (fun r => r.entry.toNat != e),
        holderUnits := g.holderUnits.filter (fun x => 16 + x.1 != e),
        unacked := g.unacked.filter (fun d => 16 + d.1.toNat != e),
        frozen := g.frozen.filter (fun x => x.2 != m),
        wants := g.wants.filter (fun x => x.2 != m),
        sources := g.sources.filter (· != e),
        decision := g.decision.map (fun d => (d.1, d.2.1, d.2.2.1, none)),
        st := .recovering })
    let s := ((s.wake 5).peerLost m).abandonExport
    if s.grp.m < s.grp.lossCount then s.enterLost
    else
      let s := s.grp.asks.foldl (fun (s : State) a => if a.deadline = 0 then s else s.checkAsk a.atom) s.sendAsks
      s.serveWants.sendReport

/-- LOSS_DECLARE (R428): four frames without a heartbeat; the notice goes to every other module of the code word. -/
def execLossDeclare (s : State) : Host.Outcome State Fault Refusal :=
  match s.run.input with
  | .entry e =>
    let h := s.grp.heard[Fin.ofNat 20 e.toNat].toNat
    if !s.grp.serving || e.toNat = s.grp.own || h = 0 || s.fab.frame.toNat < h + 4 then .next s
    else
      let s := s.grp.peers.foldl (fun (s : State) p => s.emit (s.grp.moduleOf p) (.lost e)) s
      .next (s.declareLost e.toNat)
  | _ => .next s

/-- LOST_NOTICE (R428): the module named in it is lost itself, be it LOST already for another reason. -/
def execLostNotice (s : State) : Host.Outcome State Fault Refusal :=
  match s.run.input with
  | .entry e =>
    if s.grp.st = .none then .next s
    else if e.toNat = s.grp.own then .next (s.modGrp ({ · with lostSelf := true })).enterLost
    else .next (s.declareLost e.toNat)
  | _ => .next s

/-! ## Heartbeats (R422, R428) -/

/-- Four frames after its JOIN, no module has told a would-be replacement that its index is lost: it is none, and its number is not its entry's (R422; DEDUCED, log entry 84). -/
def State.unreplaced (s : State) : Bool :=
  let h := s.grp.heard[Fin.ofNat 20 s.grp.own].toNat
  s.grp.busy && s.replaces && h != 0 && h + 4 ≤ s.fab.frame.toNat && !s.grp.reports.any (fun r => r.lost.toNat / 2 ^ s.grp.own % 2 == 1)

/-- HEARTBEAT_SEND: once a frame, from JOIN on. -/
def execHeartbeatSend (s : State) : Host.Outcome State Fault Refusal :=
  if s.grp.st == .none && !s.grp.busy then .next s
  else if s.unreplaced then .next (s.modGrp (fun g => { g.cleared with cmdErr := 1 }))
  else
    let g := s.grp
    let h : Heartbeat := ⟨BitVec.ofNat 5 g.own, BitVec.ofNat 2 g.role, BitVec.ofNat 16 g.number, g.round, BitVec.ofNat 3 g.st.code, g.hash⟩
    .next (g.peers.foldl (fun (s : State) e => s.emit (g.moduleOf e) (.heartbeat h)) s)

/-- The lowest-numbered holder with complete parity. -/
def Group.tableHolder (g : Group) : Option Nat := (List.range 20).find? (fun e => 16 ≤ e && g.valid e && !g.isLost e)

/-- The flits that carry a region's entry to a joining module: as it stands, and its removal where a round is to remove it. -/
def State.sendEntry (s : State) (dst : BitVec 20) (m : BitVec 4) (i : BitVec 6) (base spec : Word) (fresh going : Option Word) : State :=
  let s := s.emit dst (.region m i base spec fresh false)
  if going.isSome then s.emit dst (.region m i base spec going true) else s

/-- A joining module's heartbeat at a survivor: the entry is taken, the region tables go to it from the lowest complete holder (the lost member's, or every member's for
a holder), and the survivor's report; the coordinator adds a decision or a resolution that is not yet applied (R436). -/
def State.welcome (s : State) (e : BitVec 5) (src : BitVec 20) : State :=
  let s := s.modGrp (fun g => { g with joined := g.joined.filter (fun j => j.1 != e) ++ [(e, src, false)], holderUnits := g.holderUnits.filter (fun x => 16 + x.1 != e.toNat), heard := g.heard.set (Fin.ofNat 20 e.toNat) (s.fab.frame + 1) })
  let s :=
    if e.toNat < 16 then
      (if s.grp.tableHolder = some s.grp.own then
        (s.grp.peerReg.filter (fun r => r.member.toNat == e.toNat)).foldl (fun (s : State) r => s.sendEntry src r.member r.index r.base r.spec r.fresh r.going) s
      else s)
    else if s.grp.role = 2 then s
    else
      let mark := fun (b : Bool) => if b then some s.grp.round else none
      s.grp.regions.foldl (fun (s : State) r => s.sendEntry src (BitVec.ofNat 4 s.grp.index) (BitVec.ofNat 6 r.index) r.base r.spec (mark r.fresh) (mark r.going)) s
  let s := s.emit src (.report s.report)
  match s.grp.decision with
  | some (r, commit, f, next) =>
    if s.grp.root ≠ s.grp.own then s
    else (match next with
      | some n => s.emit src (.resolution (if commit then some r else none) n f)
      | none => if s.grp.st = .recovering then s else s.emit src (.decision r commit f))
  | none => s

/-- HEARTBEAT_RECEIVE. -/
def execHeartbeatReceive (s : State) : Host.Outcome State Fault Refusal :=
  match s.run.input with
  | .heartbeat src h =>
    let g := s.grp
    let e := h.entry.toNat
    let same := h.group.toNat == g.number && h.cfgHash == g.hash
    if (g.st == .none && !g.busy) || 20 ≤ e then .next s
    else if g.busy && !same then .next (s.modGrp (fun g => { g.cleared with cmdErr := 4 }))
    else if !same || e = g.own || !g.valid e then .next s
    else if !g.busy && g.serving && g.isLost e && h.state = 0 && h.role = (if e < 16 then 3 else 2) then .next (s.welcome h.entry src)
    else if src ≠ g.moduleOf e then .next s
    else if !g.busy && g.isLost e && !g.joined.any (fun j => j.1.toNat == e) then .next s
    else .next (s.modGrp (fun g => { g with heard := g.heard.set (Fin.ofNat 20 e) (s.fab.frame + 1) })).checkJoin
  | _ => .next s

/-- The losses that are due in this frame. -/
def State.overdue (s : State) : List Nat :=
  if !s.grp.serving then []
  else s.grp.peers.filter (fun e =>
    let h := s.grp.heard[Fin.ofNat 20 e].toNat
    h != 0 && h + 4 ≤ s.fab.frame.toNat)

/-! ## Shard export and restore (R441 to R443) -/

/-- Bytes of a range of the group's context; none when a page faults, or on poison. -/
def State.ctxBytes (s : State) (va n : Nat) : Option (List Byte) :=
  match s.globalPieces s.grp.ctxNo va n .load with
  | .error _ => none
  | .ok ps =>
    ps.foldl (fun (acc : Option (List Byte)) p =>
      match acc, p.place with
      | some bs, .mem loc _ => if (s.locPoison loc p.n).isEmpty then some (bs ++ s.locBytes loc p.n) else none
      | _, _ => none) (some [])

/-- A write to a range of the group's context; none when a page faults. -/
def State.ctxWrite (s : State) (va : Nat) (bs : List Byte) : Option State :=
  match s.globalPieces s.grp.ctxNo va bs.length .store with
  | .error _ => none
  | .ok ps =>
    (ps.foldl (fun (acc : Option (State × List Byte)) p =>
      match acc, p.place with
      | some (s, bs), .mem loc _ => some (s.locWrite loc (bs.take p.n), bs.drop p.n)
      | _, _ => none) (some (s, bs))).map (·.1)

def Group.slotAddr (g : Group) (slot : Bool) : Nat := wbits (if slot then g.expB else g.expA) 12 45 * 0x1000

/-- The header of a slot where it is valid. DEDUCED (log entry 76), unsafe. -/
def State.header (s : State) (slot : Bool) : Option (List Byte) :=
  match s.ctxBytes (s.grp.slotAddr slot) 4096 with
  | some b => if leAt b 0 4 = 0x44485354 && leAt b 4 2 = 1 then some b else none
  | none => none

def headerRound (b : List Byte) : Nat := leAt b 8 8

/-- The slot that does not hold the newest valid header; A when neither does. -/
def State.exportSlot (s : State) : Bool :=
  match s.header false, s.header true with
  | some a, some b => headerRound b ≤ headerRound a
  | some _, none => true
  | none, _ => false

/-- The atom that the group has to supply before the pages of both slots, or their headers, can be read (R439). -/
def State.slotAsk (s : State) : Option Nat :=
  [false, true].findSome? (fun sl =>
    match s.globalPieces s.grp.ctxNo (s.grp.slotAddr sl) (0x1000 + s.grp.imageSize) .store with
    | .error (.ask u, _) => some u
    | .error _ => none
    | .ok ps => ps.findSome? (fun p => match p.place with | .mem loc _ => s.locAsk loc p.n | _ => none))

/-- EXPORT, step 1 (R442): the slot's magic is zeroed. -/
def State.beginExport (s : State) : State :=
  match s.slotAsk with
  | some u => (s.askFor false u).modGrp ({ · with expBusy := 1, expRes := 0, expMiss := 0, expWait := true })
  | none =>
    let slot := s.exportSlot
    let s := s.modGrp ({ · with expSlot := slot, expWait := false })
    match s.ctxWrite (s.grp.slotAddr slot) [0, 0, 0, 0] with
    | none => s.modGrp ({ · with expBusy := 0, expRes := 2 })
    | some s => s.modGrp ({ · with expBusy := 1, expRes := 0, expMiss := 0 })

/-- EXPORT (R442). The image and the header follow in the next frame. -/
def execExportShard (s : State) : Host.Outcome State Fault Refusal :=
  let g := s.grp
  if (g.role ≠ 1 && g.role ≠ 3) || !(g.st == .opened || g.st == .preparing || g.st == .voted) || g.expBusy ≠ 0 then
    .next (s.modGrp ({ · with expRes := 6 }))
  else .next s.beginExport

/-- The committed bytes of an atom of the image: its undo record where this round has touched it. -/
def State.committedAtom (s : State) (off : Nat) : List Byte :=
  let rec_ := (List.range s.grp.used).findSome? (fun i =>
    let b := s.mems.hbm.mem.read (s.grp.logBase + 0x10000 + 64 * i) 64
    if leAt b 32 8 = off && leAt b 40 8 = s.grp.round.toNat then some (b.take 32) else none)
  match s.touched off, rec_, s.grp.imagePa off with
  | true, some b, _ => b
  | _, _, some a => s.mems.hbm.mem.read a 32
  | _, _, none => List.replicate 32 0

/-- The image of the last committed round. -/
def State.committedImage (s : State) (size : Nat) : List Byte := (List.range (size / 32)).flatMap (fun i => s.committedAtom (32 * i))

/-- The committed region table: its 64 entries. -/
def Group.table (rs : List PRegion) : List Byte :=
  (List.range 64).flatMap (fun i =>
    match rs.find? (fun r => r.index == i) with
    | some r => leBytes 8 r.base.toNat ++ leBytes 8 r.spec.toNat
    | none => List.replicate 16 0)

def State.headerBytes (s : State) (image : List Byte) (rs : List PRegion) : List Byte :=
  [0x54, 0x53, 0x48, 0x44].map (BitVec.ofNat 8) ++ leBytes 2 1 ++ leBytes 2 s.grp.number ++ leBytes 8 (s.lastCommitted.getD 0) ++ leBytes 1 s.grp.index ++ leBytes 1 s.grp.k ++
    leBytes 1 s.grp.m ++ List.replicate 5 0 ++ leBytes 8 image.length ++ leBytes 64 (shake256 image).toNat ++ Group.table rs ++ List.replicate 2976 0

/-- The first atom of the image that the group has yet to supply: poisoned, or in a unit not yet rebuilt (R212, R439). -/
def State.exportNeeds (s : State) : Option Nat :=
  if !s.grp.recast && s.mems.hbm.poison.isEmpty then none
  else (s.grp.regions.filter (fun r => !r.fresh)).findSome? (fun r => r.pa.findSome? (fun p => s.needAsk p.1 0x10000))

/-- EXPORT, steps 2 and 3, a frame later, or once every atom of the image can be read. DEDUCED (log entry 77), unsafe. -/
def State.exportTick (s : State) : State :=
  if s.grp.expBusy ≠ 1 then s
  else if s.grp.expWait then s.beginExport
  else if let some a := s.exportNeeds.or s.slotAsk then s.askFor false a
  else
    let rs := s.grp.regions.filter (fun r => !r.fresh)
    let image := s.committedImage ({ s.grp with regions := rs } : Group).imageSize
    let head := s.headerBytes image rs
    let a := s.grp.slotAddr s.grp.expSlot
    match (s.ctxWrite (a + 0x1000) image).bind (fun (s : State) => s.ctxWrite a head) with
    | some s => s.modGrp ({ · with expBusy := 0, expRes := 0 })
    | none => s.modGrp ({ · with expBusy := 0, expRes := 2 })

/-- CANCEL (R442). -/
def execCancelExport (s : State) : Host.Outcome State Fault Refusal := .next s.abandonExport

/-- The shard a member selects (R443): its slot and its round. -/
def State.selectShard (s : State) (round : Nat) : Option (Bool × Nat) :=
  let c := [false, true].filterMap (fun sl => (s.header sl).map (fun b => (sl, headerRound b)))
  if round ≠ 0 then c.find? (fun x => x.2 == round)
  else c.foldl (fun (b : Option (Bool × Nat)) x => match b with | some y => some (if y.2 < x.2 then x else y) | none => some x) none

/-- The image of a slot. -/
def State.shardImage (s : State) (slot : Bool) : Option (List Byte) :=
  (s.header slot).bind (fun b => s.ctxBytes (s.grp.slotAddr slot + 0x1000) (leAt b 24 8))

/-- The digest of a shard is right. -/
def State.shardGood (s : State) (slot : Bool) : Bool :=
  match s.header slot, s.shardImage slot with
  | some b, some i => leAt b 32 64 == (shake256 i).toNat
  | _, _ => false

/-- The image of a shard is written into the regions of its table, without deltas, and the holders are told (R443). -/
def State.installShard (s : State) (slot : Bool) (round : Nat) : State :=
  match s.header slot, s.shardImage slot with
  | some b, some image =>
    let m := BitVec.ofNat 4 s.grp.index
    let ps : List PeerRegion := (List.range 64).filterMap (fun i =>
      let spec := wofNat (leAt b (96 + 16 * i + 8) 8)
      if wbits spec 0 23 = 0 then none else some ⟨m, BitVec.ofNat 6 i, wofNat (leAt b (96 + 16 * i) 8), spec, none, none⟩)
    let hs := s.grp.liveHolders
    let s := s.modGrp (fun g =>
      { g with regions := ps.map s.regionOf, round := wofNat (round + 1), restoring := !hs.isEmpty,
               joined := g.joined.filter (fun j => j.1.toNat < 16) ++ hs.map (fun e => (BitVec.ofNat 5 e, g.moduleOf e, false)) })
    let s := s.grp.regions.foldl (fun (s : State) r =>
      r.pa.foldl (fun (s : State) p => s.rawWrite p.1 (((image.drop p.2).take 0x10000))) s) s
    hs.foldl (fun (s : State) e =>
      (ps.foldl (fun (s : State) r => s.emit (s.grp.moduleOf e) (.region m r.index r.base r.spec none false)) s).emit (s.grp.moduleOf e) (.restored m (wofNat round))) s
  | _, _ => s

def State.endRestore (s : State) (res : BitVec 4) (miss : Nat) : State :=
  s.modGrp ({ · with expBusy := 0, expRes := res, expMiss := BitVec.ofNat 16 miss, sel := [] })

/-- The members of a list of selections as bits of MISS. -/
def missOf (l : List (Nat × Option Nat × Bool)) : Nat := l.foldl (fun n x => n + 2 ^ x.1) 0

/-- The exchanged selections are all here: the outcome is the same on every member. -/
def State.finishRestore (s : State) (peers : List (Nat × Option Nat × Bool)) : State :=
  match peers.foldl (fun n p => laterRound n p.2.1) none with
  | none => s.endRestore 4 (missOf peers)
  | some top =>
    let off := peers.filter (fun x => x.2.1 != some top)
    if peers.any (fun x => x.2.1 == none) then s.endRestore 4 (missOf off)
    else if !off.isEmpty then s.endRestore 3 (missOf off)
    else if peers.any (fun x => !x.2.2) then s.endRestore 5 0
    else
      match s.selectShard top with
      | some (slot, _) => (s.modGrp ({ · with expSlot := slot })).installShard slot top |>.endRestore 0 0
      | none => s.endRestore 2 0

/-- With the selections of all k members, the restore goes on. -/
def State.checkRestore (s : State) : State :=
  if s.grp.expBusy = 2 && (List.range s.grp.k).all (fun i => s.grp.sel.any (fun x => x.1 == i)) then
    s.urgent .restoreShard (.restore (BitVec.ofNat 60 s.grp.selRound) s.grp.sel)
  else s

/-- RESTORE (R443): first this member's selection goes to the others; once theirs are here the event comes again with them. -/
def execRestoreShard (s : State) : Host.Outcome State Fault Refusal :=
  match s.run.input with
  | .restore round [] =>
    let g := s.grp
    if (g.role ≠ 1 && g.role ≠ 3) || g.st ≠ .opened || g.used ≠ 0 || !g.regions.isEmpty || g.expBusy ≠ 0 then .next (s.modGrp ({ · with expRes := 6 }))
    else
      let x := s.selectShard round.toNat
      let mine : Nat × Option Nat × Bool := (g.index, x.map (·.2), (x.map (fun y => s.shardGood y.1)).getD true)
      let s := s.modGrp (fun g =>
        { g with expBusy := 2, expRes := 0, expMiss := 0, expSlot := (x.map (·.1)).getD g.expSlot, selRound := round.toNat,
                 sel := g.sel.filter (fun y => y.1 != g.index) ++ [mine] })
      let s := (s.grp.peers.filter (· < 16)).foldl (fun (s : State) e => s.emit (s.grp.moduleOf e) (.selection (BitVec.ofNat 4 mine.1) mine.2.1 mine.2.2)) s
      .next s.checkRestore
  | .restore _ peers => if s.grp.expBusy = 2 then .next (s.finishRestore peers) else .next s
  | _ => .next s

/-- Another member's selection. -/
def State.selectionArrives (s : State) (m : BitVec 4) (round : Option Nat) (good : Bool) : State :=
  (s.modGrp (fun g => { g with sel := g.sel.filter (fun y => y.1 != m.toNat) ++ [(m.toNat, round, good)] })).checkRestore

/-- A member's word to a holder that it has restored a round: with the first the parity is to be rebuilt, with the last its image's size is known. -/
def State.restoredArrives (s : State) (m : BitVec 4) (round : Word) : State :=
  if s.grp.role ≠ 2 || !s.grp.serving then s
  else
    let s := if s.grp.restoring then s
      else (s.modGrp ({ · with restoring := true, recast := true, units := [], pending := [], parts := [], sel := [], round := round + 1 })).emptyLog
    let s := s.modGrp (fun g =>
      { g with sel := g.sel.filter (fun y => y.1 != m.toNat) ++ [(m.toNat, some round.toNat, true)],
               peerReg := g.peerReg.map (fun r => if r.member == m then { r with fresh := none } else r) })
    if (List.range s.grp.k).all (fun i => s.grp.sel.any (fun x => x.1 == i)) then (s.modGrp ({ · with restoring := false, sel := [] })).checkRebuilt else s

/-- A member's region entry at a holder, or at a joining module (R426, R436). A removal only marks the entry. One of a round that is decided is too late (R420 says the same
of a delta). -/
def State.regionArrives (s : State) (m : BitVec 4) (i : BitVec 6) (base spec : Word) (round : Option Word) (removed : Bool) : State :=
  if !s.grp.busy && round.any (fun x => x.toNat < s.grp.round.toNat) then s
  else s.modGrp (fun g =>
    { g with peerReg :=
        if removed then g.peerReg.map (fun r => if r.member == m && r.index == i then { r with going := round } else r)
        else g.peerReg.filter (fun r => !(r.member == m && r.index == i && r.going.isNone)) ++ [⟨m, i, base, spec, round, none⟩] })

end Sys2Proof.Machine
end

