-- ==== Sys2Proof/Machine/Fabric.lean ====
section
/-! DEFINITION. The fabric unit (R379 to R385, R460): slots and their owners, routes, the frame clock with what is due at a frame's start, links, and where an arriving flit goes. -/

namespace Sys2Proof.Machine

/-! ## Routes (R385, R460) -/

/-- The dimension and direction of a port by FAB_PORTA and FAB_PORTB: 7 for unused; 1 for minus. -/
def State.portMap (s : State) (p : Nat) : Nat × Nat :=
  let v := if p < 16 then wbits s.fab.portA (4 * p) 4 else wbits s.fab.portB (4 * (p - 16)) 4
  (v % 8, v / 8)

/-- The first port of a route's list whose link is up. -/
def State.listed (s : State) (k d : Nat) : Option Nat :=
  ((List.range 4).map (fun i => (s.mems.hbm.mem.byte (wbits s.fab.route 12 45 * 0x1000 + 8 * k + 4 * d + i)).toNat)).find? (fun p =>
    p < 24 && s.fab.usable.toNat / 2 ^ p % 2 == 1)

/-- The direction of a flit in dimension `k` over a distance of `up` in the plus direction and `down` in the minus direction: the shorter way, plus on a tie. A flit
that came in along the dimension keeps the way it goes (DEDUCED, log entry 85). -/
def State.heading (s : State) (input k up down : Nat) : Nat :=
  let way := if up ≤ down then 0 else 1
  if input < 24 && (s.portMap input).1 = k then 1 - (s.portMap input).2 else way

/-- The port a flit leaves by; none where no link of its dimension is up. -/
def State.routeOf (s : State) (f : OutFlit) : Option Nat :=
  match f.port with
  | some p => if s.fab.usable.toNat / 2 ^ p % 2 = 1 then some p else none
  | none =>
    let here := fun (k : Nat) => coordOf s.fab.ext k s.modNum.toNat
    let there := fun (k : Nat) => coordOf s.fab.ext k f.dst.toNat
    match (List.range s.ndim).find? (fun k => here k != there k) with
    | none => none
    | some k =>
      let e := s.extent k
      let d := s.heading f.input k ((there k + e - here k) % e) ((here k + e - there k) % e)
      match s.listed k d with
      | some p => some p
      | none => s.listed k (1 - d)

/-! ## Slots (R379, R382, R383) -/

/-- The owner of an output port in a slot: a byte of the split bank in force. -/
def State.owner (s : State) (p slot : Nat) : Nat :=
  (s.mems.hbm.mem.byte (wbits s.fab.split 12 45 * 0x1000 + wbits s.fab.split 0 1 * 0x1000 + 64 * p + slot % 64)).toNat

def State.schedBase (s : State) : Nat := wbits s.fab.sched 19 38 * 0x80000 + wbits s.fab.sched 0 1 * 0x80000

/-- The entries of the schedule bank in force, from entry `n`, up to the first of all ones. DEDUCED (log entry 80), unsafe. -/
def State.schedFrom (s : State) (n : Nat) : Nat → List Nat
  | 0 => []
  | fuel + 1 =>
    let e := s.mems.hbm.mem.readN (s.schedBase + 8 * n) 8
    if e = 2 ^ 64 - 1 then [] else e :: s.schedFrom (n + 1) fuel

def State.schedule (s : State) : List Nat := s.schedFrom 0 65536

def schedSlot (e : Nat) : Nat := e % 2 ^ 13
def schedPort (e : Nat) : Nat := e / 2 ^ 13 % 32
def schedSrc (e : Nat) : Nat := e / 2 ^ 18 % 4
def schedId (e : Nat) : Nat := e / 2 ^ 20 % 256
def schedNf (e : Nat) : Nat := e / 2 ^ 28 % 8 + 1

/-- A flit comes from the source that a schedule entry names: an input port, a reduction slot, or the tinning stream to a holder (DEDUCED, log entry 86). -/
def State.fromSource (s : State) (f : OutFlit) (src id : Nat) : Bool :=
  match src with
  | 0 => f.input < 24 && f.input == id
  | 1 => f.input == 24 && (match f.flit with | .contribution c => c.slot.toNat == id | .result c => c.slot.toNat == id | _ => false)
  | 2 => f.input == 24 && (match f.flit with | .delta _ => id < 4 && s.grp.moduleOf (16 + id) == f.dst | _ => false)
  | _ => false

/-- A flit of a reduction slot or a tinning stream that some entry names. -/
def State.scheduled (s : State) (f : OutFlit) : Bool :=
  match f.flit with
  | .contribution _ | .result _ | .delta _ =>
    f.input == 24 && s.schedule.any (fun e => (schedSrc e == 1 || schedSrc e == 2) && s.fromSource f (schedSrc e) (schedId e))
  | _ => false

/-- The flits that may leave by port `p` for an owner, oldest first. -/
def State.ownFlits (s : State) (p : Nat) (mine : OutFlit → Bool) : List OutFlit := s.fab.out.filter (fun f => mine f && s.routeOf f == some p)

def State.leave (s : State) (p : Nat) (fs : List OutFlit) : State :=
  { s with fab := { s.fab with out := fs.foldl (fun l f => l.erase f) s.fab.out, sent := s.fab.sent ++ fs.map (fun f => (p, f)) } }

/-- What output port `p` sends in a slot. Of the flits of local injection, those of the open class that were originated while new ones are held stay (R385). -/
def State.sendPort (s : State) (slot p : Nat) : State :=
  let o := s.owner p slot
  if o < 24 then s.leave p ((s.ownFlits p (fun f => f.input == o)).take 8)
  else if o = 24 then s.leave p ((s.ownFlits p (fun f => f.input == 24 && !f.held && !s.scheduled f)).take 8)
  else if o = 25 then
    (s.schedule.filter (fun e => schedSlot e == slot && schedPort e == p)).foldl (fun (s : State) e =>
      s.leave p ((s.ownFlits p (fun f => s.fromSource f (schedSrc e) (schedId e))).take (schedNf e))) s
  else s

/-- A slot begins. Flits to this module itself are delivered here; the others leave by their ports; `sent` shows what left in this slot. -/
def State.slotBegins (s : State) : State :=
  let s := if s.fab.sent.isEmpty then s else { s with fab := { s.fab with sent := [] } }
  if s.fab.out.isEmpty then s
  else
    let own := s.fab.out.filter (fun f => f.dst == s.modNum && f.port.isNone)
    let s := { s with fab := { s.fab with out := s.fab.out.filter (fun f => !(f.dst == s.modNum && f.port.isNone)) } }
    let s := s.pushAgenda (own.map (fun f => ⟨.flitReceive, .flit 0 f.src f.dst f.hops f.flit⟩))
    (List.range 24).foldl (fun (s : State) p => if s.fab.usable.toNat / 2 ^ p % 2 = 1 then s.sendPort s.fab.slot.toNat p else s) s

/-- The bank switches that take effect at the start of the next frame (R384). -/
def State.dueSwitches (s : State) : List Word := s.fab.switch.filter (fun v => wbits v 16 48 ≤ s.fab.frame.toNat + 1)

/-- They take effect, in the order they were written. -/
def State.applySwitches (s : State) : State :=
  let f := s.dueSwitches.foldl (fun (f : Fabric) v =>
    { f with split := if wbit v 2 then wput f.split 0 1 (wbits v 0 1) else f.split, sched := if wbit v 3 then wput f.sched 0 1 (wbits v 1 1) else f.sched }) s.fab
  { s with fab := { f with switch := f.switch.filter (fun v => s.fab.frame.toNat + 1 < wbits v 16 48) } }

/-- The frame clock in a tile cycle: a slot lasts 2.56 ns and a tile cycle 1.667 ns, so a slot begins in 125 of 192 cycles (R2, R379). The first slot of a frame is the business of
FRAME_TICK. -/
def State.slotTick (s : State) : State :=
  if (s.run.cycle + 1) * 125 / 192 = s.run.cycle * 125 / 192 then s
  else if s.fab.slot.toNat = 8191 then s.pushAgenda ((if s.dueSwitches.isEmpty then [] else [⟨.fabSwitchApply, .none⟩]) ++ [⟨.frameTick, .none⟩])
  else ({ s with fab := { s.fab with slot := s.fab.slot + 1 } }).slotBegins

/-! ## The start of a frame (R383 to R385, R428, R429) -/

/-- FRAME_TICK: the bank switches of the frame that starts, the frame counter, the routes after a change of links with the hold of new flits for one frame, SCHEDERR, and the events due at the frame's start. -/
def execFrameTick (s : State) : Host.Outcome State Fault Refusal :=
  let changed := s.fab.usable != s.fab.up
  let s := s.applySwitches
  let s := { s with fab := { s.fab with frame := s.fab.frame + 1, slot := 0, usable := s.fab.up, hold := changed, out := s.fab.out.map (fun (f : OutFlit) => { f with held := false }) } }
  let bad := s.schedule.any (fun e => 24 ≤ schedPort e || s.owner (schedPort e) (schedSlot e) != 25)
  let s := if bad then { s with fab := { s.fab with schederr := true } }.markPriv 0x9CB (wofNat (2 ^ 49)) else s
  let s := s.pushAgenda (s.overdue.map (fun e => ⟨.lossDeclare, .entry (BitVec.ofNat 5 e)⟩))
  let s := match s.grp.decision with
    | some (_, _, f, _) => if f.toNat ≤ s.fab.frame.toNat then s.pushAgenda [⟨.decisionApply, .none⟩] else s
    | none => s
  let s := if s.grp.st == .none && !s.grp.busy then s else s.pushAgenda [⟨.heartbeatSend, .none⟩]
  .next s.marginFrames.exportTick.slotBegins

/-- FAB_SWITCH (R384): a frame already begun sets LATESW, and the switch takes effect at the next. -/
def execFabSwitch (s : State) : Host.Outcome State Fault Refusal :=
  match s.run.input with
  | .word v =>
    let now := s.fab.frame.toNat
    let late := wbits v 16 48 ≤ now
    let s := if late then s.markPriv 0x9CB (wofNat (2 ^ 48)) else s
    .next { s with fab := { s.fab with switch := s.fab.switch ++ [if late then wput v 16 48 (now + 1) else v], latesw := s.fab.latesw || late } }
  | _ => .next s

/-- FAB_SWITCH_APPLY (R384): the last slot of a frame is over, and the switches for the next frame take effect before its first slot. -/
def execFabSwitchApply (s : State) : Host.Outcome State Fault Refusal := .next s.applySwitches

/-! ## Links -/

/-- LINK_DOWN (R380, R385, R458): routes change at the next frame; a running margin measurement of the port ends with ERRS all ones. -/
def execLinkDown (s : State) : Host.Outcome State Fault Refusal :=
  match s.run.input with
  | .port p =>
    let b := BitVec.ofNat 24 (2 ^ p.toNat)
    let i : Fin 24 := Fin.ofNat 24 p.toNat
    let s := { s with fab := { s.fab with up := s.fab.up &&& ~~~b, failed := s.fab.failed ||| b } }.markPriv 0x9CB (wofNat (b.toNat * 2 ^ 24))
    if s.margin.lmrun[i].isNone then .next s
    else .next { s with margin := { s.margin with lmrun := s.margin.lmrun.set i none, lmerr := s.margin.lmerr.set i 0xFFFFFFFF } }
  | _ => .next s

/-- FABRIC_LINK_UP (R385, R457): the port's link comes up on the lanes it trained; a retraining is counted, and the lanes it lost are marked. -/
def execFabricLinkUp (s : State) : Host.Outcome State Fault Refusal :=
  match s.run.input with
  | .lanes p l =>
    let i : Fin 24 := Fin.ofNat 24 p.toNat
    let b := BitVec.ofNat 24 (2 ^ p.toNat)
    let v := s.margin.lmlane[i]
    let again := s.fab.trained[i]
    let lost := wbits v 0 8 - (BitVec.ofNat 8 (wbits v 0 8) &&& l).toNat
    let v := wput v 8 8 ((BitVec.ofNat 8 (wbits v 8 8) ||| BitVec.ofNat 8 (if again then lost else 0)).toNat)
    let v := wput (wput v 0 8 l.toNat) 16 8 (min (wbits v 16 8 + natOfBool again) 255)
    .next ({ s with fab := { s.fab with up := s.fab.up ||| b, trained := s.fab.trained ||| b }, margin := { s.margin with lmlane := s.margin.lmlane.set i v } }.markPriv (0xA03 + 4 * p.toNat)
      (if again then wofNat (lost * 2 ^ 8) else 0))
  | _ => .next s

/-! ## Arrival (R460) -/

/-- A resolution of the coordinator (R433); a joining module keeps it until it knows the coordinator's state (R436). -/
def State.resolutionArrives (s : State) (r : Option Word) (n : Word) (f : BitVec 48) : State :=
  if s.grp.st == .recovering || s.grp.busy then s.modGrp ({ · with decision := some (r.getD 0, r.isSome, f, some n) }) else s

/-- A flit for this module, from module `src`, that came in on port `p`. -/
def State.deliverFlit (s : State) (p : BitVec 5) (src : BitVec 20) (f : Flit) : State :=
  match f with
  | .posted r m d who => s.urgent .postedWriteReceive (.posted src r m d who)
  | .postedAck who c => s.urgent .postedAck (.ack who c)
  | .loadReq r n m who => s.urgent .remoteLoadReceive (.load src r n m who)
  | .loadReply who ok ps d => s.answer who (if ok then .bytes ps d else .failed)
  | .atomicReq r op nat dbl v cmp who => s.atomicArrives src r (AmOp.ofCode op.toNat) nat dbl v cmp who
  | .atomicReply who st lo hi => s.answer who (.word st.toNat lo hi)
  | .sector r d ps sg who q => s.sectorArrives src r d ps sg who q
  | .sectorAck who q c g o => s.sectorAcked who.tile.toNat who.thread.toNat who.id q c.toNat g.toNat o
  | .launch q key sk pk who => if pk.length == 120 then s.urgent .launchReceive (.packet src q key sk pk who) else s
  | .launchReply who c seq => s.answer who (.word c.toNat (wofNat seq.toNat) 0)
  | .contribution c => s.urgent .reductionContribution (.contrib p c)
  | .result c => s.urgent .reductionResult (.result c)
  | .delta d => s.urgent .deltaReceive (.delta src d)
  | .deltaAck h d => s.urgent .deltaAck (.deltaAck h d)
  | .vote m r ok i => s.urgent .voteReceive (.vote m r ok i)
  | .decision r c n => s.urgent .decisionReceive (.decision r c n)
  | .heartbeat h => s.urgent .heartbeatReceive (.heartbeat src h)
  | .lost e => if e.toNat < 20 then s.urgent .lostNotice (.entry e) else s
  | .report r => s.urgent .recoveryReport (.report r)
  | .resolution r n at_ => s.resolutionArrives r n at_
  | .reconstruct t a => s.urgent .reconstructRequest (.reconstruct src t a)
  | .reconstructed e a d => s.atomAnswered e a d
  | .unitReq u => s.unitAsked u src
  | .unitData e u d => s.unitPart e u d
  | .source e on => s.sourceSays e on
  | .unitGo u => s.unitGoes u src
  | .unitDone u built => s.unfreeze u.toNat src built
  | .rebuilt e => s.rebuiltSays e.toNat
  | .selection m r good => s.selectionArrives m r good
  | .restored m r => s.restoredArrives m r
  | .region m i b sp r rm => s.regionArrives m i b sp r rm
  | .phase l i k tw c n g live => s.phaseSaid ⟨l, i, k, tw, src, c, n, g, live⟩

/-- An error of a link is counted in LMCRC, saturating: a flit whose CRC is bad in CRCERR, a flit that the port sends again in REPLAY (R457). -/
def State.linkError (s : State) (p : Nat) (again : Bool) : State :=
  let i : Fin 24 := Fin.ofNat 24 p
  let lo := if again then 32 else 0
  let v := s.margin.lmcrc[i]
  { s with margin := { s.margin with lmcrc := s.margin.lmcrc.set i (wput v lo 32 (min (wbits v lo 32 + 1) 0xFFFFFFFF)) } }

/-- FLIT_RECEIVE (R385, R460): delivered when its destination is this module's number, discarded after 64 hops or when its destination lies outside the extents, else forwarded. One that a full holding buffer cannot take stays at its
source, which presents it again (R377). A flit whose CRC is bad is
only counted (R457): the link sends it again. -/
def execFlitReceive (s : State) : Host.Outcome State Fault Refusal :=
  match s.run.input with
  | .flit p src dst hops f =>
    if 64 ≤ hops.toNat || s.systemSize ≤ dst.toNat then .next s
    else if dst = s.modNum && s.turnedAway f then .next (if src = s.modNum then s.emit src f else s)
    else if dst = s.modNum then .next (s.deliverFlit p src f)
    else .next (s.queueOut ⟨p.toNat, src, dst, hops.toNat + 1, none, false, f⟩)
  | .linkError p again => .next (s.linkError p.toNat again)
  | _ => .next s

end Sys2Proof.Machine
end

