-- ==== Sys2Proof/Machine/Reduce.lean ====
section
/-! DEFINITION. Router reduction slots (R394 to R401, R444 to R446): RSLOT, RRED, RWAIT, RFREE, and the nodes' events. -/

namespace Sys2Proof.Machine

/-! ## Slots, ports and configurations -/

/-- The current slot, counted since the frame clock started (R379, R380). -/
def Fabric.now (f : Fabric) : Nat := f.frame.toNat * 8192 + f.slot.toNat

def State.rslotAt (s : State) (i : Nat) : RSlot := s.fab.rslots[Fin.ofNat 256 i]
def State.setRslot (s : State) (i : Nat) (x : RSlot) : State := { s with fab := { s.fab with rslots := s.fab.rslots.set (Fin.ofNat 256 i) x } }

/-- Dropped contributions and results are counted, saturating (R380). -/
def State.countLate (s : State) (n : Nat) : State := { s with fab := { s.fab with rlate := BitVec.ofNat 32 (min (s.fab.rlate.toNat + n) (2 ^ 32 - 1)) } }

/-- The fields of a tree entry (R394). -/
def treeChild (e : Word) (p : Nat) : Bool := p < 24 && wbit e p
def treeLocal (e : Word) : Bool := wbit e 24
def treeParent (e : Word) : Nat := wbits e 25 5
def treeChildren (e : Word) : List Nat := (List.range 24).filter (treeChild e)

/-- The fields of a configuration (R395). -/
def cfgOp (c : Word) : Nat := wbits c 0 3
def cfgType (c : Word) : Nat := wbits c 3 2
def cfgSkip (c : Word) : Bool := wbit c 5
def cfgBytes (c : Word) : Nat := 4 * (wbits c 6 4 + 1)
def cfgDeadline (c : Word) : Nat := wbits c 16 24

def badConfig (c : Word) : Bool :=
  cfgOp c == 7 || cfgType c == 3 || wbits c 10 6 != 0 || wbits c 40 24 != 0 || cfgDeadline c == 0 || (4 ≤ cfgOp c && cfgType c != 2) || (cfgSkip c && cfgType c == 2)

/-- The number of the neighbour through a port: its coordinate in the port's dimension is one step away in the port's direction (R380, R381). -/
def State.neighbour (s : State) (p : Nat) : BitVec 20 :=
  let pm := if p < 16 then wbits s.fab.portA (4 * p) 4 else wbits s.fab.portB (4 * (p - 16)) 4
  let k := pm % 8
  let n := s.modNum.toNat
  let stride := (List.range k).foldl (fun q j => q * s.extent j) 1
  let e := s.extent k
  let c := coordOf s.fab.ext k n
  let c' := if pm < 8 then (c + 1) % e else (c + e - 1) % e
  BitVec.ofNat 20 (n - c * stride + c' * stride)

/-- A flit of a tree leaves by one port. -/
def State.emitPort (s : State) (p : Nat) (f : Flit) : State :=
  { s with fab := { s.fab with out := s.fab.out ++ [⟨24, s.modNum, s.neighbour p, 0, some p, s.fab.hold, f⟩] } }

/-! ## Folding (R397) -/

/-- The element format of a slot: none for INT32. -/
def slotFmt (c : Word) : Option Fmt := match cfgType c with | 0 => some fp32 | 1 => some bf16 | _ => none
def slotWidth (c : Word) : Nat := if cfgType c = 1 then 2 else 4

/-- The operation of a slot. -/
def slotOp (c : Word) : Option RedOp :=
  match slotFmt c with
  | some f => fltRed f (match cfgOp c with | 3 => 8 | n => n) false
  | none =>
    match cfgOp c with
    | 3 => (intRed 32 2).map (fun o => { o with leaf := fun x => min (sextInt x 32).natAbs 0x7FFFFFFF })
    | n => intRed 32 (if n < 4 then n else n + 1)

/-- Elements of a payload. -/
def slotElems (c : Word) (b : List Byte) : List Nat := (List.range (cfgBytes c / slotWidth c)).map (fun i => leAt b (i * slotWidth c) (slotWidth c))
def slotBytes (c : Word) (l : List Nat) : List Byte := (l.map (leBytes (slotWidth c))).flatten

/-- Some element is a NaN. -/
def slotNan (c : Word) (b : List Byte) : Bool :=
  match slotFmt c with
  | some f => (slotElems c b).any (fun x => (f.decode x).isNan)
  | none => false

/-- The fold of one element over the present contributions, in order. -/
def foldElem (o : RedOp) : List Nat → Nat
  | [] => o.empty
  | x :: r => o.root (r.foldl (fun a y => (o.join a (o.leaf y)).1) (o.leaf x))

/-- What a node sends up, or the root's result: the local contribution first, then the children by port. -/
def RSlot.fold (x : RSlot) (slot : Nat) (key : BitVec 32) : Contribution :=
  let l := x.own.toList ++ ((List.range 24).filterMap (fun p => (x.kids.find? (fun k => k.1 == p)).map (·.2)))
  let rows := l.map (fun c => slotElems x.cfg c.data)
  let data := match slotOp x.cfg with
    | none => []
    | some o => slotBytes x.cfg ((List.range (cfgBytes x.cfg / slotWidth x.cfg)).map (fun i => foldElem o (rows.map (fun r => r.getD i 0))))
  let missing := (treeLocal x.tree && x.own.isNone) || (treeChildren x.tree).any (fun p => !x.kids.any (fun k => k.1 == p))
  { slot := BitVec.ofNat 8 slot, epoch := x.epoch, key := key, data := data, nanSeen := l.any (fun c => c.nanSeen || slotNan x.cfg c.data),
    isPart := missing || l.any (·.isPart), late := false, failed := l.any (·.failed) }

/-! ## The node (R396, R444, R445) -/

def State.ctxKey (s : State) (c : Nat) : BitVec 32 := (s.ctxAt c).record.key

def State.slotKey (s : State) (i : Nat) : BitVec 32 := match (s.rslotAt i).holder with | some c => s.ctxKey c | none => 0

/-- Every expected contribution is present. -/
def RSlot.complete (x : RSlot) : Bool :=
  (!treeLocal x.tree || x.own.isSome) && (treeChildren x.tree).all (fun p => x.kids.any (fun k => k.1 == p))

/-- The node enters DONE: the result goes to every child, marked LATE where the child's contribution was absent. -/
def State.nodeDone (s : State) (i : Nat) (c : Contribution) : State :=
  let x := s.rslotAt i
  let s := s.setRslot i { x with st := .done, result := some c }
  (treeChildren x.tree).foldl (fun (s : State) p =>
    s.emitPort p (.result { c with key := s.slotKey i, late := !x.kids.any (fun k => k.1 == p) })) s

/-- The node leaves OPEN: it folds, and sends its partial to its parent or, at the root, has the result. -/
def State.nodeFold (s : State) (i : Nat) : State :=
  let x := s.rslotAt i
  let c := x.fold i (s.slotKey i)
  let miss := (treeChildren x.tree).foldl (fun (m : BitVec 24) p => if x.kids.any (fun k => k.1 == p) then m else m ||| BitVec.ofNat 24 (2 ^ p)) 0
  let s := s.setRslot i { x with miss := miss, lmiss := treeLocal x.tree && x.own.isNone, st := .sent }
  if 24 ≤ treeParent x.tree then s.nodeDone i c else s.emitPort (treeParent x.tree) (.contribution c)

/-- A node whose last expected contribution is here leaves OPEN. -/
def State.nodeCheck (s : State) (i : Nat) : State :=
  let x := s.rslotAt i
  if x.st = .opened && x.complete then s.nodeFold i else s

/-- A node whose deadline has come leaves OPEN (R445). -/
def State.nodeDue (s : State) (i : Nat) : State :=
  let x := s.rslotAt i
  if x.st = .opened && x.first + cfgDeadline x.cfg ≤ s.fab.now then s.nodeFold i else s

/-- The first contribution of an epoch opens the node. -/
def RSlot.opening (x : RSlot) (now : Nat) : RSlot := if x.st = .idle then { x with st := .opened, first := now } else x

/-- A contribution from a child port at a held slot (R396). DEDUCED (log entry 60), unsafe. -/
def State.childArrives (s : State) (i p : Nat) (c : Contribution) : State :=
  let s := s.nodeDue i
  let x := s.rslotAt i
  if !treeChild x.tree p then s.countLate 1
  else if c.epoch = x.epoch then
    if (x.st = .idle || x.st = .opened) && !x.kids.any (fun k => k.1 == p) then
      let x := x.opening s.fab.now
      (s.setRslot i { x with kids := x.kids ++ [(p, c)] }).nodeCheck i
    else s.countLate 1
  else if c.epoch = x.epoch + 1 && !x.later.any (fun k => k.1 == p) then s.setRslot i { x with later := x.later ++ [(p, c)] }
  else s.countLate 1

/-- A contribution at this module (R396, R400, R446). -/
def State.contribArrives (s : State) (p : Nat) (c : Contribution) : State :=
  let i := c.slot.toNat
  let x := s.rslotAt i
  if x.dying then s.countLate 1
  else match x.holder with
    | none => s.setRslot i { x with kept := x.kept.filter (fun k => k.1 != p) ++ [(p, c)] }
    | some _ => s.childArrives i p c

/-- The result of the current epoch at a node in IDLE or OPEN (R444). -/
def State.earlyResult (s : State) (i : Nat) (c : Contribution) : State :=
  let x := s.rslotAt i
  let x := { x with own := none, kids := [], lmiss := treeLocal x.tree, miss := (treeChildren x.tree).foldl (fun (m : BitVec 24) p => m ||| BitVec.ofNat 24 (2 ^ p)) 0 }
  (s.setRslot i x).nodeDone i { c with late := true }

/-- A result from the parent (R396, R444, R446). A node whose deadline has come has left OPEN before it (R445). -/
def State.resultArrives (s : State) (c : Contribution) : State :=
  let i := c.slot.toNat
  let x := s.rslotAt i
  if x.dying then s.countLate 1
  else match x.holder with
    | none => s.setRslot i { x with keptR := x.keptR ++ [c] }
    | some _ =>
      let s := s.nodeDue i
      let x := s.rslotAt i
      if c.epoch ≠ x.epoch then s.countLate 1
      else match x.st with
        | .sent => s.nodeDone i c
        | .done => s.countLate 1
        | _ => s.earlyResult i c

/-! ## The instructions -/

/-- X(a)[7:0] as a slot that the acting context holds. -/
def State.heldSlot (s : State) (i : Nat) : Bool := (s.rslotAt i).holder == some (s.ctxOf s.ct) && !(s.rslotAt i).dying

/-- A claim's use of what was kept while the slot was unheld (R446). -/
def State.claimKept (s : State) (i : Nat) : State :=
  let x := s.rslotAt i
  let key := s.slotKey i
  let good := fun (c : Contribution) => c.key == key
  let s := s.setRslot i { x with kept := [], keptR := [] }
  match x.keptR.find? (fun c => c.epoch == 0 && good c) with
  | some c => (s.countLate (x.keptR.length - 1 + (x.kept.filter (fun k => !good k.2)).length)).earlyResult i c
  | none => x.kept.foldl (fun (s : State) k => if good k.2 then s.childArrives i k.1 { k.2 with epoch := 0 } else s.countLate 1) (s.countLate x.keptR.length)

/-- RSLOT (R395): the first refusal of BADCFG, NOTREE, BUSY, QUOTA, or the claim. -/
def execRslot (d a b : BitVec 5) (s : State) : Host.Outcome State Fault Refusal :=
  finish s (inPrimary fun s =>
    let A := s.X a
    if 256 ≤ A.toNat then .error (accessViol 0 A)
    else
      let i := A.toNat
      let c := s.ctxOf s.ct
      let cfg := s.X b
      let x := s.rslotAt i
      let tree := s.hbmNat (wbits s.fab.rtree 12 45 * 0x1000 + 8 * i) 8
      if badConfig cfg then .ok (s.W d 4)
      else if !wbit (wofNat tree) 30 then .ok (s.W d 3)
      else
        match x.holder with
        | some o =>
          if o ≠ c || x.dying || x.st ≠ .idle then .ok (s.W d 1)
          else .ok ((s.setRslot i { x with cfg := cfg, tree := wofNat tree }).W d 0)
        | none =>
          if s.quota c ≤ s.slotsHeld c then .ok (s.W d 2)
          else .ok (((s.setRslot i { RSlot.free with holder := some c, cfg := cfg, tree := wofNat tree, kept := x.kept, keptR := x.keptR }).claimKept i).W d 0))

/-- A register operand of this chapter as an address: a bare local offset, bits 63:32 being 0, names the local aperture's byte (R223, R391). A value that names no local memory is a global address. -/
def State.fxAddr (s : State) (a : Word) : Word := if wbits a 32 32 = 0 then wofNat (s.tile.localBase.toNat * 2 ^ 32 + wbits a 0 32) else a

/-- A register operand that names local memory lies in the own scratchpad or the own window (R391). -/
def State.ownLocal (s : State) (a : Word) (n : Nat) : Bool :=
  !s.isLocal s.ct a ||
    (match s.localPlace s.ct s.ch (wbits a 0 32) n with
     | some (.spad x _) => x == s.ct
     | some (.regs _ o) => s.ch * 0x20000 ≤ o && o + n ≤ (s.ch + 1) * 0x20000
     | _ => false)

/-- The bytes that a module contributes: under NANSKIP each NaN is the empty value (R397). -/
def contributed (cfg : Word) (b : List Byte) : List Byte :=
  match slotFmt cfg, slotOp cfg, cfgSkip cfg with
  | some f, some o, true => slotBytes cfg ((slotElems cfg b).map (fun x => if (f.decode x).isNan then o.empty else x))
  | _, _, _ => b

/-- RRED (R398). DEDUCED (log entry 62), unsafe. -/
def execRred (d a b : BitVec 5) (s : State) : Host.Outcome State Fault Refusal :=
  finish s (inPrimary fun s =>
    let i := wbits (s.X a) 0 8
    let B := s.fxAddr (s.X b)
    if B.toNat % 4 ≠ 0 then .error (misaligned 0 B)
    else if !s.heldSlot i then .ok (s.W d 1)
    else
      let cfg := (s.rslotAt i).cfg
      if !s.ownLocal B (cfgBytes cfg) then .error (accessViol 0 B)
      else do
        let (bs, s) ← s.loadAt B (cfgBytes cfg) true
        let s := s.nodeDue i
        let x := s.rslotAt i
        if !treeLocal x.tree || x.own.isSome then return s.W d 2
        else if x.st = .sent || x.st = .done then return (s.countLate 1).W d 3
        else
          let c : Contribution := { slot := BitVec.ofNat 8 i, epoch := x.epoch, key := s.slotKey i, data := contributed cfg bs, nanSeen := slotNan cfg bs,
                                    isPart := false, late := false, failed := false }
          let x := x.opening s.fab.now
          return ((s.setRslot i { x with own := some c }).nodeCheck i).W d 0)

/-- The node returns to IDLE, the epoch advances, and what came early for it counts now (R396, R399). -/
def State.collect (s : State) (i : Nat) : State :=
  let x := s.rslotAt i
  let s := s.setRslot i { x with st := .idle, epoch := x.epoch + 1, own := none, kids := [], later := [], result := none, miss := 0, lmiss := false, first := 0 }
  x.later.foldl (fun (s : State) k => s.childArrives i k.1 k.2) s

/-- The status word of RWAIT (R399). -/
def RSlot.status (x : RSlot) (c : Contribution) : Word :=
  wofNat (natOfBool c.isPart + natOfBool c.nanSeen * 2 + natOfBool c.late * 4 + natOfBool c.failed * 8 + x.miss.toNat * 2 ^ 8 + natOfBool x.lmiss * 2 ^ 32)

/-- RWAIT (R399). -/
def execRwait (d a b : BitVec 5) (s : State) : Host.Outcome State Fault Refusal :=
  finish s (inPrimary fun s =>
    let i := wbits (s.X a) 0 8
    let B := s.fxAddr (s.X b)
    if B.toNat % 4 ≠ 0 then .error (misaligned 1 B)
    else if !s.heldSlot i then .ok (s.W d 8)
    else
      let x := s.rslotAt i
      match (if x.st = .done then x.result else none) with
      | none => .error .hold
      | some c =>
        if c.failed then .ok ((s.collect i).W d (x.status c))
        else if !s.ownLocal B c.data.length then .error (accessViol 1 B)
        else do
          let s ← s.storeAt B c.data true
          return (s.collect i).W d (x.status c))

/-- The release of a slot (R400): a node whose deadline has come leaves OPEN first (R445); children that contributed to an open epoch get a FAILED result; for one frame what arrives is dropped. DEDUCED (log entry 61), unsafe. -/
def State.freeSlot (s : State) (i : Nat) : State :=
  let s := s.nodeDue i
  let x := s.rslotAt i
  let c : Contribution := { slot := BitVec.ofNat 8 i, epoch := x.epoch, key := s.slotKey i, data := [], nanSeen := false, isPart := true, late := false, failed := true }
  let s := if x.st = .opened || x.st = .sent then x.kids.foldl (fun (s : State) k => s.emitPort k.1 (.result c)) s else s
  s.setRslot i { x with dying := true, st := .idle, own := none, kids := [], later := [], result := none, first := s.fab.now + 8192 }

/-- RFREE (R400). -/
def execRfree (a : BitVec 5) (s : State) : Host.Outcome State Fault Refusal :=
  finish s (inPrimary fun s =>
    let i := wbits (s.X a) 0 8
    .ok (if s.heldSlot i then s.freeSlot i else s))

/-! ## The events -/

/-- REDUCTION_CONTRIBUTION (R396, R446). -/
def execReductionContribution (s : State) : Host.Outcome State Fault Refusal :=
  match s.run.input with
  | .contrib p c => .next (s.contribArrives p.toNat c)
  | _ => .next s

/-- REDUCTION_DEADLINE (R445). -/
def execReductionDeadline (s : State) : Host.Outcome State Fault Refusal :=
  match s.run.input with
  | .rslot i => .next (s.nodeDue i.toNat)
  | _ => .next s

/-- REDUCTION_RESULT (R396, R444). -/
def execReductionResult (s : State) : Host.Outcome State Fault Refusal :=
  match s.run.input with
  | .result c => .next (s.resultArrives c)
  | _ => .next s

/-- RFREE_FRAME_END (R400): the slot becomes unheld. -/
def execRfreeFrameEnd (s : State) : Host.Outcome State Fault Refusal :=
  match s.run.input with
  | .rslot i =>
    let x := s.rslotAt i.toNat
    if x.dying && x.first ≤ s.fab.now then .next (s.setRslot i.toNat RSlot.free) else .next s
  | _ => .next s

/-- The deadlines that have come. -/
def State.reduceTick (s : State) : State :=
  s.pushAgenda ((List.finRange 256).flatMap (fun (i : Fin 256) =>
    let x := s.fab.rslots[i]
    if x.dying && x.first ≤ s.fab.now then [⟨Instr.rfreeFrameEnd, Input.rslot (BitVec.ofNat 8 i.val)⟩]
    else if x.st == .opened && x.first + cfgDeadline x.cfg ≤ s.fab.now then [⟨.reductionDeadline, .rslot (BitVec.ofNat 8 i.val)⟩]
    else []))

end Sys2Proof.Machine
end

