-- ==== Sys2Proof/Machine/Launch.lean ====
section
/-! DEFINITION. Context records, launch queues, packets and their records (R341, R344 to R350, R356, R463, R464), and LAUNCH with the peer's side of it (R393). -/

namespace Sys2Proof.Machine

/-! ## Context records (R341, R463) -/

def CState.code : CState → Nat
  | .none => 0 | .idle => 1 | .running => 2 | .preempted => 3 | .halted => 4 | .savedLate => 5 | .lost => 6 | .dead => 7

/-- A context is resident: its key answers to peers. -/
def CState.resident : CState → Bool
  | .none => false | .lost => false | .dead => false | _ => true

def isPow2 (n k : Nat) : Bool := (List.range (k + 1)).any (fun i => 2 ^ i == n)

/-- The record of context `c` as it stands in memory; none for a bad one. -/
def State.readRecord (s : State) (c : Nat) : Option CtxRec :=
  let b := s.hbmBytes (s.ctxField c 0) 256
  let at_ := leAt b
  let fl := at_ 1 1
  let frames := max (at_ 0x68 1) 1
  let dom := at_ 0x58 4
  let ok := fl / 4 = 0 && at_ 0x10 4 / 2 ^ 20 = 0 && at_ 0x40 8 / 2 ^ 25 = 0 && at_ 0x69 3 = 0 && at_ 0x70 144 = 0 &&
    at_ 2 2 ≠ 0 && at_ 0x14 4 ≤ 65536 && isPow2 (at_ 0x30 4) 20 && at_ 0x68 1 ≤ 64 &&
    at_ 8 8 % 2 ^ 21 = 0 && at_ 0x18 8 % 32 = 0 && at_ 0x20 8 % 64 = 0 && at_ 0x28 8 % 32 = 0 && at_ 0x48 8 % 2 ^ 24 = 0 &&
    at_ 8 8 < 0x8800000000 && at_ 0x48 8 + frames * 0x80000000 ≤ 0x8800000000 &&
    ((at_ 0x6C 4 != 0) == (dom / 2 ^ 31 == 1))
  if ok then
    some { dwact := fl % 2 = 1, brkHalt := fl / 2 % 2 = 1, weight := at_ 2 2, key := BitVec.ofNat 32 (at_ 4 4), ptroot := at_ 8 8, pasid := BitVec.ofNat 20 (at_ 0x10 4),
           wtCount := at_ 0x14 4, wtBase := wofNat (at_ 0x18 8), acsp := wofNat (at_ 0x20 8), logBase := wofNat (at_ 0x28 8), logLen := at_ 0x30 4,
           tvec := wofNat (at_ 0x38 8), localBase := BitVec.ofNat 25 (at_ 0x40 8), saveBase := at_ 0x48 8, dwlimit := wofNat (at_ 0x50 8),
           domain := BitVec.ofNat 32 dom, frames := frames, dtiles := at_ 0x6C 4 }
  else none

/-- A context changes state, in its record too. -/
def State.setCtxState (s : State) (c : Nat) (st : CState) : State :=
  (s.updCtx c ({ · with st := st })).hbmWrite (s.ctxField c 0) (leBytes 1 st.code)

/-! ## Launch queues (R344 to R347) -/

/-- A queue as its descriptor in memory gives it. -/
structure LaunchQueue where
  base  : Nat
  size  : Nat
  ctx   : Nat
  pcap  : Nat
  flags : Nat
  head  : Nat
  acl   : List Nat
  deriving DecidableEq, Repr

def State.queueAddr (s : State) (q : Nat) : Nat := s.disp.lqtab.toNat + 128 * q

/-- The recovery queues (R346). -/
def isRecovery (q : Nat) : Bool := 1016 ≤ q

/-- Queue `q` where it is enabled (R345) and the dispatcher reads queues (R104, R342). -/
def State.launchQueue (s : State) (q : Nat) : Option LaunchQueue :=
  let b := s.hbmBytes (s.queueAddr q) 128
  let fl := leAt b 0x0E 1
  let ok := wbit s.disp.ctl 0 && !s.disp.stopped && fl % 2 = 1 && fl / 4 = 0 && isPow2 (leAt b 8 4) 16 && leAt b 0 8 % 128 = 0 && leAt b 0x0F 1 = 0 && leAt b 0x18 40 = 0
  if ok then
    some { base := leAt b 0 8, size := leAt b 8 4, ctx := leAt b 0x0C 1, pcap := if isRecovery q then leAt b 0x0D 1 else min (leAt b 0x0D 1) 6,
           flags := if isRecovery q then fl % 2 else fl, head := leAt b 0x10 8, acl := (List.range 8).map (fun i => leAt b (0x40 + 8 * i) 8) }
  else none

/-- A packet as its slot gives it (R348). `bad` fields are judged when its descriptors are read. -/
def State.packetOf (s : State) (q : Nat) (x : LaunchQueue) (seq : Nat) (b : List Byte) : Packet :=
  { id := s.disp.nextId, queue := q, seq := seq, ctx := x.ctx, nodes := leAt b 0 2, prio := if isRecovery q then 7 else min (leAt b 2 1) (min x.pcap 6),
    flags := BitVec.ofNat 8 (leAt b 3 1), vector := leAt b 4 2, chain := wofNat (leAt b 8 8), record := wofNat (leAt b 0x10 8), tag := BitVec.ofNat 32 (leAt b 0x18 4), sig := 0,
    plan := none, wait := none,
    fail := if leAt b 4 2 < 2048 && leAt b 6 2 = 0 && leAt b 0x1C 92 = 0 && leAt b 3 1 < 16 && 1 ≤ leAt b 0 2 && leAt b 0 2 ≤ 256 && leAt b 8 8 % 256 = 0 then none
            else some (5, 0, 0),
    last := 0, since := s.run.cycle }

/-- The packet in slot HEAD mod SIZE is accepted when its valid word is HEAD + 1, and so on slot by slot (R345). -/
def State.acceptSlots (s : State) (q : Nat) (x : LaunchQueue) (head : Nat) : Nat → State
  | 0 => s
  | fuel + 1 =>
    let b := s.hbmBytes (x.base + 128 * (head % x.size)) 128
    if leAt b 0x78 8 ≠ (head + 1) % 2 ^ 64 then s
    else
      let p := s.packetOf q x head b
      let s := { s with disp := { s.disp with packets := s.disp.packets ++ [p], nextId := s.disp.nextId + 1 } }
      (s.hbmWrite (s.queueAddr q + 0x10) (leBytes 8 (head + 1))).acceptSlots q x (head + 1) fuel

/-- DEDUCED (log entry 81), unsafe. -/
def State.acceptQueue (s : State) (q : Nat) : State :=
  match s.launchQueue q with
  | none => s
  | some x => s.acceptSlots q x x.head x.size

/-- LAUNCH_DOORBELL (R345, R346): host writes ring the ordinary queues that take no LAUNCH, firmware writes the recovery queues; a host write to one of those is counted. -/
def execLaunchDoorbell (s : State) : Host.Outcome State Fault Refusal :=
  match s.run.input with
  | .doorbell q who =>
    if isRecovery q.toNat then
      (match who with
       | .firmware => .next (s.acceptQueue q.toNat)
       | .host => .next s.countHostErr
       | .firefly => .next s)
    else if who ≠ .host then .next s
    else match s.launchQueue q.toNat with
      | some x => if x.flags / 2 % 2 = 1 then .next s else .next (s.acceptQueue q.toNat)
      | none => .next s
  | _ => .next s

/-- An ACL entry admits a module and a sender's key (R347). -/
def aclAdmits (e : Nat) (src : BitVec 20) (key : BitVec 32) : Bool :=
  (e / 2 ^ 20 % 2 = 1 || e % 2 ^ 20 = src.toNat) && (e / 2 ^ 32 = 0 || e / 2 ^ 32 = key.toNat)

/-- The peer's side of LAUNCH (R393): the reply code and the sequence number. On acceptance the packet is written into its slot and accepted at once. One that arrives in the
cycle of its context's teardown is accepted after it, and its record says CONTEXT_DEAD (R364). -/
def State.launchArrives (s : State) (src : BitVec 20) (q : Nat) (key sender : BitVec 32) (b : List Byte) : State × Nat × Nat :=
  match s.launchQueue q with
  | none => (s, 2, 0)
  | some x =>
    let c := x.ctx
    let x' := s.ctxAt c
    if 64 ≤ c || c = 0 || !(x'.st.resident || x'.down == s.run.cycle + 1) || x'.record.key ≠ key then (s, 3, 0)
    else if x.flags / 2 % 2 = 0 || !x.acl.any (aclAdmits · src sender) then (s, 1, 0)
    else
      let s := s.hbmWrite (x.base + 128 * (x.head % x.size)) (b.take 120 ++ leBytes 8 (x.head + 1))
      (s.acceptQueue q, 0, x.head)

/-- LAUNCH_RECEIVE (R393). -/
def execLaunchReceive (s : State) : Host.Outcome State Fault Refusal :=
  match s.run.input with
  | .packet src q key sender b who =>
    let r := s.launchArrives src q.toNat key sender b
    .next (r.1.emit src (.launchReply who (BitVec.ofNat 4 r.2.1) (BitVec.ofNat 48 r.2.2)))
  | _ => .next s

/-- The request that a stream waits on, and its answer. -/
def State.myAnswer (s : State) : Answer := ((s.thr.remotes.find? (fun r => r.stream == s.slot)).map (·.ans)).getD .failed

/-- LAUNCH (R393). Once its packet has left it is never abandoned (R462). DEDUCED (log entry 98), unsafe. -/
def execLaunch (d a b : BitVec 5) (s : State) : Host.Outcome State Fault Refusal :=
  finish s (fun s =>
    let A := s.X a
    let B := s.fxAddr (s.X b)
    let reply := fun (s : State) (v : Nat) => (.ok ((s.dropRemotes.setHeld .no).W d (wofNat v)) : Res)
    if s.thr.flow.held = .launch then
      match s.myAnswer with
      | .waiting => .error .hold
      | .word code seq _ => reply s (code % 16 + (if code = 0 then seq.toNat % 2 ^ 48 * 2 ^ 16 else 0))
      | _ => reply s 4
    else if wbits A 26 38 ≠ 0 || s.shadow s.ct then .error (accessViol 0 0)
    else do
      s.awaitEntry (s.ctxOf s.ct) (wbits A 0 16)
      match s.remoteCheck (s.ctxOf s.ct) (wbits A 0 16) 0 0 3 true with
      | none => .error (accessViol 0 0)
      | some (e, _) =>
        if e.kind ≠ 1 then .error (accessViol 0 0)
        else if B.toNat % 8 ≠ 0 then .error (misaligned 0 B)
        else if !s.ownLocal B 120 then .error (accessViol 0 B)
        else waitEngines s (fun s =>
          let s := s.sendAll
          if !s.thr.posted then .ok (s.setRes .waitIssue)
          else do
            let (bs, s) ← s.loadAt B 120 true
            let f : Flit := .launch (BitVec.ofNat 10 (wbits A 16 10)) (BitVec.ofNat 32 e.key) (s.ctxAt s.tile.ctx).record.key bs s.origin
            return ((s.sendRemote (BitVec.ofNat 20 e.peer) f []).setHeld .launch).setRes .held))

/-- LAUNCH_REPLY_TIMEOUT (R393): the peer has not replied in time. -/
def execLaunchReplyTimeout (s : State) : Host.Outcome State Fault Refusal :=
  match s.run.input with
  | .origin o =>
    if (s.threadAt o.tile.toNat o.thread.toNat).remotes.any (fun r => r.id == o.id && r.since + replyTime ≤ s.run.cycle) then .next (s.answer o .failed)
    else .next s
  | _ => .next s

/-! ## Completion records (R356, R464) -/

/-- A packet ends: bytes 0 to 27 of its record, then DONE, then its MSI-X message. A record that the translation refuses in any of its bytes is dropped whole (R464). -/
def State.endPacket (s : State) (p : Packet) (status cause node : Nat) : State :=
  let b := leBytes 2 status ++ leBytes 2 cause ++ leBytes 4 node ++ leBytes 8 s.cycleCount ++ leBytes 8 p.sig.toNat ++ leBytes 4 p.tag.toNat
  let refused := match s.globalPieces p.ctx p.record.toNat 32 .store with
    | .ok _ => false
    | .error (.ask _, _) => false
    | .error _ => true
  let s := if refused then s else ((s.writeUnder p.ctx p.record.toNat b).1.writeUnder p.ctx (p.record.toNat + 28) (leBytes 4 1)).1
  { s with disp := { s.disp with packets := s.disp.packets.filter (fun x => x.id != p.id), msix := if p.flags.getLsbD 2 then s.disp.msix ++ [p.vector] else s.disp.msix } }

end Sys2Proof.Machine
end

