-- ==== Sys2Proof/Machine/Sched.lean ====
section
/-! DEFINITION. The dispatcher's ordinary work (R349 to R358): node descriptors, the range scoreboard, selection and placement, the start of a kernel and its completion. -/

namespace Sys2Proof.Machine

/-! ## Node descriptors (R349, R350) -/

/-- Why a packet's descriptors cannot be read or used, with the index of the node: a replayable fault, an absent page of host memory, an access that the translation refuses,
a bad field; or that the reading waits for an atom that the group has to supply (R212, R439). -/
inductive PlanErr where
  | fault (node va : Nat)
  | page (node page : Nat)
  | viol (node : Nat)
  | bad (node : Nat)
  | ask (atom : Nat)
  deriving DecidableEq, Repr

/-- Bytes that the dispatcher reads for node `i` under context `c`. -/
def State.dispRead (s : State) (c i va n : Nat) : Except PlanErr (List Byte) :=
  match s.globalPieces c va n .load with
  | .error (.viol, _) => .error (.viol i)
  | .error (.fault, x) => .error (.fault i x)
  | .error (.absent loc, _) => .error (.page i ((loc - hostLoc) / 0x10000))
  | .error (.ask u, _) => .error (.ask u)
  | .ok ps =>
    match ps.findSome? (fun p => match p.place with | .mem loc _ => s.locAsk loc p.n | _ => none) with
    | some u => .error (.ask u)
    | none => .ok ((ps.map (fun p => match p.place with | .mem loc _ => s.locBytes loc p.n | _ => [])).flatten)

/-- A declared range of a descriptor; bits 62:56 of its second word are 0. -/
def rangeOf (b : List Byte) (i : Nat) : Option Range :=
  let w := leAt b (0x88 + 16 * i) 8
  if w / 2 ^ 56 % 128 ≠ 0 then none else some ⟨wofNat (leAt b (0x80 + 16 * i) 8), w % 2 ^ 56, w / 2 ^ 63 = 1⟩

/-- A stream transfer's descriptor. -/
def xferOf (b : List Byte) : Option Xfer :=
  let dst := leAt b 0x18 4
  let len := leAt b 0x10 8
  if leAt b 1 7 = 0 && leAt b 0x1C 100 = 0 && 1 ≤ len && len ≤ 0x300000 && dst < 2 ^ 22 && dst % 64 = 0 && dst + len ≤ 0x300000 then some ⟨wofNat (leAt b 8 8), len, dst⟩ else none

/-- The view registers (R350). -/
def isView (n : Nat) : Bool := n = 0x100 || (0x110 ≤ n && n ≤ 0x11F) || n = 0x120

/-- The view records of a kernel, 16 bytes each (R52). -/
def viewsOf (b : List Byte) (n : Nat) : Option (List (Nat × Word)) :=
  let vs := (List.range n).map (fun i => (leAt b (16 * i) 2, wofNat (leAt b (16 * i + 8) 8)))
  if (List.range n).all (fun i => leAt b (16 * i + 2) 6 = 0 && isView (leAt b (16 * i) 2)) && (vs.map (·.1)).eraseDups.length = n then some vs else none

/-- Two ranges share a byte. -/
def Range.meets (a b : Range) : Bool := 0 < a.len && 0 < b.len && a.base.toNat < b.base.toNat + b.len && b.base.toNat < a.base.toNat + a.len

/-- The ranges of a node in the scoreboard: its own and its transfers' sources (R350, R352). -/
def NodeDesc.all (d : NodeDesc) : List Range := d.ranges ++ d.xfers.map (fun x => ⟨x.src, x.len, false⟩)

/-- A kernel's descriptor without its views. -/
def kernelOf (b : List Byte) (xs : List Xfer) (dual : Bool) : Option NodeDesc :=
  let n := leAt b 1 1
  let grp := leAt b 0x1C 4
  let tiles := leAt b 0x18 2
  let gt := leAt b 0x2C 4
  let rs := (List.range n).map (rangeOf b)
  let d : NodeDesc := { entry := wofNat (leAt b 8 8), param := wofNat (leAt b 0x10 8), tiles := tiles, minRows := leAt b 0x1A 1, minCols := leAt b 0x1B 1, group := BitVec.ofNat 32 grp,
                        gtiles := gt, views := [], ranges := rs.filterMap id, xfers := xs }
  let ok := n ≤ 8 && rs.all (·.isSome) && leAt b 2 6 = 0 && leAt b 8 8 % 16 = 0 && 1 ≤ tiles && tiles ≤ 128 && leAt b 0x28 2 ≤ 18 && leAt b 0x2A 2 = 0 && leAt b 0x30 80 = 0 &&
    (if grp / 2 ^ 31 = 1 then gt ≠ 0 && tiles ≤ gt else gt = 0) &&
    !(dual && d.all.any (fun r => !r.out && d.all.any (fun q => q.out && q.meets r)))
  if ok then some d else none

/-- The kernels of nodes `is` of a packet, `xs` being the transfers that stand immediately before. -/
def State.planNodes (s : State) (p : Packet) (prev : Nat) (xs : List Xfer) : List Nat → Except PlanErr (List (Nat × NodeDesc))
  | [] => if xs.isEmpty then .ok [] else .error (.bad prev)
  | i :: is => do
    let b ← s.dispRead p.ctx i (p.chain.toNat + 256 * i) 256
    if leAt b 0 1 = 2 then
      match xferOf b with
      | some x => s.planNodes p i (xs ++ [x]) is
      | none => .error (.bad i)
    else if leAt b 0 1 = 1 then
      match kernelOf b xs (p.flags.getLsbD 0) with
      | none => .error (.bad i)
      | some d =>
        let v ← (if leAt b 0x28 2 = 0 then .ok [] else s.dispRead p.ctx i (leAt b 0x20 8) (16 * leAt b 0x28 2))
        match viewsOf v (leAt b 0x28 2) with
        | none => .error (.bad i)
        | some vs => return (i, { d with views := vs }) :: (← s.planNodes p i [] is)
    else .error (.bad i)

def State.updPacket (s : State) (id : Nat) (f : Packet → Packet) : State :=
  { s with disp := { s.disp with packets := s.disp.packets.map (fun p => if p.id == id then f p else p) } }
def State.updNode (s : State) (id : Nat) (f : Node → Node) : State :=
  { s with disp := { s.disp with nodes := s.disp.nodes.map (fun n => if n.id == id then f n else n) } }
def State.nodeAt (s : State) (id : Nat) : Option Node := s.disp.nodes.find? (fun n => n.id == id)

/-! ## Failures (R357) -/

/-- A packet fails at node `i`: that node and those after it do not run, nor does a node of another packet that depends on one of them. -/
def State.failPacket (s : State) (pid status cause i : Nat) : Nat → State
  | 0 => s
  | fuel + 1 =>
    let s := s.updPacket pid (fun p => if p.fail.isSome then p else { p with fail := some (status, cause, i), plan := p.plan.map (fun _ => []) })
    let gone := (s.disp.nodes.filter (fun n => n.pkt.id == pid && i ≤ n.idx && (n.phase == .waiting || n.phase == .ready || n.idx == i))).map (·.id)
    let hit := s.disp.nodes.filter (fun n => n.pkt.id != pid && n.phase == .waiting && n.deps.any gone.contains)
    let s := { s with disp := { s.disp with nodes := s.disp.nodes.filter (fun n => !gone.contains n.id) } }
    hit.foldl (fun (s : State) n => s.failPacket n.pkt.id 7 0 n.idx fuel) s

def State.failNode (s : State) (n : Node) (status cause : Nat) : State := s.failPacket n.pkt.id status cause n.idx (s.disp.packets.length + 1)

/-- Packets whose failure is decided end once the nodes before the failing one are done. -/
def State.endFailed (s : State) : State :=
  s.disp.packets.foldl (fun (s : State) p =>
    match p.fail with
    | some (st, cause, i) => if s.disp.nodes.any (fun n => n.pkt.id == p.id) then s else s.endPacket p st cause i
    | none => s) s

/-! ## Admission (R352) -/

/-- A node depends on an earlier one of its context in flight. -/
def dependsOn (p : Packet) (d : NodeDesc) (n : Node) : Bool :=
  n.pkt.ctx == p.ctx &&
    (n.pkt.id == p.id || p.flags.getLsbD 3 || d.all.any (fun r => n.desc.all.any (fun q => (r.out || q.out) && r.meets q)))

/-- Kernels of a packet are admitted while the scoreboard's 256 entries have room. -/
def State.admitNodes (s : State) (pid : Nat) : List (Nat × NodeDesc) → State
  | [] => s.updPacket pid (fun p => { p with plan := some [] })
  | (i, d) :: rest =>
    match s.disp.packets.find? (fun p => p.id == pid) with
    | none => s
    | some p =>
      let used := s.disp.nodes.foldl (fun k n => k + n.desc.all.length) 0
      if 256 < used + d.all.length then s.updPacket pid (fun p => { p with plan := some ((i, d) :: rest) })
      else
        let deps := (s.disp.nodes.filter (dependsOn p d)).map (·.id)
        let n : Node := { id := s.disp.nextId, pkt := p, idx := i, desc := d, deps := deps, phase := if deps.isEmpty then .ready else .waiting, tiles := [], shadow := [],
                          since := s.fab.frame.toNat, placed := 0, level := 0, req := none, frame := none, coop := false, abort := false, saving := none, saved := [], xdone := 0, wait := none }
        let s := { s with disp := { s.disp with nodes := s.disp.nodes ++ [n], nextId := s.disp.nextId + 1 } }
        s.admitNodes pid rest

/-- The reading of a packet's descriptors, or what keeps it. A faulting address is reported through the device fault queue (R350). -/
def State.planPacket (s : State) (p : Packet) : State :=
  match s.planNodes p 0 [] (List.range p.nodes) with
  | .ok l => s.admitNodes p.id l
  | .error (.ask u) => s.askFor false u
  | .error (.bad i) => s.failPacket p.id 5 0 i 1
  | .error (.viol i) => s.failPacket p.id 9 0 i 1
  | .error (.page i pg) => s.updPacket p.id ({ · with wait := some (pageTag pg, i) })
  | .error (.fault i va) =>
    let (tag, s) := s.takeTag
    (s.updPacket p.id ({ · with wait := some (tag, i) })).fqPost tag 0 0 (faultEntry (wofNat va) p.ctx 0 0 0 0 3 tag)

/-- One round of admission over the accepted packets, each queue in sequence order. A packet of a context that is not resident ends at once (DEDUCED, log entry 87).
One accepted in this cycle is read from the next on: a teardown of the same cycle comes first (R364). -/
def State.admitAll (s : State) : State :=
  let s := s.disp.packets.foldl (fun (s : State) p =>
    if p.ctx = 0 || 64 ≤ p.ctx then { s with disp := { s.disp with packets := s.disp.packets.filter (fun x => x.id != p.id) } }
    else if !(s.ctxAt p.ctx).st.resident then s.endPacket p (if (s.ctxAt p.ctx).st = .lost then 8 else 2) 0 p.last
    else
      let first := s.disp.packets.find? (fun q => q.queue == p.queue && q.fail.isNone && q.plan != some [])
      if p.fail.isSome || p.wait.isSome || p.since == s.run.cycle || first.map (·.id) ≠ some p.id then s
      else match p.plan with
        | none => s.planPacket p
        | some l => s.admitNodes p.id l) s
  s.endFailed

/-! ## Placement (R354, R373) -/

def Node.isPlaced (n : Node) : Bool := n.phase == .running || n.phase == .loading

/-- The tiles a node holds. -/
def Node.all (n : Node) : List Nat := n.tiles ++ n.shadow

/-- The shape of a tile; while its rail is cut, the one that comes back with its cluster (R94, R95, R97). -/
def State.shapeOf (s : State) (t : Nat) : Geom :=
  let x := s.clusters[Fin.ofNat 8 (clusterOf t)]
  let g := (s.tileAt t).geom
  if x.st = 0 || g.rows ≠ [] then g else (((x.shapes.find? (fun p => p.1 == t)).map (fun p => p.2.1)).getD (s.resetGeom t))

/-- A tile's shape meets a node's minimum. -/
def State.shapeMin (s : State) (n : Node) (t : Nat) : Bool :=
  let g := s.shapeOf t
  n.desc.minRows ≤ g.rows.length / 16 && n.desc.minCols ≤ g.cols.length / 16

/-- A tile's shape meets a node's minimum, and for a resuming node the saved shape. -/
def State.shapeMeets (s : State) (n : Node) (t : Nat) : Bool :=
  let g := s.shapeOf t
  s.shapeMin n t && n.saved.all (fun v => n.coop || (v.lrows ≤ g.rows.length && v.lcols ≤ g.cols.length))

/-- The tiles that qualify for a node, `busy` being those taken by others. -/
def State.qualify (s : State) (n : Node) (busy : Nat → Bool) : List Nat :=
  (List.range 128).filter (fun t => s.disp.clen.getLsbD (clusterOf t) && !s.gated t && !busy t && s.shapeMeets n t)

def State.busy (s : State) (t : Nat) : Bool := (s.tileAt t).node.isSome

/-- The choice of `r` tiles among those that qualify: whole clusters first, then one cluster that has room, then in ascending order. -/
def chooseTiles (qual : List Nat) (r : Nat) : Nat → Option (List Nat)
  | 0 => none
  | fuel + 1 =>
    if r = 0 then some []
    else
      let inCl := fun (c : Nat) => qual.filter (fun t => clusterOf t == c)
      let need := min r 16
      match (List.range 8).find? (fun c => need ≤ (inCl c).length) with
      | some c => (chooseTiles (qual.filter (fun t => !((inCl c).take need).contains t)) (r - need) fuel).map (((inCl c).take need) ++ ·)
      | none => if r ≤ qual.length then some (qual.take r) else none

/-- The tile sets of a node: one, or two disjoint ones for a dual run (R358). -/
def State.tileSets (s : State) (n : Node) (busy : Nat → Bool) : Option (List Nat × List Nat) := do
  let qual := s.qualify n busy
  let a ← chooseTiles qual n.desc.tiles 10
  let b ← (if n.pkt.flags.getLsbD 0 then chooseTiles (qual.filter (fun t => !a.contains t)) n.desc.tiles 10 else some [])
  return (a.mergeSort (· ≤ ·), b.mergeSort (· ≤ ·))

/-- The dispatcher may place a node of this context now: a new one, or a saved one, which a halted context resumes halted (R343, R377). -/
def State.mayPlace (s : State) (n : Node) : Bool :=
  let x := s.ctxAt n.pkt.ctx
  !x.preempt && !x.late && n.req.isNone &&
    (match x.st with
     | .idle | .running | .preempted => n.phase == .ready || n.phase == .saved
     | .halted => n.phase == .saved
     | _ => false)

/-! ## Selection (R353) -/

/-- The level of a node: 7 in a recovery queue, else its priority raised by its wait. -/
def State.level (s : State) (n : Node) : Nat :=
  if isRecovery n.pkt.queue then 7 else min (n.pkt.prio + (s.fab.frame.toNat - n.since) / max 1 (wbits s.disp.ctl 16 16)) 6

/-- Every node that could be placed now. -/
def State.placeable (s : State) : List Node := s.disp.nodes.filter (fun n => s.mayPlace n && (s.tileSets n s.busy).isSome)

/-- The next context of a rising list after `c`, wrapping. -/
def nextCtx (cs : List Nat) (c : Nat) : Nat := (cs.find? (fun x => c < x)).getD (cs.headD 0)

/-- The deficit round robin of one level: `ns` its nodes, `cs` their contexts, rising. DEDUCED (log entry 82), unsafe. -/
def drr (weight : Nat → Nat) (ns : List Node) (cs : List Nat) : Nat → Nat → Vector Nat 64 → Option (Node × Nat × Vector Nat 64)
  | 0, _, _ => none
  | fuel + 1, cur, D =>
    let c := Fin.ofNat 64 cur
    match ns.find? (fun n => n.pkt.ctx == cur) with
    | some n =>
      if n.desc.tiles ≤ D[c] then some (n, cur, D.set c (D[c] - n.desc.tiles))
      else
        let k := nextCtx cs cur
        drr weight ns cs fuel k (D.set (Fin.ofNat 64 k) (min (D[Fin.ofNat 64 k] + weight k) (2 ^ 20)))
    | none =>
      let D := D.set c 0
      let k := nextCtx cs cur
      drr weight ns cs fuel k (D.set (Fin.ofNat 64 k) (min (D[Fin.ofNat 64 k] + weight k) (2 ^ 20)))

/-- Select(), from level `P` - 1 downward. -/
def State.selectFrom (s : State) (ns : List Node) : Nat → Option (Node × State)
  | 0 => none
  | P + 1 =>
    let here := ns.filter (fun n => s.level n == P)
    let cs := (List.range 64).filter (fun c => here.any (fun n => n.pkt.ctx == c))
    if cs.isEmpty then s.selectFrom ns P
    else
      match drr (fun c => (s.ctxAt c).record.weight) here cs 20000 s.disp.cur[Fin.ofNat 8 P] s.disp.deficit with
      | some (n, cur, D) => some (n, { s with disp := { s.disp with cur := s.disp.cur.set (Fin.ofNat 8 P) cur, deficit := D } })
      | none => s.selectFrom ns P

/-! ## Starting a kernel (R58, R351, R354) -/

/-- The domain instances of the tiles of a node (R273, R354): instance numbers are the dispatcher's; those of a cluster or a die name the node and the lowest tile index of the
part (DESIGN CHOICE, log entry 88). -/
def Node.domids (n : Node) (r : CtxRec) (t : Nat) : Vector Word 5 :=
  let ent := fun (inst tiles : Nat) => wofNat (inst % 2 ^ 32 + tiles % 2 ^ 20 * 2 ^ 32 + 2 ^ 63)
  let cl := n.tiles.filter (fun x => clusterOf x == clusterOf t)
  let die := n.tiles.filter (fun x => dieOf x == dieOf t)
  let first := fun (part : List Nat) => n.tiles.findIdx (fun x => part.head? == some x)
  #v[ent (n.id * 128 + first cl) cl.length, ent (n.id * 128 + first die) die.length, ent n.id n.tiles.length,
     if n.desc.group.getLsbD 31 then ent (n.desc.group.toNat % 2 ^ 31) n.desc.gtiles else 0,
     if r.domain.getLsbD 31 then ent (r.domain.toNat % 2 ^ 31) r.dtiles else 0]

/-- The parameter address (R58, R351). -/
def NodeDesc.paramAddr (d : NodeDesc) (base : BitVec 25) : Word :=
  if wbit d.param 63 then wofNat (base.toNat * 2 ^ 32 + wbits d.param 0 22) else d.param

/-- The registers and CSRs of a thread whose kernel's first bundle is to issue (R58, R139, R263, R351). -/
def startThread (old : Thread) (r : CtxRec) (d : NodeDesc) (rank : Nat) : Thread :=
  let p := d.paramAddr r.localBase
  let x : Thread :=
    { Thread.reset with
      nextCmd := old.nextCmd,
      regs := { Regs.reset with x := (Regs.reset.x.set 1 p).set 2 (wofNat rank), la := Regs.reset.la.set 0 p, wa := Regs.reset.wa.set 0 p, sa := Regs.reset.sa.set 0 p },
      flow := { Flow.reset with status := .running, rank := rank, pc := d.entry },
      csr := { UCsr.reset with tvec := r.tvec &&& ~~~15, srseed := BitVec.ofNat 32 (rank + 1) } }
  d.views.foldl (fun (x : Thread) v => x.putCsr v.1 0 (csrNew .write v.1 0 v.2)) x

/-- A table that leaves tile `t` is kept with its context, beside those it keeps already (R327). -/
def State.keepTable (s : State) (c t : Nat) (es : Vector OwnEnt 64) : State :=
  if es.toList.all (fun e => e.st == .free) then s else s.updCtx c (fun x => { x with kept := x.kept ++ [(t, es)] })

/-- The entries of another context on a tile leave it, pinned blocks spilled first (R327). -/
def State.evict (s : State) (t c : Nat) : State :=
  let mine := fun (s : State) (L : Nat) => ((s.tileAt t).ent L).st != .free && ((s.tileAt t).ent L).ctx.toNat == c
  let s := (List.range 64).foldl (fun (s : State) L => if mine s L && ((s.tileAt t).ent L).resident then s.hwSpill t L else s) s
  let es := (s.tileAt t).own.map (fun e => if e.ctx.toNat == c then e else OwnEnt.free)
  (s.keepTable c t es).updTile t
    (fun x => { x with own := x.own.map (fun e => if e.st != .free && e.ctx.toNat == c then OwnEnt.free else e) })

/-- Saved entries come to a tile: contexts whose entries use the same numbers are evicted first. -/
def State.giveEntries (s : State) (t c : Nat) (es : Vector OwnEnt 64) : State :=
  let clash := ((List.finRange 64).filterMap (fun (L : Fin 64) =>
    let e := (s.tileAt t).own[L]
    if es[L].st != .free && e.st != .free && e.ctx.toNat != c then some e.ctx.toNat else none)).eraseDups
  (clash.foldl (fun (s : State) k => s.evict t k) s).updTile t (fun x =>
    { x with own := Vector.ofFn (fun (L : Fin 64) => if es[L].st != .free then es[L] else x.own[L]) })

/-- Entries can join a tile's table: no block of context `c` stands there under one of their numbers. -/
def State.fitsTile (s : State) (t c : Nat) (es : Vector OwnEnt 64) : Bool :=
  (List.finRange 64).all (fun (L : Fin 64) => es[L].st == .free || (s.tileAt t).own[L].st == .free || (s.tileAt t).own[L].ctx.toNat != c)

/-- Tile `t`'s table holds a block of context `c`. -/
def State.hasBlocks (s : State) (t c : Nat) : Bool := (s.tileAt t).own.toList.any (fun e => e.st != .free && e.ctx.toNat == c)

/-- Tables that a context keeps are installed, each on the tile that `pick` names for it, if any. -/
def State.giveTables (s : State) (c : Nat) (pick : State → Nat × Vector OwnEnt 64 → Option Nat) : State :=
  (s.ctxAt c).kept.foldl (fun (s : State) k =>
    match pick s k with
    | some t => (s.giveEntries t c k.2).updCtx c (fun x => { x with kept := x.kept.erase k })
    | none => s) s

/-- The entries that a context keeps while off its tiles are installed as it is placed on `ts` (R328): first those that left one of these tiles, there; then the others, each on the
first tile that holds no block of the context (DESIGN CHOICE, log entry 136). -/
def State.giveKept (s : State) (c : Nat) (ts : List Nat) : State :=
  let s := s.giveTables c (fun s k => if ts.contains k.1 && s.fitsTile k.1 c k.2 then some k.1 else none)
  s.giveTables c (fun s _ => ts.find? (fun t => !s.hasBlocks t c))

/-- A tile is taken for a node, with the signature that a resuming dual run had on it. Its L1 drops what other tiles may have changed: the dispatcher acquires for the node
(R275, R356). -/
def State.takeTile (s : State) (n : Node) (r : CtxRec) (t : Nat) (twin : Option Nat) (dom : Vector Word 5) (halted : Bool) (sig : Word) : State :=
  (s.flushL1 t).updTile t (fun x =>
    { x with ctx := n.pkt.ctx, node := some n.id, twin := twin, localBase := r.localBase, domid := dom, halted := halted, sig := sig })

/-- A tile's thread starts: it fetches everything stored before. One that resumes (`m` its tile's index) sees what it saw when it was saved (R80, R373). -/
def State.putThread (s : State) (n : Node) (m t h : Nat) (f : Thread → Thread) : State :=
  let s := (s.updThread t h f).retireThread (4 * t + h)
  if n.saved.isEmpty then s.freshSync (4 * t + h) else s.renumber (savedThread n.id m h) (4 * t + h)

/-- The kernel's threads start on a tile, the `k`th of its node's; its index is `m`. DESIGN CHOICE (log entry 176), unsafe. -/
def State.startTile (s : State) (n : Node) (m k t : Nat) : State :=
  (List.range 4).foldl (fun (s : State) h => s.putThread n k t h (fun old => startThread old (s.ctxAt n.pkt.ctx).record n.desc (4 * m + h))) s

/-- What a cooperative resumption restores of a thread (R368), its region stack and segment with it (R417, R418), whose earlier commands have all ended; the PHASE then completes with the counter it would have
held. DEDUCED (log entry 93), unsafe. -/
def resumeCoop (x v : Thread) : Thread :=
  { x with
    regs := { x.regs with x := v.regs.x },
    flow := { x.flow with pc := v.flow.pc, ctl := true, held := v.flow.held },
    qs := { x.qs with tok := v.qs.tok },
    seg := v.seg, crs := v.crs.map (fun r => { r with cmd := x.nextCmd }), fenced := v.fenced,
    csr := { x.csr with crcause := v.csr.crcause, craddr := v.csr.craddr, rmode := v.csr.rmode, srseed := v.csr.srseed, flags := v.csr.flags, warn := v.csr.warn, tvec := v.csr.tvec, uivec := v.csr.uivec, uimask := v.csr.uimask } }

/-! ## Stream transfers (R350) -/

/-- The bytes of a transfer go to the same offset on every tile of the set. -/
def State.spreadXfer (s : State) (n : Node) (x : Xfer) (bs : List PByte) : State := n.all.foldl (fun (s : State) t => (s.copyWriteSpad t (placeBytes x.dst bs)).1) s

def State.setPhase (s : State) (id : Nat) (ph : NPhase) : State := s.updNode id ({ · with phase := ph })

/-- A tile is let go: its threads are gone, their barriers' registrations and unpinned blocks with them, and its L1 is written back. -/
def State.freeTile (s : State) (t : Nat) : State :=
  (s.cleanL1 t).updTile t (fun x =>
    let x := (List.range 4).foldl (fun (x : Tile) h => (x.dropAll h).freeOwned h) x
    { x with ctx := 0, node := none, twin := none, halted := false, th := x.th.map (fun th => { Thread.reset with nextCmd := th.nextCmd }) })

/-- The state of a context that runs follows from its nodes (R343, R368, R376): RUNNING while one is placed; else SAVED_LATE after a deathwatch expiry, PREEMPTED where a
PREEMPT ends here or a node is saved, and else IDLE. In a halted context a PREEMPT ends likewise, and the context stays HALTED (R377). DEDUCED (log entry 95), unsafe. -/
def State.settleCtx (s : State) (c : Nat) : State :=
  let ns := s.disp.nodes.filter (fun n => n.pkt.ctx == c)
  let x := s.ctxAt c
  if ns.any Node.isPlaced then s
  else if x.st = .halted then s.updCtx c ({ · with preempt := false })
  else if x.st ≠ .running then s
  else
    let s := s.updCtx c ({ · with preempt := false, late := x.late && !ns.isEmpty })
    s.setCtxState c (if x.late && !ns.isEmpty then .savedLate else if x.preempt || ns.any (fun n => n.phase == .saved) then .preempted else .idle)

/-- The threads of a placed node whose transfers have landed: new, or resumed at a cooperative point. -/
def State.beginNode (s : State) (n : Node) : State :=
  let s := s.setPhase n.id .running
  let s := (n.tiles.zipIdx).foldl (fun (s : State) p => s.startTile n p.2 p.2 p.1) s
  let s := (n.shadow.zipIdx).foldl (fun (s : State) p => s.startTile n p.2 (n.tiles.length + p.2) p.1) s
  if n.saved.isEmpty then s.updNode n.id ({ · with coop := false })
  else
    ((n.all.zip n.saved).foldl (fun (s : State) p =>
      (List.range 4).foldl (fun (s : State) h =>
        let v : Thread := p.2.threads[Fin.ofNat 4 h]
        s.updThread p.1 h (fun x => if v.flow.status = .running then resumeCoop x v else { x with flow := { x.flow with status := v.flow.status } })) s) s).updNode n.id ({ · with saved := [], coop := false })

/-- The transfers of a placed node that waits on none of them (R350): a page fault is replayable, any other fault, a DEV page among them (R200), fails the packet. -/
def State.loadNode (s : State) (n : Node) : State :=
  match n.desc.xfers.drop n.xdone with
  | [] => s.beginNode n
  | x :: rest =>
    match s.copyReadGlobal (n.tiles.headD 0) x.src.toNat x.len .gather with
    | .ok bs => (s.forgetAsks.spreadXfer n x bs).updNode n.id ({ · with xdone := n.xdone + 1 })
    | .error (.ask u) => s.ask u
    | .error (.page pg _) => s.updNode n.id ({ · with wait := some (pageTag pg) })
    | .error (.fault va _) =>
      let (tag, s) := s.takeTag
      (s.updNode n.id ({ · with wait := some tag })).fqPost tag (n.tiles.headD 0) 0 (faultEntry (wofNat va) n.pkt.ctx (n.tiles.headD 0) 0 0 0 3 tag)
    | .error _ =>
      let s := (n.all.foldl (fun (s : State) t => s.freeTile t) s).leavePhases n
      let i := n.idx - (rest.length + 1)
      let s := (s.updPacket n.pkt.id (fun p => { p with fail := some (9, 0, i) })).failNode n 9 0
      s.settleCtx n.pkt.ctx

/-- A node whose packet has failed in the host's answer to one of its transfers gives its tiles back. -/
def State.dropLoading (s : State) : State :=
  (s.disp.nodes.filter (fun n => n.phase == .loading && s.disp.packets.any (fun p => p.id == n.pkt.id && p.fail.isSome))).foldl (fun (s : State) n =>
    (((n.all.foldl (fun (s : State) t => s.freeTile t) s).leavePhases n).failNode n 9 0).settleCtx n.pkt.ctx) s

/-- Every placed node goes on with its transfers. -/
def State.loadNodes (s : State) : State :=
  (s.dropLoading.disp.nodes.filter (fun n => n.phase == .loading && n.wait.isNone)).foldl (fun (s : State) n => s.loadNode n) s.dropLoading

/-! ## Forced resumption (R373) -/

def State.frameOf (s : State) (n : Node) (m : Nat) : Nat := s.frameBase n.pkt.ctx (n.frame.getD 0) m

/-- A thread that comes back on tile `t`: its commands and shuffle programs name the barriers of that tile, a copy into the B stratum its physical columns (R373). -/
def Thread.rehome (t : Nat) (g : Geom) (x : Thread) : Thread :=
  let bar := fun (b : Word) => if b = noBar then b else barAt t (barOff b)
  { x with stuck := 0,
           cmds := x.cmds.map (fun c => { c with bar := bar c.bar, cols := if c.kind == .cpinb then c.cols.map (fun k => (g.cols[k]?).getD 0) else c.cols }),
           progs := x.progs.map (fun p => { p with bar := bar p.bar }) }

/-- Command numbers go on: a resumed thread's next one follows those of its save and those of the thread that stood in its place. -/
def Thread.after (x old : Thread) : Thread := { x with nextCmd := max x.nextCmd old.nextCmd }

/-- A tile's part of a save frame is written back into the tile, logical B slices into the columns that now carry them. -/
def State.restoreTile (s : State) (n : Node) (v : SavedTile) (m t : Nat) : State :=
  let b := s.frameOf n m
  let part := fun (off n : Nat) => (⟨Memory.empty.write 0 (s.hbmBytes (b + off) n), (s.hbmPoison (b + off) n).map (· - (b + off) / 32)⟩ : PMem)
  let tags := (s.hbmBytes (b + 0x400000) 0x6000).zipIdx.flatMap (fun (p : Byte × Nat) =>
    if p.1 = 0 then [] else (List.range 8).filterMap (fun i => if p.1.toNat / 2 ^ i % 2 = 1 then some (16 * (8 * p.2 + i)) else none))
  let cols := (s.tileAt t).geom.cols
  let bst := (cols.take (min v.lcols 256)).zipIdx.foldl (fun (m : PMem) c =>
    let a := b + 0x800000 + 0x4000 * c.2
    (m.write (16384 * c.1) (s.hbmBytes a 0x4000)).taint ((s.hbmPoison a 0x4000).map (fun u => u - a / 32 + 512 * c.1))) (s.tileAt t).bst
  let s := s.updTile t (fun x => { x with spad := part 0x100000 0x300000, regs := part 0x80000 0x80000, tags := tags, bst := bst })
  (List.range 4).foldl (fun (s : State) h => s.putThread n m t h (fun old => (v.threads[Fin.ofNat 4 h].rehome t (s.tileAt t).geom).after old)) s

/-- The header of a tile's part of a frame is whole. -/
def State.headerGood (s : State) (n : Node) (m : Nat) : Bool :=
  let h := s.hbmBytes (s.frameOf n m) 0x10000
  leAt h 0 4 = 0x56415343 && leAt h 0xFFFC 4 = crc32c (h.take 0xFFFC)

/-- A loss of the context (R373, R376): the teardown is the very next event. -/
def State.loseCtx (s : State) (c : Nat) (n : Option Nat) : State := s.killCtx c { cause := 14, lost := true, node := n, addr := 0, tile := 0, thread := 0, access := 0 }

/-! ## Placing a node -/

/-- A resuming node whose tiles lie otherwise in clusters or dies than before: each part is an instance with the counter that the instance of its lowest tile had, and the
arrivals of its own threads (R274; DESIGN CHOICE, log entry 88). -/
def State.regroup (s : State) (n : Node) (c level : Nat) (inst : Nat → BitVec 32) (k : Nat) : State :=
  let old := s.mems.phases.filter (fun p => p.level == level && p.ctx == c && p.inst.toNat / 128 == n.id % 2 ^ 25)
  let was := fun (m : Nat) => (n.saved[m]?).bind (fun v => old.find? (fun p => p.inst == BitVec.ofNat 32 (wbits v.domid[Fin.ofNat 5 (level - 2)] 0 32)))
  let parts := ((List.range k).map inst).eraseDups.map (fun i =>
    let ms := (List.range k).filter (fun m => inst m == i)
    (⟨level, i, c, (((ms.head?).bind was).map (·.count)).getD 0, (old.flatMap (·.arrived)).filter (fun a => ms.contains (a % 2 ^ 19 / 4)), ms.length, 0, 0⟩ : PhaseInst))
  if old.isEmpty then s else { s with mems := { s.mems with phases := s.mems.phases.filter (fun p => !old.contains p) ++ parts } }

/-- A selected node is placed or resumed on its tiles. A save of either kind whose headers are not whole makes the context LOST (R373). -/
def State.placeNode (s : State) (n : Node) (a b : List Nat) : State :=
  let c := n.pkt.ctx
  match s.readRecord c with
  | none => s.failNode n 5 0
  | some r =>
    let halted := (s.ctxAt c).st == .halted
    let s := s.updCtx c (fun x => { x with record := r, map := x.map ++ a.zipIdx.map (fun p => (p.1, n.id, p.2)) })
    let n' := { n with tiles := a, shadow := b, placed := s.disp.nextId, level := s.level n, xdone := 0 }
    let s := { s.updNode n.id (fun _ => n') with disp := { (s.updNode n.id (fun _ => n')).disp with nextId := s.disp.nextId + 1 } }
    let sig := fun (m : Nat) => ((n.saved[m]?).map (·.sig)).getD 0
    let s := a.zipIdx.foldl (fun (s : State) p => s.takeTile n' r p.1 none (n'.domids r p.1) halted (sig p.2)) s
    let s := b.zipIdx.foldl (fun (s : State) p => s.takeTile n' r p.1 (some (a.getD p.2 0)) (n'.domids r (a.getD p.2 0)) halted (sig (a.length + p.2))) s
    let s := [2, 3].foldl (fun (s : State) l =>
      let inst := fun (m : Nat) => BitVec.ofNat 32 (wbits ((n'.domids r (a.getD m 0))[Fin.ofNat 5 (l - 2)]) 0 32)
      (s.regroup n c l inst a.length).regroup n (c + 64) l inst b.length) s
    let s := s.joinPhases n' r
    let s := ((a ++ b).zip n.saved).foldl (fun (s : State) p => s.giveEntries p.1 c p.2.own) s
    let s := s.giveKept c (a ++ b)
    let s := if halted then s else s.setCtxState c .running
    if n.phase = .saved && !(List.range (a.length + b.length)).all (s.headerGood n') then s.loseCtx c (some n.id)
    else if n.saved.isEmpty || n.coop then
      (match (s.setPhase n.id .loading).nodeAt n.id with
       | some m => (s.setPhase n.id .loading).loadNode m
       | none => s)
    else ((((a ++ b).zip n.saved).zipIdx.foldl (fun (s : State) p => s.restoreTile n' p.1.2 p.2 p.1.1) s).setPhase n.id .running).updNode n.id ({ · with saved := [] })

/-- A saved node goes without having resumed: its blocks' entries stay with its context (R327). -/
def State.dropSaved (s : State) (n : Node) : State :=
  let s := (n.saved.foldl (fun (s : State) v => s.keepTable n.pkt.ctx v.tile v.own) s).leavePhases n
  s.updCtx n.pkt.ctx (fun x => { x with map := x.map.filter (fun e => e.2.1 != n.id) })

/-- Nodes whose minimum shape no tile of the module meets complete with SHAPE, those that wait to resume among them (R353, R354). -/
def State.shapeFails (s : State) : State :=
  (s.disp.nodes.filter (fun n => (n.phase == .ready || n.phase == .saved) && (List.range 128).all (fun t => !s.shapeMin n t))).foldl (fun (s : State) n =>
    ((if n.phase = .saved then s.dropSaved n else s).failNode n 6 0).settleCtx n.pkt.ctx) s

/-! ## Requests for pre-emption (R355, R372) -/

/-- The lowest save frame of a context that no saved node holds. -/
def State.freeFrame (s : State) (c : Nat) : Option Nat :=
  (List.range (s.ctxAt c).record.frames).find? (fun f => !s.disp.nodes.any (fun n => n.pkt.ctx == c && n.frame == some f))

/-- A tile that will be free, `v` being the nodes that are to give theirs up and `kept` the tiles that waiting nodes of higher rank will take. -/
def State.busyBut (s : State) (v : List Nat) (kept : List Nat) (t : Nat) : Bool := kept.contains t || (s.busy t && !(((s.tileAt t).node).any v.contains))

/-- The nodes to pre-empt so that node `n` could be placed, with the tiles it would then take: of lower effective level, the lowest first and the latest placed first, until
enough tiles would be free; `asked` are requested already. A running node's effective level is the one it was placed with (DEDUCED, log entry 137). -/
def State.victims (s : State) (n : Node) (asked kept : List Nat) : Option (List Nat × List Nat) :=
  let low := (s.disp.nodes.filter (fun x => x.isPlaced && !isRecovery x.pkt.queue && x.level < s.level n && !asked.contains x.id)).mergeSort (fun x y =>
    x.level < y.level || (x.level == y.level && y.placed ≤ x.placed))
  (List.range (low.length + 1)).findSome? (fun k =>
    let v := (low.take k).map (·.id)
    (s.tileSets n (s.busyBut (asked ++ v) kept)).map (fun p => (v, p.1 ++ p.2)))

/-- The requests of R355 on behalf of every ready node that pre-emption could place, the highest level first; nodes already requested count as free. -/
def State.requestPreempt (s : State) : State :=
  let wait := (s.disp.nodes.filter s.mayPlace).mergeSort (fun x y => s.level y < s.level x || (s.level x == s.level y && x.id ≤ y.id))
  let asked := (s.disp.nodes.filter (fun n => n.isPlaced && n.req.isSome)).map (·.id)
  let all := (wait.foldl (fun (r : List Nat × List Nat) n =>
    match s.victims n r.1 r.2 with
    | some (v, ts) => (r.1 ++ v, r.2 ++ ts)
    | none => r) (asked, [])).1
  { s with disp := { s.disp with nodes := s.disp.nodes.map (fun n => if all.contains n.id && n.req.isNone then { n with req := some s.run.cycle } else n) } }

/-- DISPATCH_SELECT (R352 to R355): packets are admitted, transfers go on, and one selected node is placed or resumed; when none can be placed, pre-emption is requested. -/
def execDispatchSelect (s : State) : Host.Outcome State Fault Refusal :=
  let s := s.admitAll.shapeFails.endFailed.loadNodes.endFailed
  match s.selectFrom s.placeable 8 with
  | some (n, s) =>
    (match s.tileSets n s.busy with
     | some (a, b) => .next ((s.placeNode n a b).pushAgenda [⟨.dispatchSelect, .none⟩])
     | none => .next s)
  | none => .next s.requestPreempt

/-! ## Completion (R356 to R358) -/

/-- Nothing of a thread is left: it has ended, its commands and programs are done, its posted writes acknowledged. -/
def Thread.finished (x : Thread) : Bool :=
  x.flow.status != .running && (x.cmds.filter (fun c => c.kind != .ringRow)).isEmpty && x.progs.isEmpty && x.posted && x.nest.isNone

/-- Every tile of a node is finished. -/
def State.nodeDrained (s : State) (n : Node) : Bool := n.all.all (fun t => (s.tileAt t).th.toList.all Thread.finished)

/-- A node is gone: those that waited for it go on, and its packet ends with its last node. -/
def State.removeNode (s : State) (n : Node) : State :=
  let rest := (s.disp.nodes.filter (fun (x : Node) => x.id != n.id)).map (fun (x : Node) =>
    let d := x.deps.filter (· != n.id)
    if x.phase == .waiting && d.isEmpty then { x with deps := d, phase := .ready, since := s.fab.frame.toNat } else { x with deps := d })
  let s := ({ s with disp := { s.disp with nodes := rest } } : State).leavePhases n
  let s := s.updPacket n.pkt.id ({ · with last := n.idx })
  let s := s.updCtx n.pkt.ctx (fun x => { x with map := x.map.filter (fun e => e.2.1 != n.id) })
  match s.disp.packets.find? (fun p => p.id == n.pkt.id) with
  | some p =>
    if p.fail.isNone && p.plan == some [] && !s.disp.nodes.any (fun x => x.pkt.id == p.id) then s.endPacket p 0 0 n.idx else s
  | none => s

/-! ## Save frames and the point between two nodes of a chain (R368, R369, R371, R372) -/

/-- CURSOR (R341). -/
def cursor (n : Node) : Nat := n.pkt.queue % 2 ^ 10 + n.idx % 256 * 2 ^ 10 + n.pkt.seq % 2 ^ 46 * 2 ^ 18

/-- A command's record in a header: what it was given, and its resume offset, 256 bytes for each landed sector (R370). -/
def Cmd.names (c : Cmd) : List Nat := [c.id, c.dst.toNat, c.src.toNat, c.len.toNat, c.bar.toNat, 256 * c.landed.length]

/-- The header of a tile's part of a frame (R371): the magic and the CRC have their places; the other bytes hold the values named (DESIGN CHOICE, log entry 89). -/
def State.saveHeader (s : State) (n : Node) (b t : Nat) (cmds : List Cmd) : State :=
  let v := [t, (s.tileAt t).geom.word.toNat, n.pkt.queue, n.pkt.seq, n.idx] ++ cmds.flatMap Cmd.names
  let h := [0x43, 0x53, 0x41, 0x56].map (BitVec.ofNat 8) ++ (List.range 0xFFF8).map (Config.frameByte v)
  s.hbmWrite b (h ++ leBytes 4 (crc32c h))

/-- What a cooperative save keeps of a thread (R368, step 3): the node's index, the PHASE's bundle, the domain phase counters, s1 to s31 and the CSRs named. -/
def Thread.cursorOf (x : Thread) (idx : Nat) (counts : List Nat) : List Nat :=
  [idx, x.flow.pc.toNat] ++ counts ++ (x.regs.x.toList.drop 1).map (·.toNat) ++
    [x.csr.rmode.toNat, x.csr.srseed.toNat, x.csr.flags.toNat, x.csr.warn.toNat, x.qs.tok.toNat, x.csr.tvec.toNat, x.csr.uivec.toNat, x.csr.uimask.toNat]

/-- The four thread areas of a tile's part of a frame, in rank order. -/
def State.saveAreas (s : State) (b : Nat) (bytes : Fin 4 → Nat → Byte) : State :=
  (List.finRange 4).foldl (fun (s : State) h => s.hbmWrite (b + 0x10000 + 0x10000 * h.val) ((List.range 0x10000).map (bytes h))) s

/-- The saved node is named in CURSOR, and the dispatcher goes on. -/
def State.savedNode (s : State) (n : Node) : State :=
  ((s.hbmWrite (s.ctxField n.pkt.ctx 0x60) (leBytes 8 (cursor n))).settleCtx n.pkt.ctx).pushAgenda [⟨.dispatchSelect, .none⟩]

/-- The cooperative point between two nodes of a chain: `n` has completed with a request pending, and the node of its packet that is now ready is saved before it starts,
in a free frame. The blocks that stay on the tiles leave them (R327). -/
def State.chainPoint (s : State) (n : Node) : State :=
  let next := s.disp.nodes.find? (fun x => x.pkt.id == n.pkt.id && x.phase == .ready && n.idx < x.idx)
  match next, s.freeFrame n.pkt.ctx with
  | some x, some f =>
    if n.req.isNone || isRecovery n.pkt.queue then s
    else
      let s := n.all.foldl (fun (s : State) t => s.evict t n.pkt.ctx) s
      let s := (List.range (if x.pkt.flags.getLsbD 0 then 2 * x.desc.tiles else x.desc.tiles)).foldl (fun (s : State) m =>
        let b := s.frameBase n.pkt.ctx f m
        let th := startThread Thread.reset (s.ctxAt n.pkt.ctx).record x.desc
        (s.saveHeader x b ((n.all[m]?).getD 0) []).saveAreas b (fun h => Config.frameByte ((th (4 * (m % max 1 x.desc.tiles) + h.val)).cursorOf x.idx []))) s
      (s.updNode x.id (fun y => { y with phase := .saved, frame := some f, coop := true, since := s.fab.frame.toNat })).savedNode x
  | _, _ => s

def State.setSum (s : State) (ts : List Nat) : Word := ts.foldl (fun (g : Word) t => g + (s.tileAt t).sig) 0

/-- NODE_COMPLETE (R356, R358): the node's writes are released, its tiles let go. A dual run compares its signatures; a trap in its shadow set ends it. -/
def execNodeComplete (s : State) : Host.Outcome State Fault Refusal :=
  match s.run.input with
  | .node id =>
    match s.nodeAt id with
    | none => .next s
    | some n =>
      if n.phase ≠ .running || !(n.abort || s.nodeDrained n) then .next s
      else
        let dual := n.pkt.flags.getLsbD 0
        let a := s.setSum n.tiles
        let c := s.setSum n.shadow
        let differ := dual && !n.abort && a != c
        let s := n.all.foldl (fun (s : State) t => s.freeTile t) s
        let s := if dual then s.updPacket n.pkt.id ({ · with sig := a }) else s
        let s := if differ then (s.logEntry 7 ([n.tiles.length] ++ n.tiles ++ n.shadow ++ [a.toNat, c.toNat])).wake 7 else s
        let s := if n.abort then (s.leavePhases n).failNode n 4 0 else if differ then (s.leavePhases n).failNode n 3 0 else (s.removeNode n).chainPoint n
        .next ((s.settleCtx n.pkt.ctx).endFailed.pushAgenda [⟨.dispatchSelect, .none⟩])
  | _ => .next s

end Sys2Proof.Machine
end

