-- ==== Sys2Proof/Machine/Preempt.lean ====
section
/-! DEFINITION. Pre-emption, saves and their deadlines, the deathwatch, and the context commands CREATE, TEARDOWN, PREEMPT, HALT and RESUME with TLBINV (R326, R327, R343,
R361, R363, R366 to R377, R463). -/

namespace Sys2Proof.Machine

/-! ## What leaves with a node (R327, R370, R371) -/

/-- The blocks of context `c` leave tile `t`: at a forced save its unpinned blocks are spilled to the default home, at a cooperative one they are freed; pinned ones are
spilled. The entries that remain are the context's saved ones. -/
def State.saveBlocks (s : State) (t c : Nat) (forced : Bool) : State × Vector OwnEnt 64 :=
  let s := (List.range 64).foldl (fun (s : State) L =>
    let e := (s.tileAt t).ent L
    if e.st == .free || e.ctx.toNat != c || !e.resident then s
    else if e.pin then s.hwSpill t L
    else if forced then (s.updTile t (fun x => x.setEnt L { e with home := 0 })).hwSpill t L
    else s.updTile t (fun x => x.setEnt L OwnEnt.free)) s
  let es := (s.tileAt t).own.map (fun e => if e.ctx.toNat == c then e else OwnEnt.free)
  (s.updTile t (fun x => { x with own := x.own.map (fun e => if e.st != .free && e.ctx.toNat == c then OwnEnt.free else e) }), es)

/-- A tile is let go with its threads saved elsewhere. -/
def State.parkTile (s : State) (t : Nat) : State :=
  (s.cleanL1 t).updTile t (fun x =>
    { x with ctx := 0, node := none, twin := none, halted := false, tags := [], th := x.th.map (fun th => { Thread.reset with nextCmd := th.nextCmd }) })

/-- A thread as the save keeps it: requests are made again, stopped commands go on from their landed sectors (R370, R462). DEDUCED (log entry 117), unsafe. -/
def Thread.kept (x : Thread) : Thread :=
  { x.unrefill with remotes := [], flow := { x.flow with inWfi := false }, cmds := x.cmds.map (fun c => { c with stop := false, wait := none }), progs := x.progs.map (fun p => { p with stop := false }) }

/-- A copy into the B stratum names its columns by their logical numbers while its thread is saved: the tile that takes the thread may map them otherwise (R373). -/
def Thread.unmapCols (g : Geom) (x : Thread) : Thread :=
  { x with cmds := x.cmds.map (fun c => if c.kind == .cpinb then { c with cols := c.cols.map (fun p => g.cols.findIdx (· == p)) } else c) }

/-- A memory of a tile written with its poison. -/
def State.savePMem (s : State) (a n : Nat) (m : PMem) (off : Nat) : State :=
  (s.hbmWrite a (m.mem.read off n)).hbmTaint ((m.poison.filter (fun u => off ≤ 32 * u && 32 * u < off + n)).map (fun u => u - off / 32 + a / 32))

/-- Register space, scratchpad, barrier tags and B slices of a tile (R370, steps 3 and 4). -/
def State.saveMemory (s : State) (t b : Nat) : State :=
  let x := s.tileAt t
  let s := (s.savePMem (b + 0x80000) 0x80000 x.regs 0).savePMem (b + 0x100000) 0x300000 x.spad 0
  let tags := (List.range 0x6000).map (fun i => BitVec.ofNat 8 ((List.range 8).foldl (fun n j => n + natOfBool (x.tags.contains (16 * (8 * i + j))) * 2 ^ j) 0))
  let s := s.hbmWrite (b + 0x400000) tags
  (x.geom.cols.take 256).zipIdx.foldl (fun (s : State) c => s.savePMem (b + 0x800000 + 0x4000 * c.2) 0x4000 x.bst (16384 * c.1)) s

/-- A latched nest with at most 8,192 active cycles completes; a longer one stays latched and starts again on resumption (R302, R370). DEDUCED (log entry 94), unsafe. -/
def State.settleNests (s : State) (t : Nat) : State :=
  (List.range 4).foldl (fun (s : State) h =>
    match (s.threadAt t h).nest with
    | some n =>
      let cycles := (n.runs.map (fun r => r.cycles n.tab)).foldl (· + ·) 0
      if cycles ≤ 8192 && n.names.all (fun L => ((s.tileAt t).ent L).resident) then s.runNest t h n else s
    | none => s) s

/-- The domain phase counters of a tile: those of the levels whose DOMID is valid. -/
def State.phaseCounts (s : State) (t : Nat) : List Nat :=
  [2, 3, 4, 5, 6].map (fun l => if wbit (s.tileAt t).domid[Fin.ofNat 5 (l - 2)] 63 then (s.phaseOf t l).count else 0)

/-- One tile of a node is saved into its part of the frame: by force with its memories and everything of its threads, cooperatively with the cursor alone (R368, R370, R371). -/
def State.saveTile (s : State) (n : Node) (f m t : Nat) (forced : Bool) : State × SavedTile :=
  let b := s.frameBase n.pkt.ctx f m
  let s := if forced then s.settleNests t else s
  let s := s.cleanL1 t
  let s := if forced then s.saveMemory t b else s
  let e := s.saveBlocks t n.pkt.ctx forced
  let x := s.tileAt t
  let th := x.th.map (fun h => h.kept.unmapCols x.geom)
  let counts := s.phaseCounts t
  let s := e.1.saveHeader n b t (x.th.toList.flatMap (·.cmds))
  let s := (List.range 4).foldl (fun (s : State) h => s.renumber (4 * t + h) (savedThread n.id m h)) s
  let s := s.saveAreas b (fun h => if forced then Config.areaByte th[h] else Config.frameByte (th[h].cursorOf n.idx counts))
  (s.parkTile t, { threads := th, tile := t, lrows := x.geom.rows.length, lcols := x.geom.cols.length, own := e.2, domid := x.domid, sig := x.sig })

/-- The node is saved in frame `f`: its tiles are free, it waits to resume with the priority it had, and what arrived for its tiles meanwhile is applied to the save area (R353,
R368, R370, R372, R374). -/
def State.saveNode (s : State) (n : Node) (f : Nat) (forced : Bool) : State :=
  let r := n.all.zipIdx.foldl (fun (r : State × List SavedTile) p =>
    let v := r.1.saveTile n f p.2 p.1 forced
    (v.1, r.2 ++ [v.2])) (s, [])
  ((r.1.updNode n.id (fun n =>
    { n with phase := .saved, saved := r.2, frame := some f, coop := !forced, saving := none, req := none, since := s.fab.frame.toNat, tiles := [], shadow := [] })).savedNode n).releaseIn (65 + n.id)

/-- A node whose transfers are under way is saved: no thread of it has begun, or it resumes from a cooperative point, and its transfers will run again. What stands in its
tiles' tables leaves with it. -/
def State.saveLoading (s : State) (n : Node) (f : Nat) : State :=
  let r := n.all.zipIdx.foldl (fun (r : State × List SavedTile) p =>
    let b := s.frameBase n.pkt.ctx f p.2
    let s := r.1.saveHeader n b p.1 []
    match n.saved[p.2]? with
    | some v =>
      let e := s.saveBlocks p.1 n.pkt.ctx false
      let s := e.1.saveAreas b (fun h => Config.frameByte (v.threads[h].cursorOf n.idx (s.phaseCounts p.1)))
      (s.parkTile p.1, r.2 ++ [{ v with own := e.2, sig := (s.tileAt p.1).sig }])
    | none =>
      let th := startThread Thread.reset (s.ctxAt n.pkt.ctx).record n.desc
      let s := (s.evict p.1 n.pkt.ctx).saveAreas b (fun h => Config.frameByte ((th (4 * p.2 + h.val)).cursorOf n.idx []))
      (s.parkTile p.1, r.2)) (s, [])
  (r.1.updNode n.id (fun n =>
    { n with phase := .saved, saved := r.2, frame := some f, coop := true, req := none, wait := none, since := s.fab.frame.toNat, tiles := [], shadow := [] })).savedNode n

/-! ## Beginning a save -/

/-- The issue of a node's tiles stops; their combining lines are sent (R386). -/
def State.stopNode (s : State) (n : Node) (cmds : Bool) : State :=
  n.all.foldl (fun (s : State) t =>
    s.updTile t (fun x =>
      { x with halted := true, th := x.th.map (fun th =>
          let th := th.sendLines.abandon
          if cmds then { th with cmds := th.cmds.map (fun c => { c with stop := true }), progs := th.progs.map (fun p => { p with stop := true }) } else th) })) s

/-- What a thread has sent and still waits for: LAUNCH is never abandoned, a started remote access completes (R268), posted writes and sectors are awaited. -/
def Thread.inFlight (x : Thread) : Bool := x.flow.held == .launch || !x.remotes.isEmpty || !x.posting.isEmpty || !x.posted || x.cmds.any (fun c => !c.sent.isEmpty)

def State.nodeQuiet (s : State) (n : Node) : Bool := n.all.all (fun t => (s.tileAt t).th.toList.all (fun x => !x.inFlight))

/-- The end of a forced save, once what was in flight is back. -/
def State.endForced (s : State) (n : Node) : State :=
  match n.frame.or (s.freeFrame n.pkt.ctx) with
  | some f => if s.nodeQuiet n then s.saveNode n f true else s
  | none => s

/-- FORCED_PREEMPT (R355, R370, R372): at the end of the PWAIT wait, and at once after a deathwatch expiry; a node of the recovery level is never pre-empted. A request waits
for a free frame. The same event continues a save that has begun. A node whose transfers are still under way has nothing to stop and is saved at once. -/
def execForcedPreempt (s : State) : Host.Outcome State Fault Refusal :=
  match s.run.input with
  | .node id =>
    match s.nodeAt id with
    | none => .next s
    | some n =>
      if !n.isPlaced || (n.phase = .running && n.coop) then .next s
      else if n.saving.isSome then .next (s.endForced n)
      else
        match n.req, n.frame.or (s.freeFrame n.pkt.ctx) with
        | some r, some f =>
          if isRecovery n.pkt.queue || !((s.ctxAt n.pkt.ctx).late || r + wbits s.disp.ctl 32 16 * 1024 ≤ s.run.cycle) then .next s
          else if n.phase = .loading then .next (s.saveLoading n f)
          else
            let n := { n with saving := some s.run.cycle, frame := some f }
            .next (((s.updNode id (fun _ => n)).stopNode n true).endForced n)
        | _, _ => .next s
  | _ => .next s

/-! ## Cooperative points (R368, R369) -/

/-- Every thread of the node that still runs is held in the PHASE of the device instance that has just become even. -/
def State.atPoint (s : State) (n : Node) : Bool :=
  n.pkt.flags.getLsbD 1 && n.all.all (fun t => (List.range 4).all (fun h =>
    let x := s.threadAt t h
    x.flow.status != .running ||
      (match x.flow.held with
       | .phase 4 k => let c := (s.phaseOf t 4).count; c != k && c % 2 == 0
       | _ => false)))

/-- Something remains that a cooperative save does not keep (R368, step 2): a syllable of the PHASE's own bundle that an engine still holds is one. -/
def Thread.leftover (x : Thread) : Bool :=
  !x.enginesIdle || x.nest.isSome || !x.qs.qlw.isEmpty || !x.qs.qws.isEmpty || !x.qs.qcl.isEmpty || !x.qs.qlc.isEmpty || !x.flow.loops.isEmpty || !x.eL.loops.isEmpty || !x.eW.loops.isEmpty ||
    !x.eS.loops.isEmpty || x.csr.tbreg.toList.any tbValid || x.rings.toList.any (·.valid) || x.flow.stack.any (· != .no)

/-- The end of a cooperative save, once every command has landed or aborted; with a leftover the forced sequence follows instead. -/
def State.endCoop (s : State) (n : Node) : State :=
  let ths := n.all.flatMap (fun t => (s.tileAt t).th.toList)
  if ths.any (fun x => x.cmds.any (fun c => c.kind != .ringRow) || !x.progs.isEmpty) then s
  else if ths.any Thread.leftover then
    let n := { n with coop := false }
    ((s.updNode n.id (fun _ => n)).stopNode n true).endForced n
  else match n.frame with
    | some f => if s.nodeQuiet n then s.saveNode n f false else s
    | none => s

/-- COOPERATIVE_POINT (R368, R369): every point of a node with a pending request is used, when a save frame is free. The same event continues a save that has begun. -/
def execCooperativePoint (s : State) : Host.Outcome State Fault Refusal :=
  match s.run.input with
  | .node id =>
    match s.nodeAt id with
    | none => .next s
    | some n =>
      if n.phase ≠ .running then .next s
      else if n.saving.isSome then .next (if n.coop then s.endCoop n else s)
      else
        match n.req, n.frame.or (s.freeFrame n.pkt.ctx) with
        | some _, some f =>
          if isRecovery n.pkt.queue || !s.atPoint n then .next s
          else
            let n := { n with saving := some s.run.cycle, frame := some f, coop := true }
            .next (((s.updNode id (fun _ => n)).stopNode n false).endCoop n)
        | _, _ => .next s
  | _ => .next s

/-! ## Deadlines (R375, R376) -/

/-- SAVE_DEADLINE (R376): 2^20 cycles after a save began, its context is lost. -/
def execSaveDeadline (s : State) : Host.Outcome State Fault Refusal :=
  match s.run.input with
  | .node id =>
    match s.nodeAt id with
    | some n => if n.saving.any (fun c => c + 2 ^ 20 ≤ s.run.cycle) then .next (s.loseCtx n.pkt.ctx (some id)) else .next s
    | none => .next s
  | _ => .next s

/-- The limit of a context's deathwatch (R375). -/
def State.dwLimit (s : State) (c : Nat) : Nat := let l := (s.ctxAt c).record.dwlimit; if l = 0 then s.disp.dwlim.toNat else l.toNat

/-- DEATHWATCH (R372, R375, R376): a kill with cause 13, or the forced pre-emption of every placed node, ending in SAVED_LATE; where a node needs a frame and none is free, the
kill. -/
def execDeathwatch (s : State) : Host.Outcome State Fault Refusal :=
  match s.run.input with
  | .ctx c =>
    let c := c.toNat
    let x := s.ctxAt c
    if x.st ≠ .running || x.dw < s.dwLimit c then .next s
    else
      let s := s.updCtx c ({ · with dw := 0 })
      let needs := s.disp.nodes.any (fun n => n.pkt.ctx == c && n.isPlaced && n.frame.isNone)
      if !x.record.dwact || (needs && (s.freeFrame c).isNone) then
        .next (s.killCtx c { cause := 13, lost := false, node := none, addr := 0, tile := 0, thread := 0, access := 0 })
      else
        let s := s.updCtx c ({ · with late := true })
        .next { s with disp := { s.disp with nodes := s.disp.nodes.map (fun n =>
          if n.pkt.ctx == c && n.isPlaced && n.req.isNone then { n with req := some s.run.cycle } else n) } }
  | _ => .next s

/-! ## Context commands (R343) -/

def State.ctxError (s : State) (e : BitVec 4) : State := { s with disp := { s.disp with error := e } }

/-- CREATE (R343, R463). -/
def execCreateCtx (s : State) : Host.Outcome State Fault Refusal :=
  match s.run.input with
  | .ctx c =>
    let c := c.toNat
    if c = 0 || !((s.ctxAt c).st == .none || (s.ctxAt c).st == .dead) then .next (s.ctxError 1)
    else if 64 ≤ 1 + ((List.range 64).filter (fun k => k != 0 && (s.ctxAt k).st.resident)).length then .next (s.ctxError 2)
    else match s.readRecord c with
      | none => .next (s.ctxError 3)
      | some r =>
        let s := s.updCtx c (fun _ => { Ctx.reset with record := r })
        .next (((s.setCtxState c .idle).hbmWrite (s.ctxField c 0x34) (leBytes 4 0)).ctxError 0)
  | _ => .next s

/-- PREEMPT (R343, R355): every placed node of the context is requested. -/
def execPreemptCtx (s : State) : Host.Outcome State Fault Refusal :=
  match s.run.input with
  | .ctx c =>
    let c := c.toNat
    if (s.ctxAt c).st ≠ .running then .next (s.ctxError 1)
    else
      let s := (s.updCtx c ({ · with preempt := true })).ctxError 0
      .next { s with disp := { s.disp with nodes := s.disp.nodes.map (fun n =>
        if n.pkt.ctx == c && n.isPlaced && n.req.isNone then { n with req := some s.run.cycle } else n) } }
  | _ => .next s

/-- HALT (R377), and the halt of a breakpoint under BRKHALT (R361), which is no command and leaves ERROR alone: the tiles of the context stop; its commands issue no more
sectors. -/
def execHaltCtx (s : State) : Host.Outcome State Fault Refusal :=
  match s.run.input with
  | .ctx c =>
    let c := c.toNat
    let x := s.ctxAt c
    let error := fun (s : State) (e : BitVec 4) => if x.brk then s.updCtx c ({ · with brk := false }) else s.ctxError e
    if !(x.st == .running || x.st == .preempted) then .next (error s 1)
    else
      let s := (s.disp.nodes.filter (fun n => n.pkt.ctx == c && n.isPlaced)).foldl (fun (s : State) n => s.stopNode n true) s
      .next (error ((s.updCtx c ({ · with before := x.st })).setCtxState c .halted) 0)
  | _ => .next s

/-- A node's tiles run again, unless its save is under way. -/
def State.resumeNode (s : State) (n : Node) : State :=
  if n.saving.isSome then s
  else n.all.foldl (fun (s : State) t =>
    s.updTile t (fun x =>
      { x with halted := false, th := x.th.map (fun th =>
          { th with cmds := th.cmds.map (fun c => { c with stop := false }), progs := th.progs.map (fun p => { p with stop := false }) }) })) s

/-- RESUME (R343, R377): held data lands first; a halted context goes on in its earlier state, as far as its nodes' places still give it; a SAVED_LATE one may be placed again. -/
def execResumeCtx (s : State) : Host.Outcome State Fault Refusal :=
  match s.run.input with
  | .ctx c =>
    let c := c.toNat
    let x := s.ctxAt c
    match x.st with
    | .halted =>
      let s := (s.updCtx c ({ · with before := .none })).setCtxState c .running
      let s := s.releaseIn c
      let s := (s.disp.nodes.filter (fun n => n.pkt.ctx == c && n.isPlaced)).foldl (fun (s : State) n => s.resumeNode n) s
      let s := s.settleCtx c
      let s := if x.before = .preempted && (s.ctxAt c).st = .idle then s.setCtxState c .preempted else s
      .next ((s.ctxError 0).pushAgenda [⟨.dispatchSelect, .none⟩])
    | .savedLate => .next ((((s.updCtx c ({ · with late := false })).setCtxState c .preempted).ctxError 0).pushAgenda [⟨.dispatchSelect, .none⟩])
    | _ => .next (s.ctxError 1)
  | _ => .next s

/-! ## Teardown (R361, R363, R364) -/

/-- Every block of a context on every tile is freed, pinned ones included. -/
def State.freeBlocks (s : State) (c : Nat) : State :=
  (List.range 128).foldl (fun (s : State) t =>
    if (s.tileAt t).own.toList.any (fun e => e.st != .free && e.ctx.toNat == c) then
      s.updTile t (fun x => { x with own := x.own.map (fun e => if e.st != .free && e.ctx.toNat == c then OwnEnt.free else e) })
    else s) s

/-- The status, cause and node that a packet of a context that ends is given. A kill ends every packet that has a node on tiles or saved with KILLED and the cause, naming the
killed node where it is the packet's; the others end with CONTEXT_DEAD (R361, R363; DEDUCED, log entry 138). -/
def State.fate (s : State) (k : Option Kill) (p : Packet) : Nat × Nat × Nat :=
  let mine : List Node := s.disp.nodes.filter (fun (n : Node) => n.pkt.id == p.id && (n.isPlaced || n.phase == .saved))
  let at_ := match mine with | n :: _ => n.idx | [] => p.last
  match k with
  | some k =>
    if k.lost then (8, 0, at_)
    else
      let killed := (k.node.bind (fun i => mine.find? (fun (n : Node) => n.id == i))).or mine.head?
      (match killed with | some n => (1, k.cause, n.idx) | none => (2, 0, at_))
  | none => (2, 0, at_)

/-- The steps of R363 in order. Packets published in the context's queues are accepted and end as the others do. -/
def State.tearDown (s : State) (c : Nat) (k : Option Kill) : State :=
  let ns : List Node := s.disp.nodes.filter (fun (n : Node) => n.pkt.ctx == c)
  let s := ns.foldl (fun (s : State) n => n.all.foldl (fun (s : State) t => s.freeTile t) s) s
  let s := s.freeBlocks c
  let s := (List.range 1024).foldl (fun (s : State) q => match s.launchQueue q with | some x => if x.ctx = c then s.acceptQueue q else s | none => s) s
  let s := (s.disp.packets.filter (fun p => p.ctx == c)).foldl (fun (s : State) p =>
    let f := s.fate k p
    s.endPacket p f.1 f.2.1 f.2.2) s
  let s := { s with
    disp := { s.disp with nodes := s.disp.nodes.filter (fun n => n.pkt.ctx != c) },
    mems := { s.mems with phases := s.mems.phases.filter (fun p => p.ctx % 64 != c), peerPh := s.mems.peerPh.filter (fun q => q.key != (s.ctxAt c).record.key) } }
  let s := ((List.range 256).filter (fun i => (s.rslotAt i).holder == some c && !(s.rslotAt i).dying)).foldl (fun (s : State) i => s.freeSlot i) s
  let s := match k with
    | some k => s.fqPost 0 k.tile k.thread (faultEntry k.addr c k.tile k.thread k.access (if k.lost then 2 else 1) k.cause 0)
    | none => s
  let s := s.updCtx c (fun x => { x with kill := none, preempt := false, brk := false, late := false, dw := 0, down := s.run.cycle + 1, kept := [], map := [] })
  let s := s.setCtxState c (if (k.map (·.lost)).getD false then .lost else .dead)
  ((ns.foldl (fun (s : State) n => s.releaseIn (65 + n.id)) s).releaseIn c).pushAgenda [⟨.dispatchSelect, .none⟩]

/-- TEARDOWN (R343, R363), and the teardown of a kill or of a loss (R361, R376). -/
def execTeardownCtx (s : State) : Host.Outcome State Fault Refusal :=
  match s.run.input with
  | .ctx c =>
    let x := s.ctxAt c.toNat
    match x.kill with
    | some k => .next (s.tearDown c.toNat (some k))
    | none => if c = 0 || x.st == .none || x.st == .dead then .next (s.ctxError 1) else .next ((s.tearDown c.toNat none).ctxError 0)
  | _ => .next s

/-! ## Translation caches (R366) -/

/-- TLBINV: the model walks the tables at every access and holds no translation; BUSY stands until the next event. -/
def execTlbinv (s : State) : Host.Outcome State Fault Refusal :=
  .next ({ s with disp := { s.disp with tlbBusy := true } }.pushAgenda [⟨.tlbinvDone, .none⟩])

/-- TLBINV_DONE. -/
def execTlbinvDone (s : State) : Host.Outcome State Fault Refusal := .next { s with disp := { s.disp with tlbBusy := false } }

end Sys2Proof.Machine
end

