-- ==== Sys2Proof/Machine/Cluster.lean ====
section
/-! DEFINITION. Putting a cluster to sleep and waking it: the CLPM commands, their completion, the retention records and the parked signals (R90 to R100). -/

namespace Sys2Proof.Machine

def State.clusterAt (s : State) (c : Nat) : Cluster := s.clusters[Fin.ofNat 8 c]
def State.updCluster (s : State) (c : Nat) (f : Cluster → Cluster) : State := { s with clusters := s.clusters.set (Fin.ofNat 8 c) (f (s.clusterAt c)) }

/-- The sixteen tiles of cluster 4 · die + cluster. -/
def clusterTiles (c : Nat) : List Nat := (List.range 16).map (· + 16 * c)

/-! ## Accepting a command (R92, R93) -/

/-- The command is refused with a code. -/
def State.clpmRefuse (s : State) (c : Nat) (e : BitVec 4) : State := s.updCluster c ({ · with error := e })

/-- The command is accepted: BUSY is set and ERROR cleared. -/
def State.clpmAccept (s : State) (c : Nat) (code : BitVec 4) : State :=
  s.updCluster c ({ · with cmd := code, busy := true, error := 0, since := s.run.cycle })

/-- A command of code `code` accepted in the states `ok`: 5 BUSY, else 1 BAD_SEQUENCE, else the refusal that `why` gives, 0 for none. DEDUCED (log entry 100), unsafe. -/
def State.clpmCommand (s : State) (c : Nat) (code : BitVec 4) (ok : List (BitVec 4)) (why : Cluster → BitVec 4) : State :=
  let x := s.clusterAt c
  if x.busy then s.clpmRefuse c 5
  else if !ok.contains x.st then s.clpmRefuse c 1
  else if why x ≠ 0 then s.clpmRefuse c (why x)
  else s.clpmAccept c code

/-- QUIESCE (R92), and the codes 9 to 15, which take ERROR 6 in every state (R90). -/
def execClpmQuiesce (s : State) : Host.Outcome State Fault Refusal :=
  match s.run.input with
  | .clusterCmd cl bad =>
    if bad ≠ 0 then .next (s.clpmRefuse cl.toNat 6)
    else .next (s.clpmCommand cl.toNat 1 [0] (fun _ => if s.disp.clen.getLsbD cl.toNat then 2 else 0))
  | _ => .next s

/-- SAVE (R92): refused with 3 RETBASE_BAD when BASE is 0. -/
def execClpmSave (s : State) : Host.Outcome State Fault Refusal :=
  match s.run.input with
  | .cluster cl => .next (s.clpmCommand cl.toNat 2 [2] (fun x => if x.retbase = 0 then 3 else 0))
  | _ => .next s

/-- GATE_CLK (R92): from its acceptance the tiles are unreachable (R98). -/
def execGateClk (s : State) : Host.Outcome State Fault Refusal :=
  match s.run.input with
  | .cluster cl =>
    let s' := s.clpmCommand cl.toNat 3 [4] (fun _ => 0)
    let took := !(s.clusterAt cl.toNat).busy && (s.clusterAt cl.toNat).st == 4
    .next (if took then s'.updCluster cl.toNat ({ · with gated := true }) else s')
  | _ => .next s

/-- GATE_RAIL (R92). -/
def execGateRail (s : State) : Host.Outcome State Fault Refusal :=
  match s.run.input with
  | .cluster cl => .next (s.clpmCommand cl.toNat 4 [5] (fun _ => 0))
  | _ => .next s

/-- UNGATE_RAIL (R92). -/
def execUngateRail (s : State) : Host.Outcome State Fault Refusal :=
  match s.run.input with
  | .cluster cl =>
    let r := s.takeFree
    .next ((r.2.clpmCommand cl.toNat 5 [6] (fun _ => 0)).updCluster cl.toNat (fun x => { x with raised := if x.busy && x.since = s.run.cycle then r.1 else x.raised }))
  | _ => .next s

/-- UNGATE_CLK (R92): from CLOCK_OFF, where nothing was lost, or from RAIL_ON. -/
def execUngateClk (s : State) : Host.Outcome State Fault Refusal :=
  match s.run.input with
  | .cluster cl => .next (s.clpmCommand cl.toNat 6 [5, 7] (fun _ => 0))
  | _ => .next s

/-- RESTORE (R92). -/
def execClpmRestore (s : State) : Host.Outcome State Fault Refusal :=
  match s.run.input with
  | .cluster cl => .next (s.clpmCommand cl.toNat 7 [8] (fun _ => 0))
  | _ => .next s

/-- RELEASE (R92); written during QUIESCE it cancels it (R93). -/
def execClpmRelease (s : State) : Host.Outcome State Fault Refusal :=
  match s.run.input with
  | .cluster cl =>
    let x := s.clusterAt cl.toNat
    if x.busy && x.cmd = 1 then .next (s.updCluster cl.toNat ({ · with cmd := 0, busy := false, error := 0 }))
    else .next (s.clpmCommand cl.toNat 8 [2, 4, 10] (fun _ => 0))
  | _ => .next s

/-- CLPM_WAKE (R90, R100). -/
def execClpmWake (s : State) : Host.Outcome State Fault Refusal :=
  match s.run.input with
  | .cluster cl => .next ((s.updCluster cl.toNat ({ · with wakereq := true })).markPriv (privKey (cl.toNat / 4) (0x881 + 4 * (cl.toNat % 4))) (wofNat (2 ^ 12)))
  | _ => .next s

/-! ## The retention records (R95 to R97) -/

/-- The 32 bytes of an ownership entry (R312). -/
def OwnEnt.bytes (e : OwnEnt) : List Byte := leBytes 8 e.word.toNat ++ leBytes 8 e.home.toNat ++ List.replicate 16 0

def BState.ofCode : Nat → BState
  | 1 => .owned | 2 => .pinned | 3 => .spilled | 4 => .migrating | _ => .free

/-- The entry that 32 bytes hold, on tile `t`. -/
def OwnEnt.ofBytes (t : Nat) (b : List Byte) : OwnEnt :=
  let w := wofNat (leAt b 0 8)
  { st := BState.ofCode (wbits w 0 3), pin := wbit w 3, slot := BitVec.ofNat 2 (wbits w 4 2), fmt := wbit w 6, hold := wbit w 7,
    thread := BitVec.ofNat 2 (wbits w 8 2), ctx := BitVec.ofNat 6 (wbits w 10 6), tag := BitVec.ofNat 16 (wbits w 16 16),
    sgen := BitVec.ofNat 16 (wbits w 32 16), home := wofNat (leAt b 8 8), origin := t }

/-- The record of tile `t`. -/
def Cluster.recordAt (x : Cluster) (t : Nat) : Nat := x.retbase.toNat + t % 16 * 0x120000

/-- The pinned blocks of a tile. -/
def Tile.pinnedBlocks (x : Tile) : List Nat := (List.range 64).filter (fun L => (x.ent L).st == .pinned)

/-- The first 64 KiB of a record; `maps` are the 1,024 bytes of remap settings, whose layout the spec does not give. DEDUCED (log entry 101), unsafe. -/
def recordBytes (x : Tile) (t : Nat) (maps : List Byte) : List Byte :=
  let h := [0x43, 0x4C, 0x52, 0x54].map (BitVec.ofNat 8) ++ leBytes 2 t ++ leBytes 2 x.pinnedBlocks.length ++ leBytes 8 x.geom.word.toNat ++ List.replicate 44 0
  let r := maps ++ (x.own.toList.map OwnEnt.bytes).flatten ++ List.replicate (0x10000 - 0xC40) 0
  h ++ leBytes 4 (crc32c (h ++ r)) ++ r

/-- A record with the right magic, tile number and CRC. -/
def recordValid (b : List Byte) (t : Nat) : Bool :=
  leAt b 0 4 = 0x54524C43 && leAt b 4 2 = t && crc32c (b.take 0x3C ++ b.drop 0x40) = leAt b 0x3C 4

/-- A tile is saved: its L1 is written back, its record and the slots of its pinned blocks are written. -/
def State.saveRetention (s : State) (c t : Nat) : State :=
  let s := s.cleanL1 t
  let a := (s.clusterAt c).recordAt t
  let x := s.tileAt t
  let f := s.freeBytes 1024
  let s := f.2.hbmWrite a (recordBytes x t f.1)
  let s := x.pinnedBlocks.foldl (fun (s : State) L => s.hbmWrite (a + 0x10000 + imageSize * L) (imageOf x t L)) s
  s.updCluster c (fun k => { k with pinned := k.pinned ++ x.pinnedBlocks.map (fun L => (t, L, (x.ent L).ctx.toNat, (x.ent L).tag.toNat)),
                                    shapes := k.shapes ++ [(t, x.geom, x.own.toList.map (·.origin))] })

/-- What a rail cut takes of a tile (R95): the L1, the accumulators, the ownership table, the remap settings, the queues. -/
def Tile.railCut (x : Tile) : Tile :=
  { x with th := x.th.map (fun th => { Thread.reset with nextCmd := th.nextCmd }), acc := vrep 64 [], own := vrep 64 OwnEnt.free, geom := Geom.none,
           l1 := ⟨[], [], Memory.empty, [], []⟩ }

/-- A health event to a context that names blocks (each a tile, a number and a tag): a record of its event log, whose bytes the spec does not give.
DESIGN CHOICE (log entry 102), safe. -/
def State.blockEvent (s : State) (c : Nat) (blocks : List (Nat × Nat × Nat)) : State :=
  let s := { s with run := { s.run with free := s.run.free + 1 } }
  s.logRecord c ((Config.blockEvent (blocks.flatMap (fun b => [b.1, b.2.1, b.2.2])) s.run.free).take 32)

/-- One pinned block is refilled from its slot, or freed when its image is not valid; the flag says that one was freed. A slot that holds a poisoned atom is taken for one
whose image is not valid: DESIGN CHOICE (log entry 135), the rule names only what R318 checks. DESIGN CHOICE (log entry 170), unsafe. -/
def State.restoreBlock (s : State) (a t L : Nat) : State × Bool :=
  let b := s.hbmBytes (a + 0x10000 + imageSize * L) imageSize
  if imageValid b && (s.hbmPoison (a + 0x10000 + imageSize * L) imageSize).isEmpty then (s.updTile t (·.setBlock L (imageWords b)), false)
  else
    let e := (s.tileAt t).ent L
    ((s.updTile t (·.setEnt L OwnEnt.free)).blockEvent e.ctx.toNat [(t, L, e.tag.toNat)], true)

/-- One tile is restored (R97). A record that holds a poisoned atom is taken for one whose CRC is wrong: DESIGN CHOICE (log entry 135). -/
def State.restoreRetention (s : State) (c t : Nat) : State × Bool :=
  let k := s.clusterAt c
  let a := k.recordAt t
  let b := s.hbmBytes a 0x10000
  let mine := k.pinned.filter (fun p => p.1 == t)
  if recordValid b t && (s.hbmPoison a 0x10000).isEmpty then
    let g := ((k.shapes.find? (fun p => p.1 == t)).map (·.2)).getD (Geom.none, [])
    let own := Vector.ofFn (fun (i : Fin 64) => OwnEnt.ofBytes (g.2[i.val]?.getD t) ((b.drop (0x440 + 32 * i.val)).take 32))
    let s := s.updTile t (fun x => { x with geom := g.1, own := own })
    (s.tileAt t).pinnedBlocks.foldl (fun (r : State × Bool) L => let q := r.1.restoreBlock a t L; (q.1, r.2 || q.2)) (s, false)
  else
    let g := s.resetGeom t
    let s := s.updTile t (fun x => { x with geom := g, own := vrep 64 OwnEnt.free })
    ((mine.map (fun p => p.2.2.1)).eraseDups.foldl (fun (s : State) c =>
      s.blockEvent c ((mine.filter (fun p => p.2.2.1 == c)).map (fun p => (p.1, p.2.1, p.2.2.2)))) s, true)

/-! ## Completion (R92, R93) -/

/-- QUIESCE's wait: no thread of any context, no nest, no command, no posted write unacknowledged. -/
def State.clusterQuiet (s : State) (c : Nat) : Bool :=
  (clusterTiles c).all (fun t =>
    (s.tileAt t).node.isNone && (s.tileAt t).th.toList.all (fun x => x.flow.status != .running && x.nest.isNone && x.cmds.isEmpty && x.progs.isEmpty && x.posted))

/-- The parked signals are applied in arrival order (R98). -/
def State.replayParked (s : State) (c : Nat) : State :=
  let ps := (s.clusterAt c).parked
  let s := s.updCluster c ({ · with parked := [], gated := false })
  ps.foldl State.replaySignal s

/-- The CL rail of a cluster is cut or stands (R114). -/
def State.clRail (s : State) (c : Nat) (on : Bool) : State :=
  let b : BitVec 25 := BitVec.ofNat 25 (2 ^ (17 + c))
  { s with edge := { s.edge with rails := if on then s.edge.rails ||| b else s.edge.rails &&& ~~~b } }

/-- The command ends in state `st`, with error `e`. Without one, ERROR stays: acceptance cleared it, and a command refused meanwhile was written later (R91, R93). -/
def State.clpmEnd (s : State) (c : Nat) (st e : BitVec 4) : State :=
  s.updCluster c (fun x => { x with st := st, cmd := 0, busy := false, error := if e = 0 then x.error else e })

/-- The offset that was stored for a cut rail is applied as it rises (R456). -/
def Margin.raise (m : Margin) (d : Fin 24) : Margin := { m with applied := m.applied.set d (m.target d), vmarg := m.vmarg.set d (wset m.vmarg[d] 16) }

/-- CLPM_COMMAND_COMPLETE (R93): the work of the running command is done, STATE takes its new value and BUSY clears. -/
def execClpmCommandComplete (s : State) : Host.Outcome State Fault Refusal :=
  match s.run.input with
  | .cluster cl =>
    let c := cl.toNat
    let x := s.clusterAt c
    if !x.busy then .next s
    else match x.cmd.toNat with
    | 1 =>
      if !s.clusterQuiet c then .next s
      else .next ({ s with disp := { s.disp with clen := s.disp.clen &&& ~~~BitVec.ofNat 8 (2 ^ c) } }.clpmEnd c 2 0)
    | 2 =>
      let s := s.updCluster c ({ · with pinned := [], shapes := [] })
      .next (((clusterTiles c).foldl (fun (s : State) t => s.saveRetention c t) s).clpmEnd c 4 0)
    | 3 => .next (s.clpmEnd c 5 0)
    | 4 => .next ((((clusterTiles c).foldl (fun (s : State) t => s.updTile t Tile.railCut) s).clRail c false).updCluster c ({ · with pgood := false }) |>.clpmEnd c 6 0)
    | 5 => .next (({ s.clRail c true with margin := s.margin.raise (Fin.ofNat 24 (4 + c)) }.updCluster c ({ · with pgood := true })).clpmEnd c 7 0)
    | 6 => .next (s.clpmEnd c (if x.st = 5 then 4 else 8) 0)
    | 7 =>
      let r := (clusterTiles c).foldl (fun (r : State × Bool) t => let q := r.1.restoreRetention c t; (q.1, r.2 || q.2)) (s, false)
      .next (r.1.clpmEnd c 10 (if r.2 then 7 else 0))
    | _ => .next (((s.replayParked c).updCluster c ({ · with pinned := [], shapes := [] })).clpmEnd c 0 0)
  | _ => .next s

/-- PGOOD_TIMEOUT (R92): the rail is cut again 30,000 cycles after UNGATE_RAIL. -/
def execPgoodTimeout (s : State) : Host.Outcome State Fault Refusal :=
  match s.run.input with
  | .cluster cl =>
    let x := s.clusterAt cl.toNat
    if x.busy && x.cmd = 5 && x.since + 30000 ≤ s.run.cycle then .next (s.clpmEnd cl.toNat 6 4) else .next s
  | _ => .next s

/-! ## As time passes -/

/-- The pinned blocks and the dirty superblocks of a cluster. -/
def State.clusterPinned (s : State) (c : Nat) : Nat := ((clusterTiles c).map (fun t => (s.tileAt t).pinnedBlocks.length)).foldl (· + ·) 0
def State.clusterDirty (s : State) (c : Nat) : Nat :=
  ((clusterTiles c).map (fun t => ((s.tileAt t).l1.dirty.map (· / 256)).eraseDups.length)).foldl (· + ·) 0

/-- The cycles of a command (the table of ch. 03). DESIGN CHOICE (log entry 103), unsafe. -/
def State.clpmCycles (s : State) (c : Nat) : Nat :=
  let x := s.clusterAt c
  match x.cmd.toNat with
  | 1 => 64
  | 2 => 200 + 1400 * s.clusterPinned c + 6 * s.clusterDirty c
  | 3 => 16
  | 4 => 1200
  | 5 => 11400
  | 6 => 32
  | 7 => 200 + 1400 * x.pinned.length
  | _ => 64 + 40 * x.parked.length

/-- The running commands whose time has come: they complete; a rail that does not reach regulation times out. -/
def State.clusterTick (s : State) : State :=
  (List.range 8).foldl (fun (s : State) c =>
    let x := s.clusterAt c
    if !x.busy || s.run.cycle < x.since + s.clpmCycles c then s
    else if x.cmd = 5 && !Config.railGood c x.raised then
      (if x.since + 30000 ≤ s.run.cycle then s.pushAgenda [⟨.pgoodTimeout, .cluster (BitVec.ofNat 3 c)⟩] else s)
    else s.pushAgenda [⟨.clpmCommandComplete, .cluster (BitVec.ofNat 3 c)⟩]) s

end Sys2Proof.Machine
end

