-- ==== Sys2Proof/Machine/Service.lean ====
section
/-! DEFINITION. The module's edges: the firmware timer and wake sources, writes to BAR0 by their owner, Firefly's commands, management ownership, the host link, power
limits and the security alarm (R106 to R117, R123 to R126). -/

namespace Sys2Proof.Machine

def State.modEdge (s : State) (f : Edge → Edge) : State := { s with edge := f s.edge }

/-! ## Wake sources (R106, R107) -/

/-- FWTIMER_EXPIRE (R106): TIMER is set once, when the comparison turns true. -/
def execFwtimerExpire (s : State) : Host.Outcome State Fault Refusal :=
  match s.run.input with
  | .die d =>
    let i : Fin 2 := Fin.ofNat 2 d.toNat
    let v := s.svc[i]
    if v.timerOn || s.cycleCount < v.fwtimer.toNat then .next s
    else .next ({ s with svc := s.svc.set i { v with timerOn := true, wakepend := v.wakepend ||| 8 } }.markPriv (privKey d.toNat 0x808) 8)
  | _ => .next s

/-- The timers whose comparison has just turned true. -/
def State.timerTick (s : State) : State :=
  (List.range 2).foldl (fun (s : State) d =>
    let v := s.svc[Fin.ofNat 2 d]
    if v.timerOn || s.cycleCount < v.fwtimer.toNat then s else s.pushAgenda [⟨.fwtimerExpire, .die (BitVec.ofNat 1 d)⟩]) s

/-- FIREFLY_MAILBOX (R106). The mailbox also carries firmware's request to raise the fused minimum SVN, which Firefly grants once READY is set and up to the running image's SVN (R121; DESIGN CHOICE, log
entry 145: the spec does not say by what path firmware asks). DESIGN CHOICE (log entry 145), unsafe. -/
def execFireflyMailbox (s : State) : Host.Outcome State Fault Refusal :=
  match s.run.input with
  | .svn v =>
    if wbit s.edge.bootStat 0 then .next (s.modEdge (fun e => { e with minSvn := BitVec.ofNat 32 (max e.minSvn.toNat (min v.toNat e.svn.toNat)) })) else .next s
  | _ => .next (s.wake 2)

/-! ## Ownership (R111, R112) -/

/-- Whether a write over a path that ownership governs is accepted. -/
def State.owns (s : State) (who : Writer) : Bool :=
  match who with
  | .firmware => true
  | .host => s.edge.owner == 0
  | .firefly => s.edge.owner == 1

/-- A write that is discarded: counted in HOSTERR when it came from the host. -/
def State.discard (s : State) (who : Writer) : State := if who = .host then s.countHostErr else s

/-- A non-owner write: counted in DROPS too. -/
def State.dropWrite (s : State) (who : Writer) : State :=
  (s.modEdge (fun e => { e with drops := if e.drops = 255 then 255 else e.drops + 1 })).discard who

/-- OWNER takes a value: DROPS counts from a change on; 2 and 3 are refused. -/
def Edge.setOwner (e : Edge) (v : Nat) : Edge :=
  if 1 < v || e.owner.toNat = v then e else { e with owner := BitVec.ofNat 2 v, drops := 0 }

/-- MGMT_OWNER_WRITE (R112): SEIZED clears where 1 is written to it by a writer that is accepted. -/
def execMgmtOwnerWrite (s : State) : Host.Outcome State Fault Refusal :=
  match s.run.input with
  | .write who v =>
    let w := wbits v 0 2
    let clear := fun (e : Edge) => { e with seized := e.seized && (!wbit v 3 || wbit (freshBits s.run.fresh 0x8A0) 3) }
    if s.owns who then .next (s.modEdge (fun e => clear (e.setOwner w)))
    else if who = .firefly && s.edge.linkDown && w = 1 then .next ((s.modEdge (fun e => { e.setOwner 1 with seized := true })).markPriv 0x8A0 8)
    else .next (s.dropWrite who)
  | _ => .next s

/-! ## BAR0 (R108, R109, R345, R367) -/

/-- A write to BAR0 by firmware, the host or Firefly. A write of a bad size or alignment is judged by R109 before ownership is (R112): DESIGN CHOICE (log entry 161: the rules give no order). DEDUCED (log entry 110), unsafe. -/
def State.bar0Write (s : State) (who : Writer) (off size : Nat) (v : Word) : State :=
  if size ≠ 8 || off % 8 ≠ 0 then s.discard who
  else if off = 0x000000 || off = 0x210000 then s
  else if off = 0x000008 then s.urgent .modrst (.write who v)
  else if off = 0x000010 then (if s.owns who then s.modEdge ({ · with apbase := BitVec.ofNat 10 (wbits v 30 10) }) else s.dropWrite who)
  else if off = 0x000018 then s.urgent .fwdoorbell (.writer who)
  else if off = 0x000020 then s.modEdge (fun e => { e with hosterr := e.hosterr &&& (~~~v.setWidth 17 ||| (freshBits s.run.fresh 0x20).setWidth 17) })
  else if 0x100000 ≤ off && off < 0x104000 then
    let die := (off - 0x100000) / 0x2000
    let n := 0x800 + off % 0x2000 / 8
    if n = 0x8A0 then s.urgent .mgmtOwnerWrite (.write who v)
    else if !s.owns who then s.dropWrite who
    else if (s.privCsr die 0 n).isNone then s.discard who
    else s.writePriv die 0 n who .write v
  else if 0x200000 ≤ off && off < 0x202000 then s.urgent .launchDoorbell (.doorbell (BitVec.ofNat 10 ((off - 0x200000) / 8)) who)
  else if off = 0x210008 then ({ s with disp := { s.disp with fqHead := v } }).fqDrain
  else if off = 0x210010 then s.urgent .fqresp (.response (v.setWidth 32) (wbit v 32))
  else s.discard who

/-- BAR0_MIRROR_WRITE (R109). -/
def execBar0MirrorWrite (s : State) : Host.Outcome State Fault Refusal :=
  match s.run.input with
  | .bar0 who off size v => .next (s.bar0Write who off.toNat size.toNat v)
  | _ => .next s

/-- MODRST (R108): 0x5253 from the owner starts a module reset. -/
def execModrst (s : State) : Host.Outcome State Fault Refusal :=
  match s.run.input with
  | .write who v =>
    if !s.owns who then .next (s.dropWrite who)
    else if v = 0x5253 then .next (s.urgent .moduleReset .none)
    else .next (s.discard who)
  | _ => .next s

/-- FWDOORBELL (R108). -/
def execFwdoorbell (s : State) : Host.Outcome State Fault Refusal :=
  match s.run.input with
  | .writer who => if s.owns who then .next (s.wake 1) else .next (s.dropWrite who)
  | _ => .next s

/-! ## Firefly's commands (R110) -/

/-- The status DIE_DOWN of a Firefly command; its number is DESIGN CHOICE (log entry 146: the rule gives none). -/
def dieDown : Nat := 1

/-- READ64 (R110). While the dies are down every offset of BAR0 answers DIE_DOWN, also a doorbell or an unlisted one: DESIGN CHOICE (log entry 146: the rule names the mirrors and the module control block). -/
def execRead64 (s : State) : Host.Outcome State Fault Refusal :=
  match s.run.input with
  | .offset off =>
    if s.edge.dead then .next (s.reply dieDown [])
    else .next (s.reply 0 (leBytes 8 (if off.toNat % 8 = 0 then s.bar0Read off.toNat else BitVec.allOnes 64).toNat))
  | _ => .next s

/-- WRITE64 (R110); DIE_DOWN as for READ64 (DESIGN CHOICE, log entry 146). A write that ownership or R109 discards completes with status 0 all the same: DESIGN CHOICE (log entry 162: the rule gives a status
for a die that is down only). -/
def execWrite64 (s : State) : Host.Outcome State Fault Refusal :=
  match s.run.input with
  | .offVal off v => if s.edge.dead then .next (s.reply dieDown []) else .next ((s.bar0Write .firefly off.toNat 8 v).reply 0 [])
  | _ => .next s

/-- ATTEST_REQUEST (R123, R125): M0, BOOT_STAT and the nonce, signed; refused (status 2) once the keys are gone. The nonce's 256 bits, the report's layout and the status's number are DESIGN CHOICE (log entry
147: the rule gives none). DESIGN CHOICE (log entry 147), unsafe. -/
def execAttestRequest (s : State) : Host.Outcome State Fault Refusal :=
  match s.run.input with
  | .nonce n =>
    if s.edge.keysGone then .next (s.reply 2 [])
    else
      let m := leBytes 64 s.edge.m0.toNat ++ leBytes 8 s.edge.bootStat.toNat ++ leBytes 32 n.toNat
      .next (s.reply 0 (m ++ Config.reportSignature m))
  | _ => .next s

/-! ## The host link (R111, R112, R126) -/

/-- LINKDOWN (R111). -/
def execLinkdown (s : State) : Host.Outcome State Fault Refusal := .next (s.modEdge ({ · with linkDown := true }))

/-- HOST_LINK_RECOVERY (R112): OWNER stays as it was. DESIGN CHOICE (log entry 112), unsafe. -/
def execHostLinkRecovery (s : State) : Host.Outcome State Fault Refusal := .next (s.modEdge ({ · with linkDown := false }))

/-- A poisoned write to the atoms of `cs` (R126): those of a protected region keep their bytes, the others are written and poisoned. -/
def State.poisonWrite (s : State) (cs : List Host.Cell) : State :=
  let open_ := cs.filter (fun c => (s.grp.imageOff c.1).isNone)
  (s.hbmWriteCells open_).hbmTaint ((open_.map (fun c => c.1 / 32)).eraseDups)

/-- HOST_BAR2_WRITE (R126): the write ignores what lies at 0x88_0000_0000 and above; a poisoned one that meets a protected atom is reported as an uncorrectable internal error. The host's reads, which return all
ones there, and its resizing of BAR2 are inputs of the same event (DESIGN CHOICE, log entry 148). -/
def execHostBar2Write (s : State) : Host.Outcome State Fault Refusal :=
  match s.run.input with
  | .bar2 off data bad =>
    let a := s.edge.bar2Base + off.toNat
    let bs := data.take (s.edge.bar2Take off.toNat data.length)
    if bad then .next ((s.poisonWrite (cellList a bs)).modEdge (fun e => { e with aer := e.aer || (cellList a bs).any (fun c => (s.grp.imageOff c.1).isSome) }))
    else .next (s.hbmWrite a bs)
  | .bar2Read off n =>
    .next (s.hostRead off n)
  | .bar2Size n => if n.toNat ≤ 10 then .next (s.modEdge ({ · with bar2 := n })) else .next s
  | _ => .next s

/-! ## Power limits (R115 to R117) -/

/-- THROTTLE_PERIOD (R116): NOW is the power measured; the temperatures are read too, below the level that THERMLIM reports. -/
def execThrottlePeriod (s : State) : Host.Outcome State Fault Refusal :=
  match s.run.input with
  | .watts w =>
    let cap := s.edge.pwrCap.toNat
    let l := s.edge.level
    let l := if cap < w.toNat then min 8 (l + 1) else if 100 * w.toNat < 95 * cap then l - 1 else l
    let f := s.takeFree
    let g := f.2.takeFree
    .next (g.2.modEdge (fun e =>
      { e with pwrNow := w, level := l, tmax := BitVec.ofNat 8 (min 104 ((Config.counted f.1).toNat % 256)), tinlet := (Config.counted g.1).setWidth 8 }))
  | _ => .next s

/-- An hour of the tile clock (R6): 3,600 s at 600 MHz. -/
def hourCycles : Nat := 2160000000000

/-- The power-on hours that in-field entries record (R450), saturating. -/
def State.hourTick (s : State) : State :=
  if s.run.cycle % hourCycles = hourCycles - 1 && s.edge.hours.toNat < 0xFFFF then s.modEdge (fun e => { e with hours := e.hours + 1 }) else s

/-- The period's end (R116): what is measured is a physical quantity. DESIGN CHOICE (log entry 109), safe. -/
def State.powerTick (s : State) : State :=
  if s.cycleCount % 6000 ≠ 5999 then s
  else
    let f := s.takeFree
    f.2.pushAgenda [⟨.throttlePeriod, .watts ((Config.counted f.1).setWidth 12)⟩]

/-- FASTLIM (R106, R116). -/
def execFastlim (s : State) : Host.Outcome State Fault Refusal := .next (((s.modEdge ({ · with level := 8, fastlim := true })).markPriv 0x841 0x10000).wake 6)

/-- THERMLIM (R106, R116): a junction at 105 °C or above. -/
def execThermlim (s : State) : Host.Outcome State Fault Refusal :=
  match s.run.input with
  | .celsius c =>
    if c.toNat < 105 then .next s
    else .next (((s.modEdge ({ · with level := 8, thermlim := true, tmax := c })).markPriv 0x841 0x20000).wake 6)
  | _ => .next s

/-! ## The security alarm (R124, R125) -/

/-- The sensors of an event that reports some. -/
def sensorsOf (e : Event) : BitVec 4 :=
  match e.what, e.input with
  | .securityAlarm, .sensors m => m
  | _, _ => 0

/-- The sensors that have fired in this cycle: those of the running event and of every alarm on the agenda. -/
def State.fired (s : State) (m : BitVec 4) : BitVec 4 := s.run.agenda.foldl (fun m e => m ||| sensorsOf e) m

/-- SECURITY_ALARM (R125): one log entry and one response for the sensors of a cycle, whose other alarms leave the agenda with this one; on standby only the stored ERASE has something to act on. -/
def execSecurityAlarm (s : State) : Host.Outcome State Fault Refusal :=
  match s.run.input with
  | .sensors own =>
    if own = 0 then .next s
    else
      let m := s.fired own
      let s : State := { s with run := { s.run with agenda := s.run.agenda.filter (fun e => e.what != .securityAlarm) } }
      let s := s.logEntry (16 + m.toNat)
      let s := if s.edge.dead then s else ((s.modEdge (fun e => { e with alarmStat := e.alarmStat ||| m })).markPriv 0x8C1 (m.setWidth 64)).wake 4
      let resp := s.edge.alarmCfg.toNat % 4
      if s.edge.alarmBusy || resp = 0 then .next s
      else
        let s := if resp = 2 then s.modEdge ({ · with keysGone := true }) else s
        .next (if s.edge.dead then s else (s.modEdge ({ · with alarmBusy := true })).urgent .moduleReset .none)
  | _ => .next s

end Sys2Proof.Machine
end

