-- ==== Sys2Proof/Machine/Boot.lean ====
section
/-! DEFINITION. Resets, the main rails and the boot from signed images (R114, R116, R118 to R122). -/

namespace Sys2Proof.Machine

/-! ## What a reset keeps (R99, R118) -/

/-- Events that come from outside the module or from Firefly: a reset of the module does not unmake them. What a rail reports belongs to the rising that it ends. -/
def Event.fromOutside (e : Event) : Bool :=
  match e.what, e.input with
  | .powerOnReset, .rail _ | .railPgoodTimeout, .rail _ => false
  | .bar0MirrorWrite, .bar0 who _ _ _ => who != .firmware
  | .launchDoorbell, .doorbell _ who => who != .firmware
  | .modrst, .write who _ => who != .firmware
  | .fwdoorbell, .writer who => who != .firmware
  | .mgmtOwnerWrite, .write who _ => who != .firmware
  | .read64, _ | .write64, _ | .linkdown, _ | .hostLinkRecovery, _ | .powerOnReset, _ | .powerLoss, _ | .railPgoodTimeout, _ | .moduleReset, _
  | .fireflyReset, _ | .attestRequest, _ | .fastlim, _ | .thermlim, _ | .thermalCut, _ | .securityAlarm, _ | .hostBar2Write, _ | .fireflyMailbox, _
  | .fqresp, _ | .pageRequestResponse, _ | .flitReceive, _ | .linkDown, _ | .fabricLinkUp, _ | .ffReadHallmark, _ | .ffReadInfield, _ | .ffReadHealth, _ => true
  | _, _ => false

/-- A tile after a reset: its fuses and its silicon are what they were, and its shape is rebuilt (R289). -/
def State.resetTile (s : State) (t : Fin 130) : Tile :=
  let x := s.tiles[t]
  { (if isService t then Tile.resetSvc else Tile.reset) with
    hallmark := x.hallmark, defects := x.defects, geom := if isService t then Geom.none else s.resetGeom t }

def State.resetTiles (s : State) : Vector Tile 130 := Vector.ofFn s.resetTile

/-- A tile whose hallmark map is not used raises a health event (R448). -/
def State.badMaps (s : State) : State :=
  (List.range 128).foldl (fun (s : State) t => if (hallmarkEntries (s.tileAt t).hallmark).isNone then s.logEntry 5 [t] else s) s

/-- The run after a reset: the boot ROM is next; CYCLE.COUNT counts from here. DESIGN CHOICE (log entry 105), unsafe. -/
def Run.again (r : Run) (boot : Bool) : Run :=
  { Run.reset with
    cycle := r.cycle, cycle0 := r.cycle, free := r.free,
    agenda := (if boot then [⟨.bootRom, .none⟩] else []) ++ r.agenda.filter Event.fromOutside }

/-- What fuses, MRAM and Firefly's own supply hold of the edges through every reset. -/
def Edge.fused (e : Edge) : Edge :=
  { Edge.reset with
    keysGone := e.keysGone, minSvn := e.minSvn, pubHash := e.pubHash, logHead := e.logHead, hours := e.hours, revision := e.revision }

/-- VMARG's LIMIT and NOMINAL, which hardware fixes, with every OFFSET 0 and SETTLED at its reset value, 1 (R9, R455, R456): the ramp back ends within the reset. -/
def Margin.again (m : Margin) (locked : Bool) : Margin :=
  { Margin.reset with vmarg := m.vmarg.map (fun v => wofNat (wbits v 8 8 * 2 ^ 8 + 2 ^ 16 + wbits v 32 16 * 2 ^ 32)), vmctl := if locked then 2 else 0 }

/-- A parked signal of another module is answered TARGET_RESET (R99). The answers leave by the routes that stood before the reset. -/
def State.parkedReset (s : State) : State :=
  (List.range 8).foldl (fun (s : State) c =>
    (s.clusterAt c).parked.foldl (fun (s : State) p => match p.2.2 with | some _ => s.parkedFate p 2 | none => s) s) s

/-- The answers to parked signals, each with the port it leaves by. -/
def State.resetAnswers (s : State) : List (Nat × OutFlit) := (s.parkedReset.fab.out.drop s.fab.out.length).filterMap (fun f => (s.routeOf f).map (fun p => (p, f)))

/-- A module reset (R99, R118). HBM, MRAM, MGMT_OWNER, PWR_CAP, ALARM_CFG and VMCTL.LOCK are kept, and the PCIe configuration space after a Function Level Reset; so are M0, which can only be extended,
and what belongs to Firefly and to the host. DEDUCED (log entry 104), unsafe. DEDUCED (log entry 106), unsafe. -/
def State.moduleReset (s : State) (flr : Bool) : State :=
  let e := s.edge
  ({ State.reset with
     tiles := s.resetTiles,
     edge := { e.fused with owner := e.owner, linkDown := e.linkDown, seized := e.seized, drops := e.drops, pwrCap := e.pwrCap, alarmCfg := e.alarmCfg, m0 := e.m0,
                            ffStatus := e.ffStatus, ffReply := e.ffReply, hostData := e.hostData, aer := flr && e.aer, bar2 := if flr then e.bar2 else Edge.reset.bar2 },
     margin := s.margin.again s.margin.vmctl[1],
     fab := { Fabric.reset with sent := s.resetAnswers },
     mems := { Mems.reset with hbm := s.mems.hbm, host := s.mems.host, hostGone := s.mems.hostGone, mram := s.mems.mram },
     run := s.run.again true } : State).badMaps

/-! ## The rails (R114) -/

/-- The rails of a step: 1 STBY, 2 SOC, 3 SRAM, 4 HBM, 5 CL. -/
def stepRails (k : Nat) : List Nat :=
  match k with
  | 1 => [0] | 2 => [1, 2] | 3 => [3, 4] | 4 => List.range' 5 12 | 5 => List.range' 17 8 | _ => []

/-- The step that a rail belongs to. -/
def railStep (r : Nat) : Nat := if r = 0 then 1 else if r ≤ 2 then 2 else if r ≤ 4 then 3 else if r ≤ 16 then 4 else 5

/-- The rails of a step as a mask. -/
def stepMask (k : Nat) : BitVec 25 := BitVec.ofNat 25 ((stepRails k).foldl (fun m r => m + 2 ^ r) 0)

/-- The rails of a step fall: none of them stands or rises. -/
def State.railsFall (s : State) (k : Nat) : State :=
  s.modEdge (fun e => { e with dead := true, rails := e.rails &&& ~~~stepMask k, rising := e.rising.filter (fun r => railStep r.toNat != k) })

/-- The CL rails fall: the tiles' logic goes, and what the SRAM rails retain stays. -/
def State.fallCl (s : State) : State :=
  ({ s with tiles := Vector.ofFn (fun t => { s.resetTile t with spad := s.tiles[t].spad, regs := s.tiles[t].regs, bst := s.tiles[t].bst, tags := s.tiles[t].tags }) } : State).railsFall 5

/-- The HBM rails fall: the stacks lose their bytes. -/
def State.fallHbm (s : State) : State := ({ s with mems := { s.mems with hbm := PMem.empty } } : State).railsFall 4

/-- The SRAM rails fall: scratchpads, register space, B strata and barrier tags go. -/
def State.fallSram (s : State) : State := ({ s with tiles := s.resetTiles } : State).railsFall 3

/-- The SOC rails fall: everything else of the dies goes, and the fuses, the MRAM and what Firefly holds on standby stay. -/
def State.fallSoc (s : State) : State :=
  ({ State.reset with
     tiles := s.tiles,
     edge := { s.edge.fused with rails := s.edge.rails, rising := s.edge.rising, alarmCfg := s.edge.alarmCfg, ffStatus := s.edge.ffStatus, ffReply := s.edge.ffReply },
     margin := s.margin.again false,
     mems := { Mems.reset with hbm := s.mems.hbm, host := s.mems.host, hostGone := s.mems.hostGone, mram := s.mems.mram },
     run := s.run.again false } : State).railsFall 2

/-- STBY falls with the 48 V input: Firefly's own state goes, ALARM_CFG with it. -/
def State.fallStby (s : State) : State := (s.modEdge ({ · with alarmCfg := 1, ffStatus := 0, ffReply := [] })).railsFall 1

/-- The main rails fall in the reverse of the order in which they rise, and without 48 V STBY after them (R114, R118). Nothing runs between two of these falls, so that they are one step: DEDUCED (log entry
163). DEDUCED (log entry 114), unsafe. -/
def State.powerOff (s : State) (standby : Bool) : State :=
  let s := s.fallCl.fallHbm.fallSram.fallSoc
  if standby then s else s.fallStby

/-- The rails of a step are enabled together (DEDUCED, log entry 163). Whether each reports power-good within 10 ms is a physical fact, a free value: POWER_ON_RESET takes the report, RAIL_PGOOD_TIMEOUT its absence. -/
def State.raiseStep (s : State) (k : Nat) : State :=
  (stepRails k).foldl (fun (s : State) r =>
    let f := s.takeFree
    let s := f.2.modEdge (fun e => { e with rising := e.rising ++ [BitVec.ofNat 5 r] })
    s.pushAgenda [⟨if Config.railGood (8 + r) f.1 then .powerOnReset else .railPgoodTimeout, .rail (BitVec.ofNat 5 r)⟩]) s

/-! ## The events -/

/-- MODULE_RESET (R118): boot follows. -/
def execModuleReset (s : State) : Host.Outcome State Fault Refusal := .next (s.moduleReset (s.run.input == .flr))

/-- POWER_ON_RESET (R114, R118): with 48 V applied, STBY is up and the SOC rails are enabled; once every rail of a step has reported power-good the rails of the next step are enabled, and after the last one boot follows. -/
def execPowerOnReset (s : State) : Host.Outcome State Fault Refusal :=
  match s.run.input with
  | .rail r =>
    if !s.edge.rising.contains r then .next s
    else
      let s := s.modEdge (fun e => { e with rising := e.rising.erase r, rails := e.rails ||| BitVec.ofNat 25 (2 ^ r.toNat) })
      if !s.edge.rising.isEmpty then .next s
      else if railStep r.toNat < 5 then .next (s.raiseStep (railStep r.toNat + 1))
      else .next (({ s with edge := { s.edge with dead := false }, run := { s.run with agenda := ⟨.bootRom, .none⟩ :: s.run.agenda } } : State).badMaps)
  | _ => .next (((s.powerOff false).modEdge ({ · with rails := 1 })).raiseStep 2)

/-- POWER_LOSS (R114): every rail falls. DESIGN CHOICE (log entry 113), unsafe. -/
def execPowerLoss (s : State) : Host.Outcome State Fault Refusal := .next (s.powerOff false)

/-- RAIL_PGOOD_TIMEOUT (R114): a rail that is rising has not reported power-good; Firefly cuts the main rails and logs the rail. -/
def execRailPgoodTimeout (s : State) : Host.Outcome State Fault Refusal :=
  match s.run.input with
  | .rail r => if s.edge.rising.contains r then .next ((s.logEntry (32 + r.toNat)).powerOff true) else .next s
  | _ => .next s

/-- THERMAL_CUT (R116): at 115 °C Firefly cuts the main rails and logs the cause. -/
def execThermalCut (s : State) : Host.Outcome State Fault Refusal :=
  match s.run.input with
  | .celsius c => if c.toNat < 115 then .next s else .next ((s.logEntry 2).powerOff true)
  | _ => .next s

/-- FIREFLY_RESET (R118): Firefly's own state and its sessions clear; the compute dies keep running. -/
def execFireflyReset (s : State) : Host.Outcome State Fault Refusal := .next (s.modEdge ({ · with ffStatus := 0, ffReply := [] }))

/-! ## Boot (R119 to R123) -/

/-- A firmware slot of MRAM: header, signature and payload area. -/
def slotBase (b : Bool) : Nat := if b then 0x500000 else 0x100000

/-- A slot as the boot ROM reads it. -/
structure Image where
  header  : List Byte
  payload : List Byte
  svn     : Nat
  version : Nat
  load    : Nat
  entry   : Nat
  reason  : Nat
  deriving Repr

/-- The length fits (R121). -/
def lengthFits (len load entry : Nat) : Bool :=
  len ≤ 0x400000 - 0x4000 && load + len ≤ 0x300000 && load ≤ entry && entry < load + len

/-- The signature of a header is checked against the public key whose SHAKE256 hash is fused: a key with another hash verifies nothing (R121). -/
def State.signed (s : State) (sig h : List Byte) : Bool :=
  let key := Config.bootKey s.edge.pubHash
  shake256 key == s.edge.pubHash && slhVerify key sig h

/-- The checks of a slot in the order of AREASON's codes (R121, R122). DEDUCED (log entry 107), unsafe. -/
def State.readSlot (s : State) (b : Bool) : Image :=
  let h := s.mems.mram.read (slotBase b) 128
  let len := leAt h 16 4
  let load := leAt h 20 4
  let entry := leAt h 24 4
  let payload := s.mems.mram.read (slotBase b + 0x4000) (min len (0x400000 - 0x4000))
  let reason :=
    if leAt h 0 4 ≠ 0x49574643 || leAt h 4 2 ≠ 1 then 1
    else if leAt h 6 2 ≠ 0 || leAt h 28 36 ≠ 0 then 2
    else if !lengthFits len load entry then 3
    else if leAt h 8 4 < s.edge.minSvn.toNat then 4
    else if BitVec.ofNat 512 (leAt h 64 64) ≠ shake256 payload then 5
    else if !s.signed (s.mems.mram.read (slotBase b + 128) 16224) h then 6
    else 0
  ⟨h, payload, leAt h 8 4, leAt h 12 4, load, entry, reason⟩

/-- Slot B is chosen: of the valid slots the higher SVN, then the higher version, then slot A. -/
def chooseB (a b : Image) : Bool :=
  b.reason = 0 && (a.reason ≠ 0 || a.svn < b.svn || (a.svn = b.svn && a.version < b.version))

/-- BOOT_STAT as the boot ROM loads it. With FAIL set no image is booted, and SLOT, SVN and VERSION are 0: DESIGN CHOICE (log entry 149: R122 says nothing of them there).
DEDUCED (log entry 108), unsafe. -/
def bootWord (a b : Image) (keysGone : Bool) : Word :=
  let fail := keysGone || (a.reason ≠ 0 && b.reason ≠ 0)
  let useB := chooseB a b
  let x := if useB then b else a
  wofNat ((if fail then 4 else natOfBool useB * 2 + x.svn % 256 * 2 ^ 8 + x.version % 2 ^ 16 * 2 ^ 16) + natOfBool keysGone * 8 +
    a.reason * 2 ^ 32 + b.reason * 2 ^ 36)

/-- The payload in a service tile's scratchpad, and thread 0 at the entry. -/
def State.startFirmware (s : State) (t : Nat) (x : Image) : State :=
  (s.updTile t (fun y => { y with spad := y.spad.write x.load x.payload, halted := false })).updThread t 0 (fun th =>
    { th with flow := { Flow.reset with status := .running, pc := wofNat (0x20000000000 + x.entry) } })

/-- BOOT (R121): no valid slot, or no keys, leaves the service tiles halted. -/
def execBootRom (s : State) : Host.Outcome State Fault Refusal :=
  let a := s.readSlot false
  let b := s.readSlot true
  let w := bootWord a b s.edge.keysGone
  let s := s.modEdge ({ · with bootStat := w })
  if wbit w 2 then .next (((s.updTile 128 ({ · with halted := true })).updTile 129 ({ · with halted := true })).logEntry (64 + a.reason + 8 * b.reason))
  else
    let x := if chooseB a b then b else a
    let m := shake256 (x.header ++ x.payload)
    .next (((s.startFirmware 128 x).startFirmware 129 x).modEdge (fun e => { e with svn := BitVec.ofNat 32 x.svn, m0 := shake256 (leBytes 64 e.m0.toNat ++ leBytes 64 m.toNat) }))

end Sys2Proof.Machine
end

