-- ==== Sys2Proof/Machine/Pred.lean ====
section
/-! DEFINITION. Predicate instructions (R192 to R197). -/

namespace Sys2Proof.Machine

/-- The functions of PLOGIC (R193). -/
def plogicFn (f : BitVec 3) (a b : PredVal) : PredVal :=
  match f.toNat with
  | 0 => a &&& b
  | 1 => a ||| b
  | 2 => a ^^^ b
  | 3 => a &&& ~~~b
  | 4 => a ||| ~~~b
  | 5 => ~~~(a &&& b)
  | 6 => ~~~(a ||| b)
  | _ => ~~~(a ^^^ b)

/-- PLOGIC (R193). -/
def execPlogic (k : BitVec 4) (f : BitVec 3) (d a b : BitVec 4) (s : State) : Host.Outcome State Fault Refusal :=
  finish s (withVec k [] none 0 (fun s _ => s.setPred d (plogicFn f (s.pred a) (s.pred b))))

/-- A run of elements from `lo` up to, not including, `hi` (R194). -/
def runPred (y : BitVec 3) (lo hi : Nat) : PredVal :=
  predOf (anyBits y) ((List.range (4096 / anyBits y)).map (fun i => decide (lo ≤ i ∧ i < hi)))

/-- PSET.firsti (R194). -/
def execPsetFirsti (k : BitVec 4) (y : BitVec 3) (d : BitVec 4) (i : BitVec 8) (s : State) : Host.Outcome State Fault Refusal :=
  finish s (withVec k [] none 0 (fun s _ => s.setPred d (runPred y 0 i.toNat)))

/-- PSET.first (R194). -/
def execPsetFirst (k : BitVec 4) (y : BitVec 3) (d a : BitVec 4) (s : State) : Host.Outcome State Fault Refusal :=
  finish s (withVec k [] none 0 (fun s _ => s.setPred d (runPred y 0 (s.wreg a).toNat)))

/-- PSET.range (R194). -/
def execPsetRange (k : BitVec 4) (y : BitVec 3) (d a c : BitVec 4) (s : State) : Host.Outcome State Fault Refusal :=
  finish s (withVec k [] none 0 (fun s _ => s.setPred d (runPred y (s.wreg a).toNat (s.wreg c).toNat)))

/-- The elements active in pa and in the selector (R195). -/
def State.common (s : State) (y : BitVec 3) (a p : BitVec 4) : List Nat :=
  (List.range (4096 / anyBits y)).filter (fun i => elemActive (s.pred a) (anyBits y) i && elemActive (s.pred p) (anyBits y) i)

/-- A W-engine register written. -/
def State.setWreg (s : State) (d : BitVec 4) (v : Nat) : State :=
  s.modThr (fun t => { t with regs := t.regs.setEngReg .w (d.setWidth 3) (wofNat v) })

/-- PCNT (R195). -/
def execPcnt (k : BitVec 4) (y : BitVec 3) (d a p : BitVec 4) (s : State) : Host.Outcome State Fault Refusal :=
  finish s (withVec k [] none 0 (fun s _ => s.setWreg d (s.common y a p).length))

/-- PFIRST (R195). -/
def execPfirst (k : BitVec 4) (y : BitVec 3) (d a p : BitVec 4) (s : State) : Host.Outcome State Fault Refusal :=
  finish s (withVec k [] none 0 (fun s _ => s.setWreg d ((s.common y a p).headD (4096 / anyBits y))))

/-- PFIRST.last (R195). -/
def execPfirstLast (k : BitVec 4) (y : BitVec 3) (d a p : BitVec 4) (s : State) : Host.Outcome State Fault Refusal :=
  finish s (withVec k [] none 0 (fun s _ => s.setWreg d ((s.common y a p).getLastD (4096 / anyBits y))))

/-- VMOVW.ptov: b8 only (R196). -/
def execVmovwPtov (k : BitVec 4) (y : BitVec 3) (d a b : BitVec 4) (s : State) : Host.Outcome State Fault Refusal :=
  finish s (fun s =>
    if y ≠ 0 then wrongType k [] (some d) 1 s
    else withVec k [] (some d) 1 (fun s _ =>
      let lo := 512 * (b.toNat % 8)
      let old := (s.oldVec d).toNat
      s.putVec d (BitVec.ofNat 4096 (old % 2 ^ lo + (s.pred a).toNat * 2 ^ lo + old / 2 ^ (lo + 512) * 2 ^ (lo + 512))) (BitVec.allOnes 512)) s)

/-- VMOVW.vtop: b8 only (R196). -/
def execVmovwVtop (k : BitVec 4) (y : BitVec 3) (d a b : BitVec 4) (s : State) : Host.Outcome State Fault Refusal :=
  finish s (fun s =>
    if y ≠ 0 then wrongType k [a] none 0 s
    else withVec k [a] none 0 (fun s vs => s.setPred d (BitVec.ofNat 512 (vopd vs 0 / 2 ^ (512 * (b.toNat % 8))))) s)

/-- VMOVW.vtow: integer types (R196). -/
def execVmovwVtow (k : BitVec 4) (y : BitVec 3) (d a : BitVec 4) (s : State) : Host.Outcome State Fault Refusal :=
  finish s (fun s => match intBits y with
    | none => wrongType k [a] none 0 s
    | some w => withVec k [a] none 0 (fun s vs => (s.warnIf (y = 7) 3).setWreg d (vget (vopd vs 0) w 0)) s)

end Sys2Proof.Machine
end

