-- ==== Sys2Proof/Machine/ScalarMem.lean ====
section
/-! DEFINITION. Scalar loads and stores and the C stream's queue transfers (R76 to R82). -/

namespace Sys2Proof.Machine

/-- LDB (R76). -/
def execLdb (d a : BitVec 5) (i : BitVec 15) (s : State) : Host.Outcome State Fault Refusal := finish s (scalarLoad 1 (fun v => wofInt (sextInt v 8)) d a i)

/-- LDBZ (R76). -/
def execLdbz (d a : BitVec 5) (i : BitVec 15) (s : State) : Host.Outcome State Fault Refusal := finish s (scalarLoad 1 wofNat d a i)

/-- LDH (R76). -/
def execLdh (d a : BitVec 5) (i : BitVec 15) (s : State) : Host.Outcome State Fault Refusal := finish s (scalarLoad 2 (fun v => wofInt (sextInt v 16)) d a i)

/-- LDHZ (R76). -/
def execLdhz (d a : BitVec 5) (i : BitVec 15) (s : State) : Host.Outcome State Fault Refusal := finish s (scalarLoad 2 wofNat d a i)

/-- LDW (R76). -/
def execLdw (d a : BitVec 5) (i : BitVec 15) (s : State) : Host.Outcome State Fault Refusal := finish s (scalarLoad 4 (fun v => wofInt (sextInt v 32)) d a i)

/-- LDWZ (R76). -/
def execLdwz (d a : BitVec 5) (i : BitVec 15) (s : State) : Host.Outcome State Fault Refusal := finish s (scalarLoad 4 wofNat d a i)

/-- LDD (R76). -/
def execLdd (d a : BitVec 5) (i : BitVec 15) (s : State) : Host.Outcome State Fault Refusal := finish s (scalarLoad 8 wofNat d a i)

/-- STB (R76). -/
def execStb (a b : BitVec 5) (o : BitVec 15) (s : State) : Host.Outcome State Fault Refusal := finish s (scalarStore 1 a b o)

/-- STH (R76). -/
def execSth (a b : BitVec 5) (o : BitVec 15) (s : State) : Host.Outcome State Fault Refusal := finish s (scalarStore 2 a b o)

/-- STW (R76). -/
def execStw (a b : BitVec 5) (o : BitVec 15) (s : State) : Host.Outcome State Fault Refusal := finish s (scalarStore 4 a b o)

/-- STD (R76). -/
def execStd (a b : BitVec 5) (o : BitVec 15) (s : State) : Host.Outcome State Fault Refusal := finish s (scalarStore 8 a b o)

/-- QPUSH holds while qcl holds 32 entries (R81, R261). DEDUCED (log entry 35), unsafe. -/
def execQpush (a : BitVec 5) (s : State) : Host.Outcome State Fault Refusal :=
  finish s (fun s => cOnly s (fun s =>
    if 32 ≤ s.thr.qs.qcl.length then .error .hold else .ok (s.modQs (fun q => { q with qcl := q.qcl ++ [s.X a] }))))

/-- QPOP holds while qlc is empty (R81). -/
def execQpop (d : BitVec 5) (s : State) : Host.Outcome State Fault Refusal :=
  finish s (fun s => cOnly s (fun s =>
    match s.thr.qs.qlc with
    | [] => .error .hold
    | v :: r => .ok ((s.modQs (fun q => { q with qlc := r })).W d v)))

end Sys2Proof.Machine
end

