-- ==== Sys2Proof/Machine/Shuf.lean ====
section
/-! DEFINITION. The shuffle engine (R240 to R243). -/

namespace Sys2Proof.Machine

/-- SHUF hands a program to the tile's shuffle engine; with eight of the thread's programs unfinished it is held (R240). DEDUCED (log entry 171), unsafe. -/
def execShuf (a b c : BitVec 5) (s : State) : Host.Outcome State Fault Refusal :=
  finish s (fun s => cOnly s (fun s => do
    let B := s.X b
    barAligned B 0 false
    let off ← s.localRange (s.X a) 32 { own := true }
    if off % 16 ≠ 0 then .error (accessViol 0 (s.X a))
    let bar ← s.barOperand B
    if 8 ≤ s.thr.progs.length then .error .hold
    else
      let s := if bar = noBar then s else s.modTile (·.barUpdate (barOff bar) 0 1 0 0)
      let p : ShufProg := ⟨s.thr.nextCmd, s.ownOff off, bar, s.X c, 0, 0, false⟩
      return s.modThr (fun x => { x with progs := x.progs ++ [p], nextCmd := x.nextCmd + 1 })))

/-! ## A step (R241, R242) -/

/-- The fields of a step, SRC and DST offset by the program's parameter. -/
structure ShufStep where
  op     : Nat
  fmt    : Nat
  mode   : Nat
  src    : Nat
  dst    : Nat
  rows   : Nat
  cols   : Nat
  spitch : Nat
  dpitch : Nat
  idx    : Nat
  zero   : Nat
  deriving DecidableEq, Repr

def ShufStep.ofBytes (b : List Byte) (par : Word) : ShufStep :=
  { op := leAt b 0 1, fmt := leAt b 1 1, mode := leAt b 2 1, zero := leAt b 3 1, src := (leAt b 4 4 + wbits par 0 32) % 2 ^ 32,
    dst := (leAt b 8 4 + wbits par 32 32) % 2 ^ 32, rows := leAt b 12 4, cols := leAt b 16 4, spitch := leAt b 20 4, dpitch := leAt b 24 4, idx := leAt b 28 4 }

/-- Bits of a source and of a destination element. -/
def ShufStep.srcBits (x : ShufStep) : Nat := if x.op = 3 then (CFmt.ofCode (x.fmt % 16)).bits else 8 * 2 ^ x.fmt
def ShufStep.dstBits (x : ShufStep) : Nat := if x.op = 3 then (CFmt.ofCode (x.fmt / 16)).bits else 8 * 2 ^ x.fmt

/-- No bad OP, reserved field or format (R241, R243). DEDUCED (log entry 47), unsafe. -/
def ShufStep.legal (x : ShufStep) : Bool :=
  x.op ≤ 3 && x.zero = 0 && (x.op = 2 || x.idx = 0) && (x.op = 3 || x.mode = 0) &&
    (match x.op with
     | 0 => true
     | 3 => x.fmt % 16 != 15 && x.fmt / 16 != 15 && x.mode < 8
     | _ => x.fmt ≤ 3)

/-- Bytes that hold `n` elements of `bits` bits. -/
def elemBytes (n bits : Nat) : Nat := (n * bits + 7) / 8

/-- A permitted range that holds `n` bytes from a local offset: a memory of the tile, its first byte in it (R242). -/
def State.shufRange (s : State) (t h off n : Nat) : Option (Bool × Nat) :=
  if !s.inRanges t h off n { window := true, own := true } then none
  else match s.localPlace t h off (max n 1) with
    | some (.spad _ o) => some (true, o)
    | some (.regs _ o) => some (false, o)
    | _ => none

def Tile.shufMem (x : Tile) (pad : Bool) : PMem := if pad then x.spad else x.regs
def Tile.setShufMem (x : Tile) (pad : Bool) (m : PMem) : Tile := if pad then { x with spad := m } else { x with regs := m }

/-- The bytes of a range, and the poisoned units of its memory. -/
structure Span where
  base : Nat
  data : Array Byte
  bad  : List Nat

def Tile.span (x : Tile) (pad : Bool) (o n : Nat) : Span := ⟨o, ((x.shufMem pad).mem.read o n).toArray, (x.shufMem pad).poison⟩

/-- An element of `bits` bits at bit position `pos` of a span, and whether a byte of it is poisoned. -/
def Span.elem (x : Span) (pos bits : Nat) : Nat × Bool :=
  let first := pos / 8
  let n := (pos % 8 + bits + 7) / 8
  let v := leNat ((List.range n).map (fun i => x.data.getD (first + i) 0))
  (v / 2 ^ (pos % 8) % 2 ^ bits, (List.range n).any (fun i => x.bad.contains ((x.base + first + i) / 32)))

/-- An element to write: its bit position in the destination span, its value, whether it is poisoned. -/
structure Out where
  pos  : Nat
  v    : Nat
  bad  : Bool

/-- The cells of written elements, in order; an element of four bits keeps the other half of its byte as the span or an earlier element left it. -/
def outCells (base bits : Nat) (old : Nat → Byte) (l : List Out) : List (Nat × PByte) :=
  if bits < 8 then
    (l.foldl (fun (acc : List (Nat × PByte)) o =>
      let i := o.pos / 8
      let was := match acc.find? (fun c => c.1 == base + i) with | some c => c.2 | none => (old i, false)
      let v := if o.pos % 8 = 0 then was.1.toNat / 16 * 16 + o.v % 16 else was.1.toNat % 16 + o.v % 16 * 16
      (base + i, (BitVec.ofNat 8 v, o.bad || was.2)) :: acc) []).reverse
  else (l.map (fun o => placeBytes (base + o.pos / 8) ((leBytes (bits / 8) o.v).map (fun b => (b, o.bad))))).flatten

/-- The length in bytes from the first byte of an array of `r` rows of `n` bytes. -/
def shufSpan (r pitch n : Nat) : Nat := if r = 0 || n = 0 then 0 else (r - 1) * pitch + n

/-- The elements of a step, every source byte read first, with the flags that CONVERT raises. -/
def ShufStep.outs (x : ShufStep) (src : Span) (idx : Option Span) : List Out × Flags :=
  let sb := x.srcBits
  let db := x.dstBits
  let one := fun (r c : Nat) =>
    let ix := match idx with | some i => i.elem (16 * c) 16 | none => (c, false)
    let e := src.elem (8 * (r * x.spitch) + ix.1 * sb) sb
    let pos := if x.op = 1 then 8 * (c * x.dpitch) + r * db else 8 * (r * x.dpitch) + c * db
    if x.op = 3 then
      let v := convert (CFmt.ofCode (x.fmt / 16)) (CFmt.ofCode (x.fmt % 16)) (x.mode / 4 % 2 == 1) (RM.ofCode (x.mode % 4)) 0 e.1
      ((⟨pos, v.1, e.2⟩ : Out), v.2)
    else (⟨pos, e.1, e.2 || ix.2⟩, 0)
  let l := ((List.range x.rows).map (fun r => (List.range x.cols).map (one r))).flatten
  (l.map (·.1), l.foldl (fun f e => f ||| e.2) 0)

/-- Bytes of SRC that a step may reach: for PERMUTE the largest index counts. -/
def ShufStep.srcLen (x : ShufStep) (idx : Option Span) : Nat :=
  match idx with
  | some i => shufSpan x.rows x.spitch (elemBytes ((List.range x.cols).foldl (fun m c => max m ((i.elem (16 * c) 16).1 + 1)) 0) x.srcBits)
  | none => shufSpan x.rows x.spitch (elemBytes x.cols x.srcBits)

def ShufStep.dstLen (x : ShufStep) : Nat :=
  if x.op = 1 then shufSpan x.cols x.dpitch (elemBytes x.rows x.dstBits) else shufSpan x.rows x.dpitch (elemBytes x.cols x.dstBits)

/-- A step of a program of thread (t, h) other than END: the state and the flags, or none when the step is bad (R243). DESIGN CHOICE (log entry 15), unsafe. -/
def State.shufRun (s : State) (t h : Nat) (x : ShufStep) : Option (State × Flags) :=
  if x.rows = 0 || x.cols = 0 then some (s, 0)
  else do
    let idx ← (if x.op = 2 then (s.shufRange t h x.idx (2 * x.cols)).map (fun p => some ((s.tileAt t).span p.1 p.2 (2 * x.cols))) else some none)
    let sp ← s.shufRange t h x.src (x.srcLen idx)
    let dp ← s.shufRange t h x.dst x.dstLen
    let r := x.outs ((s.tileAt t).span sp.1 sp.2 (x.srcLen idx)) idx
    let old := ((s.tileAt t).span dp.1 dp.2 x.dstLen).data
    let cs := outCells dp.2 x.dstBits (fun i => old.getD i 0) r.1
    if dp.1 && cs.any (fun c => (s.tileAt t).live c.1) then none
    else some (s.updTile t (fun y => y.setShufMem dp.1 ((y.shufMem dp.1).carry cs)), r.2)

/-! ## Programs -/

/-- A program ends: its flags reach FLAGS and its sector lands; stopped at a bad step, it sets sticky-error and records SHUF (R243). -/
def State.shufEnd (s : State) (t h : Nat) (p : ShufProg) (bad : Bool) : State :=
  let s := (s.updThread t h (fun x => { x with progs := x.progs.filter (·.id != p.id) })).orFlagsAt t h p.flags
  let a := wofNat (p.addr + 32 * p.step)
  let s := if bad then (s.cpErr t h 6 a).stickyBar p.bar else s
  s.landBar t h p.bar 1 a

/-- SHUF_STEP (R242): the next step of the acting thread's first program. -/
def State.shufStep (s : State) (t h : Nat) (p : ShufProg) : State :=
  let a := p.addr + 32 * p.step
  if 64 ≤ p.step || 0x300000 < a + 32 then s.shufEnd t h p true
  else
    let x := ShufStep.ofBytes ((s.tileAt t).spad.mem.read a 32) p.par
    if !x.legal then s.shufEnd t h p true
    else if x.op = 0 then s.shufEnd t h p false
    else match s.shufRun t h x with
      | none => s.shufEnd t h p true
      | some (s, f) =>
        s.updThread t h (fun y => { y with progs := y.progs.map (fun q => if q.id == p.id then { q with step := q.step + 1, flags := q.flags ||| f } else q) })

def execShufStep (s : State) : Host.Outcome State Fault Refusal :=
  match s.thr.progs with
  | p :: _ => if p.stop || s.ctxHalted s.ct then .next s else .next (s.shufStep s.ct s.ch p)
  | [] => .next s

end Sys2Proof.Machine
end

