-- ==== Sys2Proof/Machine/System.lean ====
section
/-! DEFINITION. The CSR and SYS instructions (R83 to R85, R87, R252, R362). -/

namespace Sys2Proof.Machine

/-! ## CSR access -/

/-- The drain-ordered CSRs (R85). -/
def drainOrdered (n : Nat) : Bool := n ≤ 3 || (0x100 ≤ n && n ≤ 0x1FF) || (0x300 ≤ n && n ≤ 0x33F) || (0x400 ≤ n && n ≤ 0x4FF)

/-- A CSR instruction (R83, R84): `wr` names the writing form and X(a), none for a read. An unassigned or privileged number, and a write to the identity
range, raise the illegal-instruction trap. -/
def csrBody (d : BitVec 5) (n : Nat) (wr : Option (CsrOp × Word)) (s : State) : Res :=
  cOnly s (fun s =>
    match s.csrRead s.ct s.ch n with
    | none => .error illegal
    | some o =>
      if wr.isSome && 0xC00 ≤ n then .error illegal
      else
        let act := fun (s : State) => (.ok ((match wr with | some (op, x) => s.csrWrite op n o x | none => s).W d o) : Res)
        if drainOrdered n then waitEngines s act else act s)

/-- CSRR (R83). -/
def execCsrr (d : BitVec 5) (c : BitVec 12) (s : State) : Host.Outcome State Fault Refusal := finish s (csrBody d c.toNat none)

/-- CSRW always counts as a write (R84). -/
def execCsrw (d a : BitVec 5) (c : BitVec 12) (s : State) : Host.Outcome State Fault Refusal :=
  finish s (fun s => csrBody d c.toNat (some (.write, s.X a)) s)

/-- CSRS with a = s0 is a read (R84). -/
def execCsrs (d a : BitVec 5) (c : BitVec 12) (s : State) : Host.Outcome State Fault Refusal :=
  finish s (fun s => csrBody d c.toNat (if a = 0 then none else some (.set, s.X a)) s)

/-- CSRC with a = s0 is a read (R84). -/
def execCsrc (d a : BitVec 5) (c : BitVec 12) (s : State) : Host.Outcome State Fault Refusal :=
  finish s (fun s => csrBody d c.toNat (if a = 0 then none else some (.clear, s.X a)) s)

/-! ## SYS -/

/-- TRAP raises the user trap with its code (R87, R359). -/
def execUserTrap (c : BitVec 15) (s : State) : Host.Outcome State Fault Refusal :=
  finish s (fun s => cOnly s (fun _ => .error (.trap { cause := 12, info := c.toNat })))

/-- BREAK raises the breakpoint trap with its code (R87, R359). -/
def execBreakpt (c : BitVec 15) (s : State) : Host.Outcome State Fault Refusal :=
  finish s (fun s => cOnly s (fun _ => .error (.trap { cause := 11, info := c.toNat })))

/-- TRET outside a handler raises the illegal-instruction trap (R87, R362). -/
def execTret (s : State) : Host.Outcome State Fault Refusal :=
  finish s (fun s => cOnly s (fun s => if s.active then .ok ((s.modThr (·.leave s.isFw)).setRes .jumped) else .error illegal))

/-- The return from a user-level interrupt (R87, R252, R462). -/
def Thread.uiLeave (t : Thread) : Thread :=
  { t with regs := t.regs.swapUi, csr := { t.csr with uimask := wclr t.csr.uimask 8, uiCtl := false },
           flow := { t.flow with pc := t.csr.uiepc, ctl := t.csr.uiCtl, inWfi := false, held := t.flow.stack.headD .no, stack := t.flow.stack.drop 1 } }

/-- UIRET outside a handler raises the illegal-instruction trap (R87). -/
def execUiret (s : State) : Host.Outcome State Fault Refusal :=
  finish s (fun s => cOnly s (fun s => if wbit s.thr.csr.uimask 8 then .ok ((s.modThr Thread.uiLeave).setRes .jumped) else .error illegal))

/-- A user-level interrupt of thread (t, h) is pending (R252). -/
def Thread.uiPending (x : Thread) : Bool :=
  ((wbit x.csr.uimask 0 && wbits x.csr.uicause 0 16 != 0) || (wbit x.csr.uimask 1 && wbit x.csr.uicause 16)) &&
    !wbit x.csr.uimask 8 && x.csr.uivec != 0

/-- A wake event of WFI is pending (R87, R107). -/
def State.wakePending (s : State) (t h : Nat) : Bool :=
  (s.threadAt t h).uiPending ||
    (isService t && (s.wakePend (t - 128) &&& (s.svc[Fin.ofNat 2 (t - 128)].wakemask.setWidth 64)) != 0)

/-- WFI (R87). -/
def execWfi (s : State) : Host.Outcome State Fault Refusal :=
  finish s (fun s => cOnly s (fun s =>
    if s.wakePending s.ct s.ch then .ok s
    else .ok ((s.modThr (fun t => { t with flow := { t.flow with inWfi := true } })).setRes .held)))

/-- EXIT: the C stream stops issuing; the thread ends once its engines have drained. Inside a trap handler the frozen syllables and the
data queues are discarded (R87, R362). -/
def execExitThread (s : State) : Host.Outcome State Fault Refusal :=
  finish s (fun s => cOnly s (fun s =>
    let s := if s.active then
        s.modThr (fun t => { t with eL := Engine.empty, eW := Engine.empty, eS := Engine.empty, nest := none,
                                    qs := { t.qs with qlw := [], qws := [], qcl := [], qlc := [] } })
      else s
    .ok ((s.modThr (fun t => { t with flow := { t.flow with exiting := true } })).setRes .held)))

end Sys2Proof.Machine
end

