-- ==== Sys2Proof/Machine/VecCvt.lean ====
section
/-! DEFINITION. Conversions and the 256-element block formats (R133, R134, R170 to R172). -/

namespace Sys2Proof.Machine

/-- A number with the bits from `lo` on replaced by the `n` bits of `v`. -/
def putBits (old lo n v : Nat) : Nat := old % 2 ^ lo + v % 2 ^ n * 2 ^ lo + old / 2 ^ (lo + n) * 2 ^ (lo + n)

/-- VCVT (R170, R171): a narrowing conversion writes one part of vd and leaves the others; for vq it pushes that part alone. -/
def execVcvt (k f sf d a p : BitVec 4) (m : BitVec 1) (s : State) : Host.Outcome State Fault Refusal :=
  finish s (fun s =>
    let dst := CFmt.ofCode f.toNat
    let src := CFmt.ofCode sf.toNat
    let db := dst.bits
    let sb := src.bits
    let n := 4096 / max sb db
    let md := RM.ofCode s.thr.csr.rmode.toNat
    withVec k [a] (some d) 1 (fun s vs =>
      let at_ := fun i => vget (vopd vs 0) sb (if sb < db then p.toNat * n + i else i)
      let r := elemLoop (fun _ => true) (fun i w => convert dst src (m = 1) md w (at_ i)) (fun _ => 0) (md == .sr && convDraws dst src) n 0 s.thr.csr.srseed
      let v := vpack db r.1
      let lo := if db < sb then db * n * p.toNat else 0
      let mask := if db < sb then BitVec.ofNat 512 ((2 ^ (db * n / 8) - 1) * 2 ^ (lo / 8)) else BitVec.allOnes 512
      ((s.putVec d (BitVec.ofNat 4096 (putBits (s.oldVec d).toNat lo (db * n) v)) mask).setSeed r.2.1).orFlags r.2.2) s)

/-! ## Blocks (R133, R134) -/

/-- 127 · x / s of two finite FP32 values, as a magnitude. -/
def quotMag (mx : Nat) (ex : Int) (ms : Nat) (es : Int) : Mag := ⟨127 * mx * 2 ^ 200 / ms, ex - es - 200, 127 * mx * 2 ^ 200 % ms != 0⟩

/-- 255 · √(x / s). -/
def rootMag (mx : Nat) (ex : Int) (ms : Nat) (es : Int) : Mag :=
  let o := ((ex - es) % 2).toNat
  let m := 65025 * mx * 2 ^ (o + 200)
  let r := isqrt (m / ms)
  ⟨r, (ex - es - o) / 2 - 100, r * r * ms != m⟩

/-- One code of a block whose scale is the finite `sc`. -/
def quantOne (unsign : Bool) (md : RM) (draw : Nat) (sc x : FVal) : Nat × Flags :=
  match x, sc with
  | .fin nx mx ex, .fin _ ms es =>
    if unsign && nx && mx != 0 then (0, fINV)
    else
      let r := if unsign then toInt md draw false (rootMag mx ex ms es) else toInt md draw nx (quotMag mx ex ms es)
      (truncInt r.1 8, flagIf r.2 fINX)
  | _, _ => (0, 0)

/-- Quantising 256 FP32 values (R134): the codes, the scale's bits, the generator, the flags. -/
def quantBlock (unsign : Bool) (md : RM) (seed : BitVec 32) (xs : List Nat) : List Nat × Nat × BitVec 32 × Flags :=
  let a := xs.foldl (fun m x => max m (x % 2 ^ 31)) 0
  if fp32.infBits ≤ a then (List.replicate 256 0, fp32.nanBits, seed, fINV)
  else if a = 0 then (List.replicate 256 0, 0, seed, 0)
  else
    let vs := xs.map fp32.decode
    let r := elemLoop (fun _ => true) (fun i w => quantOne unsign md w (fp32.decode a) ((vs[i]?).getD (.fin false 0 0))) (fun _ => 0) (md == .sr) 256 0 seed
    (r.1, a, r.2.1, r.2.2)

/-- Two neighbouring vectors of a field: vq pops or pushes two entries. -/
def pairOf (a : BitVec 4) : List (BitVec 4) := if a = 15 then [15, 15] else [a, a + 1]

/-- VQUANT (R172): class f32 only. -/
def execVquant (k : BitVec 4) (y : BitVec 3) (d a : BitVec 4) (q : BitVec 1) (s : State) : Host.Outcome State Fault Refusal :=
  finish s (fun s =>
    if y ≠ 4 then wrongType k (pairOf a) (some d) 1 s
    else
      withVec k (pairOf a) (some d) 1 (fun s vs =>
        let xs := (List.range 128).map (vget (vopd vs 0) 32) ++ (List.range 128).map (vget (vopd vs 1) 32)
        let r := quantBlock (q = 1) (RM.ofCode s.thr.csr.rmode.toNat) s.thr.csr.srseed xs
        ((s.putVec d (BitVec.ofNat 4096 (vpack 8 r.1 + r.2.1 * 2 ^ 2048)) (BitVec.allOnes 512)).setSeed r.2.2.1).orFlags r.2.2.2) s)

/-- The value of a code under a scale, rounded to FP32 (R133). A Q8S code of 0x80 is read as −127 and sets INV. -/
def dequantOne (unsign : Bool) (sc : FVal) (c : Nat) : Nat × Flags :=
  let v : Int := if unsign then ((c * c : Nat) : Int) else if c = 128 then -127 else sextInt c 8
  let p := sc.mul (.fin (decide (v < 0)) v.natAbs 0)
  let r := match p.1 with
    | .nan _ => fp32.result .rn 0 (.nan p.2)
    | x => fp32.result .rn 0 (exDiv x (.fin false (if unsign then 65025 else 127) 0))
  (r.1, r.2 ||| flagIf (!unsign && c == 128) fINV)

/-- VDEQUANT (R172): two vectors, the lower first; where vd and vd + 1 are the same bytes, those of vd + 1 remain: DESIGN CHOICE (log entry 152). -/
def execVdequant (k : BitVec 4) (y : BitVec 3) (d a : BitVec 4) (q : BitVec 1) (s : State) : Host.Outcome State Fault Refusal :=
  finish s (fun s =>
    if y ≠ 4 then wrongType k [a] (some d) 2 s
    else
      withVec k [a] (some d) 2 (fun s vs =>
        let b := vopd vs 0
        let sc := fp32.decode (vget b 32 64)
        let r := (List.range 256).map (fun i => dequantOne (q = 1) sc (vget b 8 i))
        let fl := r.foldl (fun f x => f ||| x.2) 0
        let put := fun (s : State) (f : BitVec 4) (l : List (Nat × Flags)) => s.wholeVec f 32 (l.map (·.1))
        (put (put s d (r.take 128)) (if d = 15 then 15 else d + 1) (r.drop 128)).orFlags fl) s)

end Sys2Proof.Machine
end

