-- ==== Sys2Proof/Machine/VecFloat.lean ====
section
/-! DEFINITION. Floating-point vector instructions (R167 to R169): each computes the exact value of its operation and rounds it once. -/

namespace Sys2Proof.Machine

/-- The value of the `j`-th operand. -/
def fopd (f : Fmt) (l : List Nat) (j : Nat) : FVal := f.decode (opd l j)

/-- VFADD (R167). -/
def execVfadd (k : BitVec 4) (y : BitVec 3) (d a b p : BitVec 4) (r : BitVec 2) (s : State) : Host.Outcome State Fault Refusal :=
  finish s (vFlt k y [a, b] d p r (fun f md w l => f.result md w (exAdd (md == .rd) (fopd f l 0) (fopd f l 1))))

/-- VFSUB (R167). -/
def execVfsub (k : BitVec 4) (y : BitVec 3) (d a b p : BitVec 4) (r : BitVec 2) (s : State) : Host.Outcome State Fault Refusal :=
  finish s (vFlt k y [a, b] d p r (fun f md w l => f.result md w (exSub (md == .rd) (fopd f l 0) (fopd f l 1))))

/-- VFMUL (R167). -/
def execVfmul (k : BitVec 4) (y : BitVec 3) (d a b p : BitVec 4) (r : BitVec 2) (s : State) : Host.Outcome State Fault Refusal :=
  finish s (vFlt k y [a, b] d p r (fun f md w l => f.result md w (exMul (fopd f l 0) (fopd f l 1))))

/-- VFMA (R167). -/
def execVfma (k : BitVec 4) (y : BitVec 3) (d a b p : BitVec 4) (r : BitVec 2) (s : State) : Host.Outcome State Fault Refusal :=
  finish s (vFlt k y [a, b, d] d p r (fun f md w l => f.result md w (exFma (md == .rd) (fopd f l 0) (fopd f l 1) (fopd f l 2))))

/-- VFDIV (R167). -/
def execVfdiv (k : BitVec 4) (y : BitVec 3) (d a b p : BitVec 4) (r : BitVec 2) (s : State) : Host.Outcome State Fault Refusal :=
  finish s (vFlt k y [a, b] d p r (fun f md w l => f.result md w (exDiv (fopd f l 0) (fopd f l 1))))

/-- VFMIN: exact, under the NaN rule of R142 (R167). -/
def execVfmin (k : BitVec 4) (y : BitVec 3) (d a b p : BitVec 4) (n : BitVec 1) (s : State) : Host.Outcome State Fault Refusal :=
  finish s (vFlt k y [a, b] d p 1 (fun f _ _ l => f.pick FVal.least (n = 1) (fopd f l 0) (fopd f l 1)))

/-- VFMAX: exact, under the NaN rule of R142 (R167). -/
def execVfmax (k : BitVec 4) (y : BitVec 3) (d a b p : BitVec 4) (n : BitVec 1) (s : State) : Host.Outcome State Fault Refusal :=
  finish s (vFlt k y [a, b] d p 1 (fun f _ _ l => f.pick FVal.greatest (n = 1) (fopd f l 0) (fopd f l 1)))

/-- VFSQRT (R167). -/
def execVfsqrt (k : BitVec 4) (y : BitVec 3) (d a p : BitVec 4) (r : BitVec 2) (s : State) : Host.Outcome State Fault Refusal :=
  finish s (vFlt k y [a] d p r (fun f md w l => f.result md w (exSqrt (fopd f l 0))))

/-- VFRSQRT (R167). -/
def execVfrsqrt (k : BitVec 4) (y : BitVec 3) (d a p : BitVec 4) (r : BitVec 2) (s : State) : Host.Outcome State Fault Refusal :=
  finish s (vFlt k y [a] d p r (fun f md w l => f.result md w (exRsqrt (fopd f l 0))))

/-- VFEXP2 (R167). -/
def execVfexp2 (k : BitVec 4) (y : BitVec 3) (d a p : BitVec 4) (r : BitVec 2) (s : State) : Host.Outcome State Fault Refusal :=
  finish s (vFlt k y [a] d p r (fun f md w l => f.exp2 md w (fopd f l 0)))

/-- VFLOG2 (R167). -/
def execVflog2 (k : BitVec 4) (y : BitVec 3) (d a p : BitVec 4) (r : BitVec 2) (s : State) : Host.Outcome State Fault Refusal :=
  finish s (vFlt k y [a] d p r (fun f md w l => f.log2 md w (fopd f l 0)))

/-- VFABS: exact; a NaN gives the canonical NaN (R167). -/
def execVfabs (k : BitVec 4) (y : BitVec 3) (d a p : BitVec 4) (s : State) : Host.Outcome State Fault Refusal :=
  finish s (vFlt k y [a] d p 1 (fun f _ _ l => f.result .rn 0 (fopd f l 0).abs.toEx))

/-- VFNEG: exact; a NaN gives the canonical NaN (R167). -/
def execVfneg (k : BitVec 4) (y : BitVec 3) (d a p : BitVec 4) (s : State) : Host.Outcome State Fault Refusal :=
  finish s (vFlt k y [a] d p 1 (fun f _ _ l => f.result .rn 0 (fopd f l 0).neg.toEx))

/-- VFCLASS (R169); a signalling NaN operand sets INV, as of every instruction of R167 (R141). -/
def execVfclass (k : BitVec 4) (y : BitVec 3) (d a p : BitVec 4) (s : State) : Host.Outcome State Fault Refusal :=
  finish s (vFlt k y [a] d p 1 (fun f _ _ l => (2 ^ f.classOf (fopd f l 0), flagIf (fopd f l 0).isSig fINV)))

/-- The condition codes of VFCMP: 0 EQ, 1 LT, 2 LE, 3 UN, with the INV that a NaN operand sets (R168). -/
def fcmpCond (c : BitVec 2) (x y : FVal) : Bool × Flags :=
  let sig := x.isSig || y.isSig
  let nan := x.isNan || y.isNan
  match c.toNat with
  | 0 => (x.eq y, flagIf sig fINV)
  | 1 => (x.lt y, flagIf nan fINV)
  | 2 => (x.lt y || x.eq y, flagIf nan fINV)
  | _ => (nan, flagIf sig fINV)

/-- VFCMP (R168). -/
def execVfcmp (k : BitVec 4) (y : BitVec 3) (d a b p : BitVec 4) (c : BitVec 2) (s : State) : Host.Outcome State Fault Refusal :=
  finish s (fun s => match fltOf y with
    | none => wrongType k [a, b] none 0 s
    | some f => withVec k [a, b] none 0 (fun s vs =>
        s.compare d p f.width (fun i => fcmpCond c (fopd f (elems vs f.width i) 0) (fopd f (elems vs f.width i) 1))) s)

end Sys2Proof.Machine
end

