-- ==== Sys2Proof/Machine/VecInt.lean ====
section
/-! DEFINITION. Integer and logic vector instructions, comparisons, selection, broadcasts and indices (R162 to R166). -/

namespace Sys2Proof.Machine

/-- A signed or unsigned element of `b` bits. -/
def elemInt (signed : Bool) (b x : Nat) : Int := if signed then sextInt x b else (x : Int)

/-- A result reduced to the element's width, without a flag. -/
def wrap (b : Nat) (v : Int) : Nat × Flags := (truncInt v b, 0)

/-- A two-operand integer function of exact values that wraps. -/
def wrap2 (signed : Bool) (f : Int → Int → Int) (b : Nat) (l : List Nat) : Nat × Flags := wrap b (f (elemInt signed b (opd l 0)) (elemInt signed b (opd l 1)))

/-- The same, clamped (R162). -/
def clamp2 (signed : Bool) (f : Int → Int → Int) (b : Nat) (l : List Nat) : Nat × Flags :=
  clampInt b signed (f (elemInt signed b (opd l 0)) (elemInt signed b (opd l 1)))

/-- The high half of a product. -/
def vHigh (signed : Bool) (b : Nat) (l : List Nat) : Nat × Flags :=
  wrap b ((elemInt signed b (opd l 0) * elemInt signed b (opd l 1)) / 2 ^ b)

/-- Shifts: an amount of the element's width or more gives 0 or the sign fill. -/
def vLeft (b x n : Nat) : Nat := if b ≤ n then 0 else x * 2 ^ n % 2 ^ b
def vRight (b x n : Nat) : Nat := if b ≤ n then 0 else x / 2 ^ n
def vArith (b x n : Nat) : Nat := truncInt (sextInt x b / 2 ^ (min n b)) b

/-- The funnel shift (R163): the operands are x, y and the old d. -/
def funnel (left : Bool) (b : Nat) (l : List Nat) : Nat × Flags :=
  let n := min (opd l 2) b
  let C := opd l 0 * 2 ^ b + opd l 1
  ((if left then C * 2 ^ n / 2 ^ b else C / 2 ^ n) % 2 ^ b, 0)

def vAbs (clamped : Bool) (b : Nat) (l : List Nat) : Nat × Flags :=
  let v := (sextInt (opd l 0) b).natAbs
  if clamped then clampInt b true v else wrap b v

/-- VADD (R162). -/
def execVadd (k : BitVec 4) (y : BitVec 3) (d a b p : BitVec 4) (s : State) : Host.Outcome State Fault Refusal := finish s (vInt k y [a, b] d p (wrap2 false (· + ·)))

/-- VSUB (R162). -/
def execVsub (k : BitVec 4) (y : BitVec 3) (d a b p : BitVec 4) (s : State) : Host.Outcome State Fault Refusal := finish s (vInt k y [a, b] d p (wrap2 false (· - ·)))

/-- VMUL (R162). -/
def execVmul (k : BitVec 4) (y : BitVec 3) (d a b p : BitVec 4) (s : State) : Host.Outcome State Fault Refusal := finish s (vInt k y [a, b] d p (wrap2 false (· * ·)))

/-- VMULH (R162). -/
def execVmulh (k : BitVec 4) (y : BitVec 3) (d a b p : BitVec 4) (s : State) : Host.Outcome State Fault Refusal := finish s (vInt k y [a, b] d p (vHigh true))

/-- VMULHN (R162). -/
def execVmulhn (k : BitVec 4) (y : BitVec 3) (d a b p : BitVec 4) (s : State) : Host.Outcome State Fault Refusal := finish s (vInt k y [a, b] d p (vHigh false))

/-- VMIN (R162). -/
def execVmin (k : BitVec 4) (y : BitVec 3) (d a b p : BitVec 4) (s : State) : Host.Outcome State Fault Refusal := finish s (vInt k y [a, b] d p (wrap2 true min))

/-- VMINN (R162). -/
def execVminn (k : BitVec 4) (y : BitVec 3) (d a b p : BitVec 4) (s : State) : Host.Outcome State Fault Refusal := finish s (vInt k y [a, b] d p (wrap2 false min))

/-- VMAX (R162). -/
def execVmax (k : BitVec 4) (y : BitVec 3) (d a b p : BitVec 4) (s : State) : Host.Outcome State Fault Refusal := finish s (vInt k y [a, b] d p (wrap2 true max))

/-- VMAXN (R162). -/
def execVmaxn (k : BitVec 4) (y : BitVec 3) (d a b p : BitVec 4) (s : State) : Host.Outcome State Fault Refusal := finish s (vInt k y [a, b] d p (wrap2 false max))

/-- VAND (R162). -/
def execVand (k : BitVec 4) (y : BitVec 3) (d a b p : BitVec 4) (s : State) : Host.Outcome State Fault Refusal :=
  finish s (vAny k y [a, b] d p (fun w v i => vget (vopd v 0) w i &&& vget (vopd v 1) w i))

/-- VOR (R162). -/
def execVor (k : BitVec 4) (y : BitVec 3) (d a b p : BitVec 4) (s : State) : Host.Outcome State Fault Refusal :=
  finish s (vAny k y [a, b] d p (fun w v i => vget (vopd v 0) w i ||| vget (vopd v 1) w i))

/-- VXOR (R162). -/
def execVxor (k : BitVec 4) (y : BitVec 3) (d a b p : BitVec 4) (s : State) : Host.Outcome State Fault Refusal :=
  finish s (vAny k y [a, b] d p (fun w v i => vget (vopd v 0) w i ^^^ vget (vopd v 1) w i))

/-- VSHL (R162). -/
def execVshl (k : BitVec 4) (y : BitVec 3) (d a b p : BitVec 4) (s : State) : Host.Outcome State Fault Refusal := finish s (vInt k y [a, b] d p (fun w l => (vLeft w (opd l 0) (opd l 1), 0)))

/-- VSHR (R162). -/
def execVshr (k : BitVec 4) (y : BitVec 3) (d a b p : BitVec 4) (s : State) : Host.Outcome State Fault Refusal := finish s (vInt k y [a, b] d p (fun w l => (vRight w (opd l 0) (opd l 1), 0)))

/-- VSAR (R162). -/
def execVsar (k : BitVec 4) (y : BitVec 3) (d a b p : BitVec 4) (s : State) : Host.Outcome State Fault Refusal := finish s (vInt k y [a, b] d p (fun w l => (vArith w (opd l 0) (opd l 1), 0)))

/-- VFSHL: the shift amounts are vd's old elements (R163). -/
def execVfshl (k : BitVec 4) (y : BitVec 3) (d a b p : BitVec 4) (s : State) : Host.Outcome State Fault Refusal := finish s (vInt k y [a, b, d] d p (funnel true))

/-- VFSHR: the shift amounts are vd's old elements (R163). -/
def execVfshr (k : BitVec 4) (y : BitVec 3) (d a b p : BitVec 4) (s : State) : Host.Outcome State Fault Refusal := finish s (vInt k y [a, b, d] d p (funnel false))

/-- VCLZ (R162). -/
def execVclz (k : BitVec 4) (y : BitVec 3) (d a p : BitVec 4) (s : State) : Host.Outcome State Fault Refusal := finish s (vInt k y [a] d p (fun w l => (clzNat w (opd l 0), 0)))

/-- VPOPC (R162). -/
def execVpopc (k : BitVec 4) (y : BitVec 3) (d a p : BitVec 4) (s : State) : Host.Outcome State Fault Refusal := finish s (vInt k y [a] d p (fun w l => (popNat w (opd l 0), 0)))

/-- VABS (R162). -/
def execVabs (k : BitVec 4) (y : BitVec 3) (d a p : BitVec 4) (s : State) : Host.Outcome State Fault Refusal := finish s (vInt k y [a] d p (vAbs false))

/-- VABSS (R162). -/
def execVabss (k : BitVec 4) (y : BitVec 3) (d a p : BitVec 4) (s : State) : Host.Outcome State Fault Refusal := finish s (vInt k y [a] d p (vAbs true))

/-- VADDS (R162). -/
def execVadds (k : BitVec 4) (y : BitVec 3) (d a b p : BitVec 4) (s : State) : Host.Outcome State Fault Refusal := finish s (vInt k y [a, b] d p (clamp2 true (· + ·)))

/-- VADDSN (R162). -/
def execVaddsn (k : BitVec 4) (y : BitVec 3) (d a b p : BitVec 4) (s : State) : Host.Outcome State Fault Refusal := finish s (vInt k y [a, b] d p (clamp2 false (· + ·)))

/-- VSUBS (R162). -/
def execVsubs (k : BitVec 4) (y : BitVec 3) (d a b p : BitVec 4) (s : State) : Host.Outcome State Fault Refusal := finish s (vInt k y [a, b] d p (clamp2 true (· - ·)))

/-- VSUBSN (R162). -/
def execVsubsn (k : BitVec 4) (y : BitVec 3) (d a b p : BitVec 4) (s : State) : Host.Outcome State Fault Refusal := finish s (vInt k y [a, b] d p (clamp2 false (· - ·)))

/-! ## Comparison (R164) -/

/-- The condition codes of VCMP: 0 EQ, 1 NE, 2 LT, 3 LE. -/
def cmpCond (c : BitVec 2) (x y : Int) : Bool :=
  match c.toNat with
  | 0 => x == y
  | 1 => x != y
  | 2 => decide (x < y)
  | _ => decide (x ≤ y)

def vCompare (signed : Bool) (k : BitVec 4) (y : BitVec 3) (d a b p : BitVec 4) (c : BitVec 2) (s : State) : Res :=
  match intBits y with
  | none => wrongType k [a, b] none 0 s
  | some w =>
    withVec k [a, b] none 0 (fun s vs =>
      (s.warnIf (y = 7) 3).compare d p w (fun i =>
        (cmpCond c (elemInt signed w (vget (vopd vs 0) w i)) (elemInt signed w (vget (vopd vs 1) w i)), 0))) s

/-- VCMP (R164). -/
def execVcmp (k : BitVec 4) (y : BitVec 3) (d a b p : BitVec 4) (c : BitVec 2) (s : State) : Host.Outcome State Fault Refusal := finish s (vCompare true k y d a b p c)

/-- VCMPN (R164). -/
def execVcmpn (k : BitVec 4) (y : BitVec 3) (d a b p : BitVec 4) (c : BitVec 2) (s : State) : Host.Outcome State Fault Refusal := finish s (vCompare false k y d a b p c)

/-! ## Selection, immediates, broadcasts, indices -/

/-- VSEL: x where active, y where inactive; every element is written (R162). -/
def execVsel (k : BitVec 4) (y : BitVec 3) (d a b p : BitVec 4) (s : State) : Host.Outcome State Fault Refusal :=
  finish s (withVec k [a, b] (some d) 1 (fun s vs =>
    let w := anyBits y
    let pr := s.pred p
    s.wholeVec d w ((List.range (4096 / w)).map (fun i => if elemActive pr w i then vget (vopd vs 0) w i else vget (vopd vs 1) w i))))

/-- VADDI (R162). -/
def execVaddi (k : BitVec 4) (y : BitVec 3) (d a : BitVec 4) (i : BitVec 8) (p : BitVec 2) (s : State) : Host.Outcome State Fault Refusal :=
  finish s (vInt k y [a] d (p.setWidth 4) (fun w l => wrap w ((opd l 0 : Int) + i.toInt)))

/-- VSHLI (R162). -/
def execVshli (k : BitVec 4) (y : BitVec 3) (d a : BitVec 4) (n : BitVec 6) (p : BitVec 2) (s : State) : Host.Outcome State Fault Refusal :=
  finish s (vInt k y [a] d (p.setWidth 4) (fun w l => (vLeft w (opd l 0) n.toNat, 0)))

/-- VSHRI (R162). -/
def execVshri (k : BitVec 4) (y : BitVec 3) (d a : BitVec 4) (n : BitVec 6) (p : BitVec 2) (s : State) : Host.Outcome State Fault Refusal :=
  finish s (vInt k y [a] d (p.setWidth 4) (fun w l => (vRight w (opd l 0) n.toNat, 0)))

/-- VSARI (R162). -/
def execVsari (k : BitVec 4) (y : BitVec 3) (d a : BitVec 4) (n : BitVec 6) (p : BitVec 2) (s : State) : Host.Outcome State Fault Refusal :=
  finish s (vInt k y [a] d (p.setWidth 4) (fun w l => (vArith w (opd l 0) n.toNat, 0)))

/-- VBCAST of a W-engine register (R165). -/
def execVbcast (k : BitVec 4) (y : BitVec 3) (d a p : BitVec 4) (s : State) : Host.Outcome State Fault Refusal :=
  finish s (fun s => let v := (s.wreg a).toNat; vAny k y [] d p (fun w _ _ => v % 2 ^ w) s)

/-- VBCAST of element 0 of a vector (R165). -/
def execVbcastVec (k : BitVec 4) (y : BitVec 3) (d a p : BitVec 4) (s : State) : Host.Outcome State Fault Refusal := finish s (vAny k y [a] d p (fun w v _ => vget (vopd v 0) w 0))

/-- VIOTA (R166). -/
def execViota (k : BitVec 4) (y : BitVec 3) (d p : BitVec 4) (s : State) : Host.Outcome State Fault Refusal :=
  finish s (fun s => match intBits y with
    | none => wrongType k [] (some d) 1 s
    | some w => withVec k [] (some d) 1 (fun s _ => (s.warnIf (y = 7) 3).elementwise d p w false (fun i _ => (i % 2 ^ w, 0))) s)

/-- The number of active elements below each element (R166). -/
def ranks (pr : PredVal) (w : Nat) : Nat → Nat → Nat → List Nat
  | 0, _, _ => []
  | n + 1, i, c => c :: ranks pr w n (i + 1) (if elemActive pr w i then c + 1 else c)

/-- VIOTA.rank: every element is written (R166). -/
def execViotaRank (k : BitVec 4) (y : BitVec 3) (d p : BitVec 4) (s : State) : Host.Outcome State Fault Refusal :=
  finish s (fun s => match intBits y with
    | none => wrongType k [] (some d) 1 s
    | some w => withVec k [] (some d) 1 (fun s _ => (s.warnIf (y = 7) 3).wholeVec d w (ranks (s.pred p) w (4096 / w) 0 0)) s)

end Sys2Proof.Machine
end

