-- ==== Sys2Proof/Machine/VecMem.lean ====
section
/-! DEFINITION. Vector loads and stores (R179 to R191). -/

namespace Sys2Proof.Machine

/-- The address of a syllable under its mode: base register plus displacement, or the head of qcl plus displacement (R180); none while qcl is empty. -/
def State.vecAddr (s : State) (b : BitVec 3) (m : BitVec 2) (D : Word) : Option Word :=
  if m = 2 then (s.thr.qs.qcl.head?).map (· + D) else some (s.A b + D)

/-- What follows success (R180): base advances under mode 1, the qcl entry is popped under mode 2. -/
def State.afterAddr (s : State) (b : BitVec 3) (m : BitVec 2) (inc : Nat) : State :=
  if m = 1 then s.setA b (s.A b + wofNat inc)
  else if m = 2 then s.modQs (fun q => { q with qcl := q.qcl.drop 1 })
  else s

/-- The element width of a width code (R179). -/
def widthOf (w : BitVec 2) : Nat := 2 ^ w.toNat

/-- A vector loaded: pushed to qlw, or written through VVIEW. -/
def State.putLoad (s : State) (v : BitVec 4) (x : VecVal) : State :=
  if v = 15 then s.modQs (fun q => { q with qlw := q.qlw ++ [x] }) else s.writeVec v x

/-- qlw has room when the destination is vq. -/
def State.loadReady (s : State) (v : BitVec 4) : Bool := v != 15 || s.thr.qs.qlw.length < 16

/-- A load of the L engine (R181): `runs` gives the bytes it reads from its address, `align` the alignment of each run, `make` the vector. -/
def vLoad (k : BitVec 4) (v : BitVec 4) (b : BitVec 3) (m : BitVec 2) (D : Word) (inc align : Nat) (win : Bool) (runs : State → Word → List (Word × Nat))
    (make : List Byte → VecVal) (s : State) : Res :=
  withTokens k s (fun s =>
    match s.loadReady v, s.vecAddr b m D with
    | true, some A =>
      let rs := runs s A
      match rs.find? (fun r => r.1.toNat % align != 0) with
      | some r => .error (misaligned 0 r.1)
      | none => do
        let (bs, s) ← s.loadRuns s.ct s.ch rs win
        return (s.putLoad v (make bs)).afterAddr b m inc
    | _, _ => .error .hold)

def vecBytes (bs : List Byte) : VecVal := BitVec.ofNat 4096 (leNat bs)

/-- 64 · Sext(disp12, 12) (R180). -/
def dispLM (d : BitVec 12) : Word := 64 * sx d

/-- VLD (R186). -/
def execVld (k v : BitVec 4) (b : BitVec 3) (m : BitVec 2) (d : BitVec 12) (s : State) : Host.Outcome State Fault Refusal :=
  finish s (vLoad k v b m (dispLM d) 512 64 true (fun _ A => [(A, 512)]) vecBytes)

/-- VLDU (R186). -/
def execVldu (k v : BitVec 4) (b : BitVec 3) (m : BitVec 2) (d : BitVec 12) (s : State) : Host.Outcome State Fault Refusal :=
  finish s (vLoad k v b m (dispLM d) 512 1 true (fun _ A => [(A, 512)]) vecBytes)

/-- The element addresses of a strided access (R187). -/
def strided (A S : Word) (n w : Nat) : List (Word × Nat) := (List.range n).map (fun i => (A + wofNat i * S, w))

/-- VLDS (R187). -/
def execVlds (k v : BitVec 4) (b r : BitVec 3) (w m : BitVec 2) (s : State) : Host.Outcome State Fault Refusal :=
  finish s (vLoad k v b m 0 (widthOf w) (widthOf w) false (fun s A => strided A (s.A r) (512 / widthOf w) (widthOf w)) vecBytes)

/-- VLDB: one element to every position (R188). -/
def execVldb (k v : BitVec 4) (b : BitVec 3) (m w : BitVec 2) (d : BitVec 10) (s : State) : Host.Outcome State Fault Refusal :=
  finish s (vLoad k v b m (sx d) (widthOf w) (widthOf w) false (fun _ A => [(A, widthOf w)])
    (fun bs => vecBytes (List.replicate (512 / widthOf w) bs).flatten))

/-- SLDQ (R189). -/
def execSldq (k : BitVec 4) (b : BitVec 3) (m w : BitVec 2) (x : BitVec 1) (d : BitVec 9) (s : State) : Host.Outcome State Fault Refusal :=
  finish s (fun s => withTokens k s (fun s =>
    match decide (s.thr.qs.qlc.length < 32), s.vecAddr b m (sx d) with
    | true, some A =>
      if A.toNat % widthOf w ≠ 0 then .error (misaligned 0 A)
      else do
        let (bs, s) ← s.loadAt A (widthOf w) true
        let v := if x = 1 then wofInt (sextInt (leNat bs) (8 * widthOf w)) else wofNat (leNat bs)
        return (s.modQs (fun q => { q with qlc := q.qlc ++ [v] })).afterAddr b m (widthOf w)
    | _, _ => .error .hold))

/-! ## Stores -/

/-- The data and mask of a store: a vector whole, or the head of qws; none while qws is empty (R186). -/
def State.storeSrc (s : State) (v : BitVec 4) : Option (VecVal × PredVal) :=
  if v = 15 then s.thr.qs.qws.head? else some (s.readVec v, BitVec.allOnes 512)

/-- The trap of a store whose source v0 to v14 touches a poisoned unit of register space (R204): it reads those bytes. TADDR names the first such unit by its local address; that a store consumes
the poison of its source so is a DESIGN CHOICE (log entry 140). -/
def State.srcPoison (s : State) (v : BitVec 4) : Option Stop :=
  if v = 15 then none
  else ((unitsOf (s.vecOff v) 512).find? (fun u => s.tile.regs.poison.contains u)).map
    (fun u => poisoned (wofNat (s.tile.localBase.toNat * 2 ^ 32 + 0x800000 + 32 * u)))

def State.popStore (s : State) (v : BitVec 4) : State := if v = 15 then s.modQs (fun q => { q with qws := q.qws.drop 1 }) else s

/-- What a store leaves: the queue's entry gone and the address advanced; poison in its source is the last of its causes (R185). -/
def State.afterStore (s : State) (v : BitVec 4) (b : BitVec 3) (m : BitVec 2) (inc : Nat) (s' : State) : Res :=
  match s.srcPoison v with
  | some e => .error e
  | none => .ok ((s'.popStore v).afterAddr b m inc)

/-- The runs of masked bytes from byte `j` upward, `c` bytes to go, with the run under way in reverse. DEDUCED (log entry 31), unsafe. -/
def maskRuns (x : Nat) (mask : PredVal) : Nat → Nat → List Byte → List (Nat × List Byte)
  | 0, j, cur => if cur.isEmpty then [] else [(j - cur.length, cur.reverse)]
  | c + 1, j, cur =>
    if mask.getLsbD j then maskRuns x mask c (j + 1) (BitVec.ofNat 8 (x / 2 ^ (8 * j)) :: cur)
    else if cur.isEmpty then maskRuns x mask c (j + 1) []
    else (j - cur.length, cur.reverse) :: maskRuns x mask c (j + 1) []

/-- VST and VSTU: only the masked bytes are accessed (R184, R186). -/
def vStore (k v : BitVec 4) (b : BitVec 3) (m : BitVec 2) (D : Word) (align : Nat) (s : State) : Res :=
  withTokens k s (fun s =>
    match s.storeSrc v, s.vecAddr b m D with
    | some (x, mask), some A =>
      if A.toNat % align ≠ 0 then .error (misaligned 1 A)
      else
        do
          let was := s
          let s ← s.storeRuns s.ct s.ch ((maskRuns x.toNat mask 512 0 []).map (fun r => (A + wofNat r.1, r.2))) true
          was.afterStore v b m 512 s
    | _, _ => .error .hold)

/-- VST (R186). -/
def execVst (k v : BitVec 4) (b : BitVec 3) (m : BitVec 2) (d : BitVec 12) (s : State) : Host.Outcome State Fault Refusal :=
  finish s (vStore k v b m (dispLM d) 64)

/-- VSTU takes its data and mask from qws only (R186). -/
def execVstu (k : BitVec 4) (b : BitVec 3) (m : BitVec 2) (d : BitVec 12) (s : State) : Host.Outcome State Fault Refusal :=
  finish s (vStore k 15 b m (dispLM d) 1)

/-- VSTS: element i is written whole when mask bit i · w is 1; the higher-numbered of two elements on the same bytes wins (R187).
Each element is an access of its own, so that elements which together cover a poisoned unit do not clear its poison: DESIGN CHOICE (log entry 154). -/
def execVsts (k v : BitVec 4) (b r : BitVec 3) (w m : BitVec 2) (s : State) : Host.Outcome State Fault Refusal :=
  finish s (fun s => withTokens k s (fun s =>
    match s.storeSrc v, s.vecAddr b m 0 with
    | some (x, mask), some A =>
      let n := widthOf w
      let rs := strided A (s.A r) (512 / n) n
      match rs.find? (fun e => e.1.toNat % n != 0) with
      | some e => .error (misaligned 1 e.1)
      | none => do
        let sel := (List.range (512 / n)).filter (fun i => mask.getLsbD (i * n))
        let s' ← s.storeRuns s.ct s.ch (sel.map (fun i => (A + wofNat i * s.A r, leBytes n (vget x.toNat (8 * n) i)))) false
        s.afterStore v b m n s'
    | _, _ => .error .hold))

end Sys2Proof.Machine
end

