-- ==== Sys2Proof/Machine/VecPerm.lean ====
section
/-! DEFINITION. Permutations of vector elements (R175 to R178). -/

namespace Sys2Proof.Machine

/-- Element `j` of two vectors joined, `lo` first; 0 outside them (R175). -/
def joined (lo hi w : Nat) (j : Int) : Nat :=
  let n := 4096 / w
  if j < 0 then 0 else if j < n then vget lo w j.toNat else if j < 2 * n then vget hi w (j.toNat - n) else 0

/-- VSLIDE (R175): amount amt4, or 2^amt4. -/
def vSlide (up : Bool) (k : BitVec 4) (y : BitVec 3) (d a b t : BitVec 4) (c : BitVec 1) (s : State) : Res :=
  withVec k [a, b] (some d) 1 (fun s vs =>
    let w := anyBits y
    let n := 4096 / w
    let amt := if c = 1 then 2 ^ t.toNat else t.toNat
    s.wholeVec d w ((List.range n).map (fun (i : Nat) =>
      if up then joined (vopd vs 1) (vopd vs 0) w ((n : Int) + (i : Int) - (amt : Int)) else joined (vopd vs 0) (vopd vs 1) w ((i : Int) + (amt : Int))))) s

/-- VSLIDEUP (R175). -/
def execVslideup (k : BitVec 4) (y : BitVec 3) (d a b t : BitVec 4) (c : BitVec 1) (s : State) : Host.Outcome State Fault Refusal :=
  finish s (vSlide true k y d a b t c)

/-- VSLIDEDN (R175). -/
def execVslidedn (k : BitVec 4) (y : BitVec 3) (d a b t : BitVec 4) (c : BitVec 1) (s : State) : Host.Outcome State Fault Refusal :=
  finish s (vSlide false k y d a b t c)

/-- VPERM: indices modulo n, or 0 for an index of n or more (R176). -/
def execVperm (k : BitVec 4) (y : BitVec 3) (d a b p : BitVec 4) (z : BitVec 1) (s : State) : Host.Outcome State Fault Refusal :=
  finish s (vAny k y [a, b] d p (fun w v i =>
    let n := 4096 / w
    let j := vget (vopd v 1) w i
    if z = 1 && n ≤ j then 0 else vget (vopd v 0) w (j % n)))

/-- VZIPLO (R177). -/
def execVziplo (k : BitVec 4) (y : BitVec 3) (d a b p : BitVec 4) (s : State) : Host.Outcome State Fault Refusal :=
  finish s (vAny k y [a, b] d p (fun w v i => vget (vopd v (i % 2)) w (i / 2)))

/-- VZIPHI (R177). -/
def execVziphi (k : BitVec 4) (y : BitVec 3) (d a b p : BitVec 4) (s : State) : Host.Outcome State Fault Refusal :=
  finish s (vAny k y [a, b] d p (fun w v i => vget (vopd v (i % 2)) w (4096 / w / 2 + i / 2)))

/-- VUNZIPE (R177). -/
def execVunzipe (k : BitVec 4) (y : BitVec 3) (d a b p : BitVec 4) (s : State) : Host.Outcome State Fault Refusal :=
  finish s (vAny k y [a, b] d p (fun w v i => joined (vopd v 0) (vopd v 1) w (2 * i)))

/-- VUNZIPO (R177). -/
def execVunzipo (k : BitVec 4) (y : BitVec 3) (d a b p : BitVec 4) (s : State) : Host.Outcome State Fault Refusal :=
  finish s (vAny k y [a, b] d p (fun w v i => joined (vopd v 0) (vopd v 1) w (2 * i + 1)))

/-- The mask of bytes of the elements for which `f` holds. -/
def bytesOf (w : Nat) (f : Nat → Bool) : PredVal := predOf w ((List.range (4096 / w)).map f)

/-- VCOMPRESS (R178): the active elements of va to the lowest elements of vd; the rest 0, or kept. -/
def execVcompress (k : BitVec 4) (y : BitVec 3) (d a p : BitVec 4) (e : BitVec 1) (s : State) : Host.Outcome State Fault Refusal :=
  finish s (withVec k [a] (some d) 1 (fun s vs =>
    let w := anyBits y
    let n := 4096 / w
    let pr := s.pred p
    let old := (s.oldVec d).toNat
    let xs := ((List.range n).filter (elemActive pr w)).map (vget (vopd vs 0) w)
    let rest := (List.range (n - xs.length)).map (fun i => if e = 1 then vget old w (xs.length + i) else 0)
    s.putVec d (vecOf w (xs ++ rest)) (if e = 1 then bytesOf w (fun i => decide (i < xs.length)) else BitVec.allOnes 512)))

/-- The elements of VEXPAND from index `i`: the next packed element at each active position. -/
def expandOut (pr : PredVal) (w : Nat) (next : Nat → Nat) (rest : Nat → Nat) : Nat → Nat → Nat → List Nat
  | 0, _, _ => []
  | n + 1, i, j =>
    if elemActive pr w i then next j :: expandOut pr w next rest n (i + 1) (j + 1)
    else rest i :: expandOut pr w next rest n (i + 1) j

/-- VEXPAND (R178). -/
def execVexpand (k : BitVec 4) (y : BitVec 3) (d a p : BitVec 4) (e : BitVec 1) (s : State) : Host.Outcome State Fault Refusal :=
  finish s (withVec k [a] (some d) 1 (fun s vs =>
    let w := anyBits y
    let pr := s.pred p
    let old := (s.oldVec d).toNat
    let out := expandOut pr w (vget (vopd vs 0) w) (fun i => if e = 1 then vget old w i else 0) (4096 / w) 0 0
    s.putVec d (vecOf w out) (if e = 1 then bytesOf w (elemActive pr w) else BitVec.allOnes 512)))

end Sys2Proof.Machine
end

