-- ==== Sys2Proof/Machine/Run.lean ====
section
/-! DEFINITION. The execution of one syllable: what ISSUE_BUNDLE and STEP call. Every arm is the meaning that `exec` gives the same instruction; an event is no syllable and
does not execute here. -/

namespace Sys2Proof.Machine

/-- A syllable executed by the acting stream. -/
def runSyl (i : Instr) (s : State) : Host.Outcome State Fault Refusal :=
  match i with
  | .nop => execNop s
  | .add d a b => execAdd d a b s
  | .sub d a b => execSub d a b s
  | .andReg d a b => execAndReg d a b s
  | .orReg d a b => execOrReg d a b s
  | .xorReg d a b => execXorReg d a b s
  | .shl d a b => execShl d a b s
  | .shr d a b => execShr d a b s
  | .sar d a b => execSar d a b s
  | .slt d a b => execSlt d a b s
  | .sltn d a b => execSltn d a b s
  | .minReg d a b => execMinReg d a b s
  | .maxReg d a b => execMaxReg d a b s
  | .minn d a b => execMinn d a b s
  | .maxn d a b => execMaxn d a b s
  | .andn d a b => execAndn d a b s
  | .mul d a b => execMul d a b s
  | .mulh d a b => execMulh d a b s
  | .mulhn d a b => execMulhn d a b s
  | .div d a b => execDiv d a b s
  | .divn d a b => execDivn d a b s
  | .rem d a b => execRem d a b s
  | .remn d a b => execRemn d a b s
  | .clz d a => execClz d a s
  | .ctz d a => execCtz d a s
  | .popc d a => execPopc d a s
  | .brev d a => execBrev d a s
  | .bext d a p l => execBext d a p l s
  | .addi d a i => execAddi d a i s
  | .andi d a i => execAndi d a i s
  | .ori d a i => execOri d a i s
  | .xori d a i => execXori d a i s
  | .shli d a z0 => execShli d a z0 s
  | .shri d a z0 => execShri d a z0 s
  | .sari d a z0 => execSari d a z0 s
  | .slti d a i => execSlti d a i s
  | .sltin d a i => execSltin d a i s
  | .lih d i => execLih d i s
  | .lix d i => execLix d i s
  | .beq a b o => execBeq a b o s
  | .bne a b o => execBne a b o s
  | .blt a b o => execBlt a b o s
  | .bge a b o => execBge a b o s
  | .bltn a b o => execBltn a b o s
  | .bgen a b o => execBgen a b o s
  | .jal d o => execJal d o s
  | .jalr d a i => execJalr d a i s
  | .loopReg a n => execLoopReg a n s
  | .loopImm c n => execLoopImm c n s
  | .lexit => execLexit s
  | .ldb d a i => execLdb d a i s
  | .ldbz d a i => execLdbz d a i s
  | .ldh d a i => execLdh d a i s
  | .ldhz d a i => execLdhz d a i s
  | .ldw d a i => execLdw d a i s
  | .ldwz d a i => execLdwz d a i s
  | .ldd d a i => execLdd d a i s
  | .stb a b o => execStb a b o s
  | .sth a b o => execSth a b o s
  | .stw a b o => execStw a b o s
  | .std a b o => execStd a b o s
  | .qpush a => execQpush a s
  | .qpop d => execQpop d s
  | .csrr d c => execCsrr d c s
  | .csrw d a c => execCsrw d a c s
  | .csrs d a c => execCsrs d a c s
  | .csrc d a c => execCsrc d a c s
  | .userTrap c => execUserTrap c s
  | .tret => execTret s
  | .uiret => execUiret s
  | .wfi => execWfi s
  | .breakpt c => execBreakpt c s
  | .exitThread => execExitThread s
  | .amadd o z0 d a b z r => execAmadd o z0 d a b z r s
  | .ammin o z0 d a b z r => execAmmin o z0 d a b z r s
  | .amminn o z0 d a b z r => execAmminn o z0 d a b z r s
  | .ammax o z0 d a b z r => execAmmax o z0 d a b z r s
  | .ammaxn o z0 d a b z r => execAmmaxn o z0 d a b z r s
  | .amand o z0 d a b z r => execAmand o z0 d a b z r s
  | .amor o z0 d a b z r => execAmor o z0 d a b z r s
  | .amxor o z0 d a b z r => execAmxor o z0 d a b z r s
  | .amswap o z0 d a b z r => execAmswap o z0 d a b z r s
  | .amcas o z0 d a b z r => execAmcas o z0 d a b z r s
  | .amfaddc o z0 d a b z r => execAmfaddc o z0 d a b z r s
  | .amldc o z0 d a b z r => execAmldc o z0 d a b z r s
  | .amld o z0 d a b z r => execAmld o z0 d a b z r s
  | .amst o z0 a b z r => execAmst o z0 a b z r s
  | .tbinit d a b n => execTbinit d a b n s
  | .tbjoin d a => execTbjoin d a s
  | .tbarrive d a b => execTbarrive d a b s
  | .tbexpect a b => execTbexpect a b s
  | .tbwait d a b => execTbwait d a b s
  | .tbdrop a => execTbdrop a s
  | .tbpoll d a h => execTbpoll d a h s
  | .fence o z0 => execFence o z0 s
  | .xfence o z0 e l => execXfence o z0 e l s
  | .phase z0 d => execPhase z0 d s
  | .shuf a b c => execShuf a b c s
  | .segbegin a => execSegbegin a s
  | .segend d a b => execSegend d a b s
  | .cropen d a => execCropen d a s
  | .crclose d => execCrclose d s
  | .prot d a b i => execProt d a b i s
  | .unprot i => execUnprot i s
  | .rndprep d => execRndprep d s
  | .rndcommit d => execRndcommit d s
  | .rndabort d => execRndabort d s
  | .rndstat d w => execRndstat d w s
  | .rslot d a b => execRslot d a b s
  | .rred d a b => execRred d a b s
  | .rwait d a b => execRwait d a b s
  | .rfree a => execRfree a s
  | .launch d a b => execLaunch d a b s
  | .winbind d a w => execWinbind d a w s
  | .winbindUnbind d w => execWinbindUnbind d w s
  | .vld k v b m d => execVld k v b m d s
  | .vldu k v b m d => execVldu k v b m d s
  | .vlds k v b r w m => execVlds k v b r w m s
  | .vldb k v b m w d => execVldb k v b m w d s
  | .sldq k b m w x d => execSldq k b m w x d s
  | .vst k v b m d => execVst k v b m d s
  | .vstu k b m d => execVstu k b m d s
  | .vsts k v b r w m => execVsts k v b r w m s
  | .cpin k d a n b i q => execCpin k d a n b i q s
  | .cpinb k d a n b p q => execCpinb k d a n b p q s
  | .gather k d a b p q => execGather k d a b p q s
  | .wrset k a r => execWrset k a r s
  | .wradv k n r => execWradv k n r s
  | .pref k b c m d => execPref k b c m d s
  | .cpout k d a n b i => execCpout k d a n b i s
  | .cploc k d a n b i => execCploc k d a n b i s
  | .scatter k d a b => execScatter k d a b s
  | .cprem k d a n b i => execCprem k d a n b i s
  | .wflush k w l c => execWflush k w l c s
  | .vadd k y d a b p => execVadd k y d a b p s
  | .vsub k y d a b p => execVsub k y d a b p s
  | .vmul k y d a b p => execVmul k y d a b p s
  | .vmulh k y d a b p => execVmulh k y d a b p s
  | .vmulhn k y d a b p => execVmulhn k y d a b p s
  | .vmin k y d a b p => execVmin k y d a b p s
  | .vminn k y d a b p => execVminn k y d a b p s
  | .vmax k y d a b p => execVmax k y d a b p s
  | .vmaxn k y d a b p => execVmaxn k y d a b p s
  | .vand k y d a b p => execVand k y d a b p s
  | .vor k y d a b p => execVor k y d a b p s
  | .vxor k y d a b p => execVxor k y d a b p s
  | .vshl k y d a b p => execVshl k y d a b p s
  | .vshr k y d a b p => execVshr k y d a b p s
  | .vsar k y d a b p => execVsar k y d a b p s
  | .vfshl k y d a b p => execVfshl k y d a b p s
  | .vfshr k y d a b p => execVfshr k y d a b p s
  | .vclz k y d a p => execVclz k y d a p s
  | .vpopc k y d a p => execVpopc k y d a p s
  | .vadds k y d a b p => execVadds k y d a b p s
  | .vaddsn k y d a b p => execVaddsn k y d a b p s
  | .vsubs k y d a b p => execVsubs k y d a b p s
  | .vsubsn k y d a b p => execVsubsn k y d a b p s
  | .vabs k y d a p => execVabs k y d a p s
  | .vabss k y d a p => execVabss k y d a p s
  | .vcmp k y d a b p c => execVcmp k y d a b p c s
  | .vcmpn k y d a b p c => execVcmpn k y d a b p c s
  | .vsel k y d a b p => execVsel k y d a b p s
  | .vaddi k y d a i p => execVaddi k y d a i p s
  | .vshli k y d a z0 p => execVshli k y d a z0 p s
  | .vshri k y d a z0 p => execVshri k y d a z0 p s
  | .vsari k y d a z0 p => execVsari k y d a z0 p s
  | .vbcast k y d a p => execVbcast k y d a p s
  | .vbcastVec k y d a p => execVbcastVec k y d a p s
  | .viota k y d p => execViota k y d p s
  | .viotaRank k y d p => execViotaRank k y d p s
  | .vfadd k y d a b p r => execVfadd k y d a b p r s
  | .vfsub k y d a b p r => execVfsub k y d a b p r s
  | .vfmul k y d a b p r => execVfmul k y d a b p r s
  | .vfma k y d a b p r => execVfma k y d a b p r s
  | .vfmin k y d a b p n => execVfmin k y d a b p n s
  | .vfmax k y d a b p n => execVfmax k y d a b p n s
  | .vfdiv k y d a b p r => execVfdiv k y d a b p r s
  | .vfsqrt k y d a p r => execVfsqrt k y d a p r s
  | .vfrsqrt k y d a p r => execVfrsqrt k y d a p r s
  | .vfexp2 k y d a p r => execVfexp2 k y d a p r s
  | .vflog2 k y d a p r => execVflog2 k y d a p r s
  | .vfcmp k y d a b p c => execVfcmp k y d a b p c s
  | .vfabs k y d a p => execVfabs k y d a p s
  | .vfneg k y d a p => execVfneg k y d a p s
  | .vfclass k y d a p => execVfclass k y d a p s
  | .vcvt k f z0 d a p m => execVcvt k f z0 d a p m s
  | .vquant k y d a q => execVquant k y d a q s
  | .vdequant k y d a q => execVdequant k y d a q s
  | .vred k y d a o p n => execVred k y d a o p n s
  | .vgred k y d a o g c n => execVgred k y d a o g c n s
  | .vscan k y d a o p e n => execVscan k y d a o p e n s
  | .vslideup k y d a b z0 c => execVslideup k y d a b z0 c s
  | .vslidedn k y d a b z0 c => execVslidedn k y d a b z0 c s
  | .vperm k y d a b p z => execVperm k y d a b p z s
  | .vziplo k y d a b p => execVziplo k y d a b p s
  | .vziphi k y d a b p => execVziphi k y d a b p s
  | .vunzipe k y d a b p => execVunzipe k y d a b p s
  | .vunzipo k y d a b p => execVunzipo k y d a b p s
  | .vcompress k y d a p e => execVcompress k y d a p e s
  | .vexpand k y d a p e => execVexpand k y d a p e s
  | .plogic k f d a b => execPlogic k f d a b s
  | .psetFirsti k y d i => execPsetFirsti k y d i s
  | .psetFirst k y d a => execPsetFirst k y d a s
  | .psetRange k y d a c => execPsetRange k y d a c s
  | .pcnt k y d a p => execPcnt k y d a p s
  | .pfirst k y d a p => execPfirst k y d a p s
  | .pfirstLast k y d a p => execPfirstLast k y d a p s
  | .vmovwPtov k y d a b => execVmovwPtov k y d a b s
  | .vmovwVtop k y d a b => execVmovwVtop k y d a b s
  | .vmovwVtow k y d a => execVmovwVtow k y d a s
  | .mgo k x w z => execMgo k x w z s
  | .mgog k x w g z => execMgog k x w g z s
  | .mouter k y l a b h j => execMouter k y l a b h j s
  | .mvec k y l d b h j => execMvec k y l d b h j s
  | .aczero k n l => execAczero k n l s
  | .acrd k n l => execAcrd k n l s
  | .acwr k n l => execAcwr k n l s
  | .acpin k x w n l => execAcpin k x w n l s
  | .acfree k n l => execAcfree k n l s
  | .acspill k n l => execAcspill k n l s
  | .acfill k w n l => execAcfill k w n l s
  | .fwstep k f => execFwstep k f s
  | .fwchunk k c m => execFwchunk k c m s
  | .assay k w f g => execAssay k w f g s
  | .mremap k w i d z0 => execMremap k w i d z0 s
  | .mshrink k w i d => execMshrink k w i d s
  | _ => .next (s.setRes .waitIssue)

end Sys2Proof.Machine
end

