-- ==== Sys2Proof/Machine/Issue.lean ====
section
/-! DEFINITION. Issuing a bundle, the ends of waiting and of a thread, queue deadlock, user-level interrupts and STEP (R16 to R20, R36, R87, R252, R267, R378, R410, R418). -/

namespace Sys2Proof.Machine

/-! ## A bundle's syllables (R16, R35, R36) -/

/-- The syllable of a slot of a bundle. -/
def sylOf (ws : List Syl) : Slot → Syl
  | .c => ws.getD 0 0
  | .l => ws.getD 1 0
  | .w => ws.getD 2 0
  | .s => ws.getD 3 0

/-- On a service tile the W-slot private opcodes (bits 26:21, R22) 0x38 to 0x3F are reserved (R102). -/
def svcReserved (t : Nat) (sl : Slot) (w : Syl) : Bool := isService t && sl == .w && w.toNat / 2 ^ 31 == 1 && 0x38 ≤ w.toNat / 2 ^ 21 % 2 ^ 6

/-- The instruction of a slot on tile `t`. -/
def decodeOn (t : Nat) (sl : Slot) (w : Syl) : Option Instr := if svcReserved t sl w then none else decode sl w

/-- The lowest slot whose syllable is a reserved encoding (R36). -/
def reservedSlot (t : Nat) (ws : List Syl) : Option Slot := [Slot.c, .l, .w, .s].find? (fun sl => (decodeOn t sl (sylOf ws sl)).isNone)

/-! ## Appending (R18, R19, R294, R410) -/

/-- Whether a slot's syllable is appended: an all-zero one is not. -/
def appends (ws : List Syl) (sl : Slot) : Bool := sylOf ws sl != 0

/-- A queue that the bundle needs is full (R19). -/
def Thread.queueFull (t : Thread) (ws : List Syl) : Bool :=
  (appends ws .l && 32 ≤ t.eL.q.length) || (appends ws .w && 32 ≤ t.eW.q.length) || (appends ws .s && 32 ≤ t.eS.q.length)

/-- MGO and MGOG capture the nest table when they are appended. -/
def captures (i : Option Instr) : Bool :=
  match i with
  | some (.mgo ..) => true
  | some (.mgog ..) => true
  | _ => false

/-- The bundle would append a fifth capture (R294). -/
def Thread.captureFull (t : Thread) (ws : List Syl) : Bool :=
  captures (decode .w (sylOf ws .w)) && 4 ≤ (t.eW.q.filter (fun q => q.cap.isSome)).length

/-- The engine syllables of a bundle join their queues; the captures are those of `tab`, the values before the bundle's C syllable. -/
def Thread.append (t : Thread) (ws : List Syl) (tab : NestTab) (seg : Nat) : Thread :=
  let ent := fun (w : Syl) (cap : Option NestTab) => ({ syl := w, cap := cap, seg := seg, prog := [] } : QEnt)
  { t with
    eL := if appends ws .l then { t.eL with q := t.eL.q ++ [ent (sylOf ws .l) none] } else t.eL,
    eW := if appends ws .w then { t.eW with q := t.eW.q ++ [ent (sylOf ws .w) (if captures (decode .w (sylOf ws .w)) then some tab else none)] } else t.eW,
    eS := if appends ws .s then { t.eS with q := t.eS.q ++ [ent (sylOf ws .s) none] } else t.eS }

/-- The save frame of a resumed node is free again when the node issues (R372). -/
def State.dropFrame (s : State) : State :=
  match s.tile.node with
  | none => s
  | some id =>
    if s.disp.nodes.any (fun n => n.id == id && n.frame.isSome && n.saving.isNone && n.phase == .running) then
      { s with disp := { s.disp with nodes := s.disp.nodes.map (fun (n : Node) => if n.id == id then { n with frame := none } else n) } }
    else s

/-! ## Issue (R18 to R20, R36) -/

/-- What follows from the outcome of the bundle's C syllable: the engine syllables are appended unless they already were (a control-only resumption) or a trap handler
runs, which discards them (R20, R82, R362); the pc moves on after a completed C syllable, and a held one is to execute again. -/
def State.bundleEnds (before s : State) (ws : List Syl) : State :=
  let x := before.thr
  let join := fun (s : State) => if x.flow.ctl then s else if before.active then s.dropFrame else (s.modThr (fun t => t.append ws x.ntab (if x.seg.isOpen && t.seg.isOpen then x.seg.id else 0))).dropFrame
  match s.run.res with
  | .done => ((join s).modThr Thread.advancePc).segFault
  | .jumped => join s
  | .held => (join s).modThr (fun t => { t with flow := { t.flow with ctl := true } })
  | .waitIssue => s
  | .trapped => s

/-- A fetched bundle of the acting thread. -/
def State.issueWords (s : State) (ws : List Syl) : Host.Outcome State Fault Refusal :=
  let x := s.thr
  let bad := if x.flow.ctl then (if (decodeOn s.ct .c (sylOf ws .c)).isNone then some Slot.c else none) else reservedSlot s.ct ws
  match bad with
  | some sl => finish s (fun _ => .error (.trap { cause := 1, slot := some sl }))
  | none =>
    if !x.flow.ctl && !s.active && (x.queueFull ws || x.captureFull ws) then .next (s.setRes .waitIssue)
    else
      match decode .c (sylOf ws .c) with
      | none => .next (s.setRes .waitIssue)
      | some i =>
        match runSyl i s with
        | .next s' => .next (s.bundleEnds s' ws)
        | o => o

/-- The next bundle of the acting thread is fetched and issued. DEDUCED (log entry 126), safe. -/
def State.issueBundle (s : State) : Host.Outcome State Fault Refusal :=
  match s.fetch s.ct s.ch s.thr.flow.pc with
  | .ok b => s.issueWords (syllables b)
  | .error (.ask u) => .next ((s.ask u).setRes .waitIssue)
  | .error e => finish s (fun _ => .error e)

/-- ISSUE_BUNDLE (R18): the C stream of the acting thread. -/
def execIssueBundle (s : State) : Host.Outcome State Fault Refusal :=
  if s.thr.flow.status = .running && !s.thr.flow.exiting then
    { s with run := { s.run with cur := { s.run.cur with turn := .stream .c } } }.issueBundle
  else .next (s.setRes .waitIssue)

/-! ## The ends of waiting -/

/-- The C stream waits for a peer, or for lines of a posted store to leave, and may not be abandoned (R255, R387, R389, R462). -/
def Thread.committed (x : Thread) : Bool := x.flow.held == .launch || x.bound .c

/-- WFI_WAKE (R87, R107). -/
def execWfiWake (s : State) : Host.Outcome State Fault Refusal :=
  if s.thr.flow.inWfi && s.wakePending s.ct s.ch then .next (s.modThr Thread.advancePc) else .next s

/-- A user-level interrupt's handler is entered (R252, R462): UIEPC names the next bundle, the bundle of a held syllable, or the bundle after WFI. -/
def Thread.uiEnter (x : Thread) : Thread :=
  let x := if x.flow.inWfi then x.advancePc else x
  { x with regs := x.regs.swapUi,
           csr := { x.csr with uiepc := x.flow.pc, uiCtl := x.flow.ctl, uimask := wset x.csr.uimask 8 },
           flow := { x.flow with pc := x.csr.uivec, ctl := false, exiting := false, inWfi := false, held := .no, stack := x.flow.held.stands :: x.flow.stack } }

/-- UI_DELIVERY (R252): not inside a trap handler (R362), nor while the C stream waits for a peer (R462). -/
def execUiDelivery (s : State) : Host.Outcome State Fault Refusal :=
  if s.thr.flow.status = .running && s.thr.uiPending && !s.active && !s.thr.committed then .next (s.modThr Thread.uiEnter) else .next s

/-! ## The end of a thread (R87, R250, R325, R418) -/

/-- EXIT's drain is over. -/
def Thread.drained (x : Thread) : Bool := x.flow.exiting && x.enginesIdle

/-- What remains of a thread that has ended: its segment closed and its regions discarded, its queues and tokens empty, its combining lines on their way. -/
def Thread.ends (x : Thread) : Thread :=
  let x := x.sendLines
  { x with seg := Segment.closed, crs := [], eL := Engine.empty, eW := Engine.empty, eS := Engine.empty, stuck := 0,
           qs := { qlw := [], qws := [], qcl := [], qlc := [], tok := (List.range 6).foldl (fun c f => tokSet c f 0) x.qs.tok },
           flow := { x.flow with status := .ended, exiting := false, ctl := false, held := .no, stack := [], loops := [] } }

/-- THREAD_END (R87): the implicit drops follow the end of the segment and the regions (R418); a thread that has ended counts as arrived (R259). -/
def execThreadEnd (s : State) : Host.Outcome State Fault Refusal :=
  if s.thr.flow.status = .running && s.thr.drained then
    .next ((s.modThr Thread.ends).modTile (fun x => (x.dropAll s.ch).freeOwned s.ch)).phaseCheck
  else .next s

/-! ## Queue deadlock (R267) -/

/-- The thread's own resources all at hand: every stream that is still held then waits for something else. -/
def Queues.ample : Queues :=
  { qlw := List.replicate 8 0, qws := List.replicate 8 (0, 0), qcl := List.replicate 16 0, qlc := List.replicate 16 0,
    tok := (List.range 6).foldl (fun c f => wset (tokSet c f 4) (5 * f + 4)) 0 }

/-- Whether syllable `i` is held in stream `sl` of thread (t, h) with the given queues, before it has started. -/
def State.heldWith (s : State) (t h : Nat) (sl : Slot) (i : Instr) (q : Queues) : Bool :=
  let c : Cur := ⟨Fin.ofNat 130 t, Fin.ofNat 4 h, .stream sl, 0⟩
  match runSyl i { (s.updThread t h (fun x => { x with qs := q })) with run := { s.run with cur := c } } with
  | .next s' => s'.run.res == .held && !(s'.threadAt t h).started sl
  | _ => false

/-- The codes of DLWAIT with the queues that have only that resource as the thread has it. -/
def Queues.tests (q : Queues) (sl : Slot) : List (Nat × Queues) :=
  let a := Queues.ample
  let (wp, wn, sp, sn) := tokFifo sl
  let tok := fun (f : Nat) => { a with tok := wput a.tok (5 * f) 5 (wbits q.tok (5 * f) 5) }
  (if sl = .c then [] else [(6, tok wp), (7, tok wn), (8, tok sp), (8, tok sn)]) ++
    [(2, { a with qcl := q.qcl }), (3, { a with qlc := q.qlc }), (4, { a with qlw := q.qlw }), (5, { a with qws := q.qws })]

/-- What syllable `i` of stream `sl` waits for, if that is only the thread's own state. -/
def State.internalWait (s : State) (t h : Nat) (sl : Slot) (i : Instr) : Option Nat :=
  let q := (s.threadAt t h).qs
  if !s.heldWith t h sl i q || s.heldWith t h sl i Queues.ample then none
  else ((q.tests sl).find? (fun p => s.heldWith t h sl i p.2)).map (·.1)

/-- The wait of an engine stream: 0 for an empty queue. A line that must leave is a remote party's (R387). -/
def State.engineWait (s : State) (t h : Nat) (sl : Slot) : Option Nat :=
  if (s.threadAt t h).lineWait sl then none
  else match ((s.threadAt t h).eng sl).head with
  | none => some 0
  | some q => (decode sl q.syl).bind (s.internalWait t h sl)

/-- The wait of the C stream: the drain of EXIT, a full macro-op queue, QPUSH or QPOP. -/
def State.controlWait (s : State) (t h : Nat) : Option Nat :=
  let x := s.threadAt t h
  if x.lineWait .c then none
  else if x.flow.exiting then (if x.enginesIdle then none else some 9)
  else match s.fetch t h x.flow.pc with
    | .error _ => none
    | .ok b =>
      let ws := syllables b
      if !x.flow.ctl && x.queueFull ws then some 1
      else (decode .c (sylOf ws .c)).bind (fun i => match i with
        | .qpush .. => s.internalWait t h .c i
        | .qpop .. => s.internalWait t h .c i
        | _ => none)

/-- DLWAIT when every stream of the thread is held internally. -/
def State.dlWait (s : State) (t h : Nat) : Option Nat :=
  let x := s.threadAt t h
  if x.flow.status ≠ .running || x.active (isService t) || x.uiPending || x.nest.isSome then none
  else match s.controlWait t h, s.engineWait t h .l, s.engineWait t h .w, s.engineWait t h .s with
    | some c, some l, some w, some e => some (c + l * 16 + w * 256 + e * 4096)
    | _, _, _, _ => none

/-- Something of the thread went on: no stretch of internal waits runs. -/
def State.unstick (s : State) : State := if s.thr.stuck = 0 then s else s.modThr (fun x => { x with stuck := 0 })

/-- A C stream that got nowhere: the stretch of cycles in which nothing but the thread itself could free it begins, goes on or is over. -/
def State.stuckTick (s : State) : State :=
  if s.thr.flow.status ≠ .running || s.tile.halted || (s.dlWait s.ct s.ch).isNone then s.unstick
  else if s.thr.stuck = 0 then s.modThr (fun x => { x with stuck := s.run.cycle + 1 })
  else s

/-- The stretch has lasted 4,096 tile cycles. DEDUCED (log entry 115), unsafe. -/
def State.deadlocked (s : State) : Bool := s.thr.stuck ≠ 0 && s.thr.stuck + 4096 ≤ s.run.cycle + 1

/-- QUEUE_DEADLOCK (R267): the trap in the C stream, with DLWAIT; a held C syllable, EXIT included, is named as a control-only resumption. -/
def execQueueDeadlock (s : State) : Host.Outcome State Fault Refusal :=
  match s.dlWait s.ct s.ch with
  | some d =>
    if !s.deadlocked then .next s
    else .next (((s.modThr (fun x => { x with stuck := 0 })).deliver { cause := 8, info := d, slot := some .c }).setRes .trapped)
  | none => .next s

/-! ## An engine syllable -/

/-- The syllables that a loop of count 0 discards leave the queue (R74). DEDUCED (log entry 17), unsafe. -/
def Engine.discard (e : Engine) : Engine :=
  (List.range e.skip).foldl (fun (e : Engine) _ => if e.head.isNone then e else { e.skipOne with skip := e.skip - 1 }) e

/-- What a W syllable of a segment uses (R452): the blocks whose sub-arrays it computes on, and whether the vector lanes. DESIGN CHOICE (log entry 158), unsafe. -/
def State.syllableUses (s : State) (w : Nat) : List Nat × Bool :=
  if w / 2 ^ 31 = 0 then ([], false)
  else match w / 2 ^ 21 % 64 with
    | 0x38 => (s.thr.nest.elim [] (·.names), false)
    | 0x39 => (s.thr.nest.elim [] (·.names), false)
    | 0x3A => ([w / 2 ^ 10 % 64], false)
    | 0x3B => ([w / 2 ^ 10 % 64], false)
    | 0x3E =>
      if w % 4 = 0 then ((s.thr.csr.fwSet (Fin.ofNat 4 (w / 4))).blocks, false)
      else (((List.finRange 4).filter (fun f => (w / 4).testBit f.val)).flatMap (fun f => (s.thr.csr.fwSet f).blocks), false)
    | o => ([], o < 0x32)

/-- A segment takes a syllable into its signature and into what it has used (R410, R452). -/
def State.coverSyl (s : State) (w : Syl) : State :=
  let u := s.syllableUses w.toNat
  let a := s.tile.geom.subArrays u.1
  s.modThr (fun t => { t with seg := { t.seg with sig := BitVec.ofNat 32 (crcRun t.seg.sig.toNat (sylBytes w)), arrays := a.foldr insNat t.seg.arrays, lanes := t.seg.lanes || u.2 } })

/-- What a completed engine syllable leaves: it is gone from the head, and an open segment that covers it takes it into its signature (R74, R410). -/
def State.sylEnds (before s : State) (sl : Slot) : State :=
  match s.run.res with
  | .done =>
    let e := before.thr.eng sl
    let s := s.modThr (·.modEng sl (fun x => x.retire e.loops))
    (match sl, e.head with
     | .w, some q =>
       if s.thr.seg.covers q.seg then s.coverSyl q.syl else s
     | _, _ => s)
  | _ => s

/-! ## STEP (R378) -/

/-- The thread of rank `r` of a context. -/
def State.byRank (s : State) (c r : Nat) : Option (Nat × Nat) :=
  ((List.range 128).flatMap (fun t => (List.range 4).map (fun h => (t, h)))).find? (fun p =>
    (s.tileAt p.1).ctx == c && (s.threadAt p.1 p.2).flow.status == .running && (s.threadAt p.1 p.2).flow.rank == r)

/-- One engine syllable of a halted thread; none when it cannot start. -/
def State.stepEngine (s : State) (sl : Slot) : Option State :=
  let s := s.modThr (·.modEng sl Engine.discard)
  match (s.thr.eng sl).head with
  | none => none
  | some q =>
    if s.active || s.thr.lineWait sl then none
    else match decode sl q.syl with
      | none => none
      | some i =>
        match runSyl i s with
        | .next s' =>
          if s'.run.res = .waitIssue || (s'.run.res = .held && !s'.thr.started sl) then none else some (s.sylEnds s' sl)
        | _ => none

/-- One bundle of a halted thread; none when it cannot issue, or when its C syllable, held since an earlier issue, still cannot start (R378).
DEDUCED (log entry 116), unsafe. -/
def State.stepBundle (s : State) : Option State :=
  if s.thr.flow.exiting || s.thr.flow.inWfi || s.thr.lineWait .c then none
  else match s.issueBundle with
    | .next s' =>
      if s'.run.res = .waitIssue || (s'.run.res = .held && s.thr.flow.ctl && !s'.thr.started .c && s'.thr.flow.held == s.thr.flow.held) then none else some s'
    | _ => none

/-- STEP: it acts as the stepped stream, and the turn is then as before. -/
def execStepThread (s : State) : Host.Outcome State Fault Refusal :=
  match s.run.input with
  | .step c st r =>
    if (s.ctxAt c.toNat).st ≠ .halted then .next (s.ctxError 1)
    else match s.byRank c.toNat r.toNat with
      | none => .next (s.ctxError 1)
      | some (t, h) =>
        let sl : Slot := match st.toNat with | 0 => .c | 1 => .l | 2 => .w | _ => .s
        let a := { s with run := { s.run with cur := ⟨Fin.ofNat 130 t, Fin.ofNat 4 h, .stream sl, 0⟩ } }
        match (if sl = .c then a.stepBundle else a.stepEngine sl) with
        | none => .next (s.ctxError 1)
        | some s' => .next ({ s' with run := { s'.run with cur := s.run.cur } }.ctxError 0)
  | _ => .next s

end Sys2Proof.Machine
end

