-- ==== Sys2Proof/Machine/Dispatch.lean ====
section
/-! DEFINITION. One arm for each constructor of Instr: the meaning that the spec gives it. -/

namespace Sys2Proof.Machine

def exec (i : Instr) (s : State) : Host.Outcome State Fault Refusal :=
  match i with
  | .nop => Sys2Proof.Machine.execNop s
  | .add d a b => Sys2Proof.Machine.execAdd d a b s
  | .sub d a b => Sys2Proof.Machine.execSub d a b s
  | .andReg d a b => Sys2Proof.Machine.execAndReg d a b s
  | .orReg d a b => Sys2Proof.Machine.execOrReg d a b s
  | .xorReg d a b => Sys2Proof.Machine.execXorReg d a b s
  | .shl d a b => Sys2Proof.Machine.execShl d a b s
  | .shr d a b => Sys2Proof.Machine.execShr d a b s
  | .sar d a b => Sys2Proof.Machine.execSar d a b s
  | .slt d a b => Sys2Proof.Machine.execSlt d a b s
  | .sltn d a b => Sys2Proof.Machine.execSltn d a b s
  | .minReg d a b => Sys2Proof.Machine.execMinReg d a b s
  | .maxReg d a b => Sys2Proof.Machine.execMaxReg d a b s
  | .minn d a b => Sys2Proof.Machine.execMinn d a b s
  | .maxn d a b => Sys2Proof.Machine.execMaxn d a b s
  | .andn d a b => Sys2Proof.Machine.execAndn d a b s
  | .mul d a b => Sys2Proof.Machine.execMul d a b s
  | .mulh d a b => Sys2Proof.Machine.execMulh d a b s
  | .mulhn d a b => Sys2Proof.Machine.execMulhn d a b s
  | .div d a b => Sys2Proof.Machine.execDiv d a b s
  | .divn d a b => Sys2Proof.Machine.execDivn d a b s
  | .rem d a b => Sys2Proof.Machine.execRem d a b s
  | .remn d a b => Sys2Proof.Machine.execRemn d a b s
  | .clz d a => Sys2Proof.Machine.execClz d a s
  | .ctz d a => Sys2Proof.Machine.execCtz d a s
  | .popc d a => Sys2Proof.Machine.execPopc d a s
  | .brev d a => Sys2Proof.Machine.execBrev d a s
  | .bext d a p l => Sys2Proof.Machine.execBext d a p l s
  | .addi d a imm => Sys2Proof.Machine.execAddi d a imm s
  | .andi d a imm => Sys2Proof.Machine.execAndi d a imm s
  | .ori d a imm => Sys2Proof.Machine.execOri d a imm s
  | .xori d a imm => Sys2Proof.Machine.execXori d a imm s
  | .shli d a z0 => Sys2Proof.Machine.execShli d a z0 s
  | .shri d a z0 => Sys2Proof.Machine.execShri d a z0 s
  | .sari d a z0 => Sys2Proof.Machine.execSari d a z0 s
  | .slti d a imm => Sys2Proof.Machine.execSlti d a imm s
  | .sltin d a imm => Sys2Proof.Machine.execSltin d a imm s
  | .lih d imm => Sys2Proof.Machine.execLih d imm s
  | .lix d imm => Sys2Proof.Machine.execLix d imm s
  | .beq a b o => Sys2Proof.Machine.execBeq a b o s
  | .bne a b o => Sys2Proof.Machine.execBne a b o s
  | .blt a b o => Sys2Proof.Machine.execBlt a b o s
  | .bge a b o => Sys2Proof.Machine.execBge a b o s
  | .bltn a b o => Sys2Proof.Machine.execBltn a b o s
  | .bgen a b o => Sys2Proof.Machine.execBgen a b o s
  | .jal d o => Sys2Proof.Machine.execJal d o s
  | .jalr d a imm => Sys2Proof.Machine.execJalr d a imm s
  | .loopReg a n => Sys2Proof.Machine.execLoopReg a n s
  | .loopImm c n => Sys2Proof.Machine.execLoopImm c n s
  | .lexit => Sys2Proof.Machine.execLexit s
  | .ldb d a imm => Sys2Proof.Machine.execLdb d a imm s
  | .ldbz d a imm => Sys2Proof.Machine.execLdbz d a imm s
  | .ldh d a imm => Sys2Proof.Machine.execLdh d a imm s
  | .ldhz d a imm => Sys2Proof.Machine.execLdhz d a imm s
  | .ldw d a imm => Sys2Proof.Machine.execLdw d a imm s
  | .ldwz d a imm => Sys2Proof.Machine.execLdwz d a imm s
  | .ldd d a imm => Sys2Proof.Machine.execLdd d a imm s
  | .stb a b o => Sys2Proof.Machine.execStb a b o s
  | .sth a b o => Sys2Proof.Machine.execSth a b o s
  | .stw a b o => Sys2Proof.Machine.execStw a b o s
  | .std a b o => Sys2Proof.Machine.execStd a b o s
  | .qpush a => Sys2Proof.Machine.execQpush a s
  | .qpop d => Sys2Proof.Machine.execQpop d s
  | .csrr d c => Sys2Proof.Machine.execCsrr d c s
  | .csrw d a c => Sys2Proof.Machine.execCsrw d a c s
  | .csrs d a c => Sys2Proof.Machine.execCsrs d a c s
  | .csrc d a c => Sys2Proof.Machine.execCsrc d a c s
  | .userTrap c => Sys2Proof.Machine.execUserTrap c s
  | .tret => Sys2Proof.Machine.execTret s
  | .uiret => Sys2Proof.Machine.execUiret s
  | .wfi => Sys2Proof.Machine.execWfi s
  | .breakpt c => Sys2Proof.Machine.execBreakpt c s
  | .exitThread => Sys2Proof.Machine.execExitThread s
  | .amadd o z0 d a b z r => Sys2Proof.Machine.execAmadd o z0 d a b z r s
  | .ammin o z0 d a b z r => Sys2Proof.Machine.execAmmin o z0 d a b z r s
  | .amminn o z0 d a b z r => Sys2Proof.Machine.execAmminn o z0 d a b z r s
  | .ammax o z0 d a b z r => Sys2Proof.Machine.execAmmax o z0 d a b z r s
  | .ammaxn o z0 d a b z r => Sys2Proof.Machine.execAmmaxn o z0 d a b z r s
  | .amand o z0 d a b z r => Sys2Proof.Machine.execAmand o z0 d a b z r s
  | .amor o z0 d a b z r => Sys2Proof.Machine.execAmor o z0 d a b z r s
  | .amxor o z0 d a b z r => Sys2Proof.Machine.execAmxor o z0 d a b z r s
  | .amswap o z0 d a b z r => Sys2Proof.Machine.execAmswap o z0 d a b z r s
  | .amcas o z0 d a b z r => Sys2Proof.Machine.execAmcas o z0 d a b z r s
  | .amfaddc o z0 d a b z r => Sys2Proof.Machine.execAmfaddc o z0 d a b z r s
  | .amldc o z0 d a b z r => Sys2Proof.Machine.execAmldc o z0 d a b z r s
  | .amld o z0 d a b z r => Sys2Proof.Machine.execAmld o z0 d a b z r s
  | .amst o z0 a b z r => Sys2Proof.Machine.execAmst o z0 a b z r s
  | .tbinit d a b n => Sys2Proof.Machine.execTbinit d a b n s
  | .tbjoin d a => Sys2Proof.Machine.execTbjoin d a s
  | .tbarrive d a b => Sys2Proof.Machine.execTbarrive d a b s
  | .tbexpect a b => Sys2Proof.Machine.execTbexpect a b s
  | .tbwait d a b => Sys2Proof.Machine.execTbwait d a b s
  | .tbdrop a => Sys2Proof.Machine.execTbdrop a s
  | .tbpoll d a h => Sys2Proof.Machine.execTbpoll d a h s
  | .fence o z0 => Sys2Proof.Machine.execFence o z0 s
  | .xfence o z0 e l => Sys2Proof.Machine.execXfence o z0 e l s
  | .phase z0 d => Sys2Proof.Machine.execPhase z0 d s
  | .shuf a b c => Sys2Proof.Machine.execShuf a b c s
  | .segbegin a => Sys2Proof.Machine.execSegbegin a s
  | .segend d a b => Sys2Proof.Machine.execSegend d a b s
  | .cropen d a => Sys2Proof.Machine.execCropen d a s
  | .crclose d => Sys2Proof.Machine.execCrclose d s
  | .prot d a b imm => Sys2Proof.Machine.execProt d a b imm s
  | .unprot imm => Sys2Proof.Machine.execUnprot imm s
  | .rndprep d => Sys2Proof.Machine.execRndprep d s
  | .rndcommit d => Sys2Proof.Machine.execRndcommit d s
  | .rndabort d => Sys2Proof.Machine.execRndabort d s
  | .rndstat d w => Sys2Proof.Machine.execRndstat d w s
  | .rslot d a b => Sys2Proof.Machine.execRslot d a b s
  | .rred d a b => Sys2Proof.Machine.execRred d a b s
  | .rwait d a b => Sys2Proof.Machine.execRwait d a b s
  | .rfree a => Sys2Proof.Machine.execRfree a s
  | .launch d a b => Sys2Proof.Machine.execLaunch d a b s
  | .winbind d a w => Sys2Proof.Machine.execWinbind d a w s
  | .winbindUnbind d w => Sys2Proof.Machine.execWinbindUnbind d w s
  | .vld k v b m d => Sys2Proof.Machine.execVld k v b m d s
  | .vldu k v b m d => Sys2Proof.Machine.execVldu k v b m d s
  | .vlds k v b r w m => Sys2Proof.Machine.execVlds k v b r w m s
  | .vldb k v b m w d => Sys2Proof.Machine.execVldb k v b m w d s
  | .sldq k b m w x d => Sys2Proof.Machine.execSldq k b m w x d s
  | .vst k v b m d => Sys2Proof.Machine.execVst k v b m d s
  | .vstu k b m d => Sys2Proof.Machine.execVstu k b m d s
  | .vsts k v b r w m => Sys2Proof.Machine.execVsts k v b r w m s
  | .cpin k d a n b imm q => Sys2Proof.Machine.execCpin k d a n b imm q s
  | .cpinb k d a n b p q => Sys2Proof.Machine.execCpinb k d a n b p q s
  | .gather k d a b p q => Sys2Proof.Machine.execGather k d a b p q s
  | .wrset k a r => Sys2Proof.Machine.execWrset k a r s
  | .wradv k n r => Sys2Proof.Machine.execWradv k n r s
  | .pref k b c m d => Sys2Proof.Machine.execPref k b c m d s
  | .cpout k d a n b imm => Sys2Proof.Machine.execCpout k d a n b imm s
  | .cploc k d a n b imm => Sys2Proof.Machine.execCploc k d a n b imm s
  | .scatter k d a b => Sys2Proof.Machine.execScatter k d a b s
  | .cprem k d a n b imm => Sys2Proof.Machine.execCprem k d a n b imm s
  | .wflush k w l c => Sys2Proof.Machine.execWflush k w l c s
  | .vadd k y d a b p => Sys2Proof.Machine.execVadd k y d a b p s
  | .vsub k y d a b p => Sys2Proof.Machine.execVsub k y d a b p s
  | .vmul k y d a b p => Sys2Proof.Machine.execVmul k y d a b p s
  | .vmulh k y d a b p => Sys2Proof.Machine.execVmulh k y d a b p s
  | .vmulhn k y d a b p => Sys2Proof.Machine.execVmulhn k y d a b p s
  | .vmin k y d a b p => Sys2Proof.Machine.execVmin k y d a b p s
  | .vminn k y d a b p => Sys2Proof.Machine.execVminn k y d a b p s
  | .vmax k y d a b p => Sys2Proof.Machine.execVmax k y d a b p s
  | .vmaxn k y d a b p => Sys2Proof.Machine.execVmaxn k y d a b p s
  | .vand k y d a b p => Sys2Proof.Machine.execVand k y d a b p s
  | .vor k y d a b p => Sys2Proof.Machine.execVor k y d a b p s
  | .vxor k y d a b p => Sys2Proof.Machine.execVxor k y d a b p s
  | .vshl k y d a b p => Sys2Proof.Machine.execVshl k y d a b p s
  | .vshr k y d a b p => Sys2Proof.Machine.execVshr k y d a b p s
  | .vsar k y d a b p => Sys2Proof.Machine.execVsar k y d a b p s
  | .vfshl k y d a b p => Sys2Proof.Machine.execVfshl k y d a b p s
  | .vfshr k y d a b p => Sys2Proof.Machine.execVfshr k y d a b p s
  | .vclz k y d a p => Sys2Proof.Machine.execVclz k y d a p s
  | .vpopc k y d a p => Sys2Proof.Machine.execVpopc k y d a p s
  | .vadds k y d a b p => Sys2Proof.Machine.execVadds k y d a b p s
  | .vaddsn k y d a b p => Sys2Proof.Machine.execVaddsn k y d a b p s
  | .vsubs k y d a b p => Sys2Proof.Machine.execVsubs k y d a b p s
  | .vsubsn k y d a b p => Sys2Proof.Machine.execVsubsn k y d a b p s
  | .vabs k y d a p => Sys2Proof.Machine.execVabs k y d a p s
  | .vabss k y d a p => Sys2Proof.Machine.execVabss k y d a p s
  | .vcmp k y d a b p c => Sys2Proof.Machine.execVcmp k y d a b p c s
  | .vcmpn k y d a b p c => Sys2Proof.Machine.execVcmpn k y d a b p c s
  | .vsel k y d a b p => Sys2Proof.Machine.execVsel k y d a b p s
  | .vaddi k y d a imm p => Sys2Proof.Machine.execVaddi k y d a imm p s
  | .vshli k y d a z0 p => Sys2Proof.Machine.execVshli k y d a z0 p s
  | .vshri k y d a z0 p => Sys2Proof.Machine.execVshri k y d a z0 p s
  | .vsari k y d a z0 p => Sys2Proof.Machine.execVsari k y d a z0 p s
  | .vbcast k y d a p => Sys2Proof.Machine.execVbcast k y d a p s
  | .vbcastVec k y d a p => Sys2Proof.Machine.execVbcastVec k y d a p s
  | .viota k y d p => Sys2Proof.Machine.execViota k y d p s
  | .viotaRank k y d p => Sys2Proof.Machine.execViotaRank k y d p s
  | .vfadd k y d a b p r => Sys2Proof.Machine.execVfadd k y d a b p r s
  | .vfsub k y d a b p r => Sys2Proof.Machine.execVfsub k y d a b p r s
  | .vfmul k y d a b p r => Sys2Proof.Machine.execVfmul k y d a b p r s
  | .vfma k y d a b p r => Sys2Proof.Machine.execVfma k y d a b p r s
  | .vfmin k y d a b p n => Sys2Proof.Machine.execVfmin k y d a b p n s
  | .vfmax k y d a b p n => Sys2Proof.Machine.execVfmax k y d a b p n s
  | .vfdiv k y d a b p r => Sys2Proof.Machine.execVfdiv k y d a b p r s
  | .vfsqrt k y d a p r => Sys2Proof.Machine.execVfsqrt k y d a p r s
  | .vfrsqrt k y d a p r => Sys2Proof.Machine.execVfrsqrt k y d a p r s
  | .vfexp2 k y d a p r => Sys2Proof.Machine.execVfexp2 k y d a p r s
  | .vflog2 k y d a p r => Sys2Proof.Machine.execVflog2 k y d a p r s
  | .vfcmp k y d a b p c => Sys2Proof.Machine.execVfcmp k y d a b p c s
  | .vfabs k y d a p => Sys2Proof.Machine.execVfabs k y d a p s
  | .vfneg k y d a p => Sys2Proof.Machine.execVfneg k y d a p s
  | .vfclass k y d a p => Sys2Proof.Machine.execVfclass k y d a p s
  | .vcvt k f z0 d a p m => Sys2Proof.Machine.execVcvt k f z0 d a p m s
  | .vquant k y d a q => Sys2Proof.Machine.execVquant k y d a q s
  | .vdequant k y d a q => Sys2Proof.Machine.execVdequant k y d a q s
  | .vred k y d a o p n => Sys2Proof.Machine.execVred k y d a o p n s
  | .vgred k y d a o g c n => Sys2Proof.Machine.execVgred k y d a o g c n s
  | .vscan k y d a o p e n => Sys2Proof.Machine.execVscan k y d a o p e n s
  | .vslideup k y d a b z0 c => Sys2Proof.Machine.execVslideup k y d a b z0 c s
  | .vslidedn k y d a b z0 c => Sys2Proof.Machine.execVslidedn k y d a b z0 c s
  | .vperm k y d a b p z => Sys2Proof.Machine.execVperm k y d a b p z s
  | .vziplo k y d a b p => Sys2Proof.Machine.execVziplo k y d a b p s
  | .vziphi k y d a b p => Sys2Proof.Machine.execVziphi k y d a b p s
  | .vunzipe k y d a b p => Sys2Proof.Machine.execVunzipe k y d a b p s
  | .vunzipo k y d a b p => Sys2Proof.Machine.execVunzipo k y d a b p s
  | .vcompress k y d a p e => Sys2Proof.Machine.execVcompress k y d a p e s
  | .vexpand k y d a p e => Sys2Proof.Machine.execVexpand k y d a p e s
  | .plogic k f d a b => Sys2Proof.Machine.execPlogic k f d a b s
  | .psetFirsti k y d imm => Sys2Proof.Machine.execPsetFirsti k y d imm s
  | .psetFirst k y d a => Sys2Proof.Machine.execPsetFirst k y d a s
  | .psetRange k y d a c => Sys2Proof.Machine.execPsetRange k y d a c s
  | .pcnt k y d a p => Sys2Proof.Machine.execPcnt k y d a p s
  | .pfirst k y d a p => Sys2Proof.Machine.execPfirst k y d a p s
  | .pfirstLast k y d a p => Sys2Proof.Machine.execPfirstLast k y d a p s
  | .vmovwPtov k y d a b => Sys2Proof.Machine.execVmovwPtov k y d a b s
  | .vmovwVtop k y d a b => Sys2Proof.Machine.execVmovwVtop k y d a b s
  | .vmovwVtow k y d a => Sys2Proof.Machine.execVmovwVtow k y d a s
  | .mgo k x w z => Sys2Proof.Machine.execMgo k x w z s
  | .mgog k x w g z => Sys2Proof.Machine.execMgog k x w g z s
  | .mouter k y l a b h j => Sys2Proof.Machine.execMouter k y l a b h j s
  | .mvec k y l d b h j => Sys2Proof.Machine.execMvec k y l d b h j s
  | .aczero k n l => Sys2Proof.Machine.execAczero k n l s
  | .acrd k n l => Sys2Proof.Machine.execAcrd k n l s
  | .acwr k n l => Sys2Proof.Machine.execAcwr k n l s
  | .acpin k x w n l => Sys2Proof.Machine.execAcpin k x w n l s
  | .acfree k n l => Sys2Proof.Machine.execAcfree k n l s
  | .acspill k n l => Sys2Proof.Machine.execAcspill k n l s
  | .acfill k w n l => Sys2Proof.Machine.execAcfill k w n l s
  | .fwstep k f => Sys2Proof.Machine.execFwstep k f s
  | .fwchunk k c m => Sys2Proof.Machine.execFwchunk k c m s
  | .assay k w f g => Sys2Proof.Machine.execAssay k w f g s
  | .mremap k w imm d z0 => Sys2Proof.Machine.execMremap k w imm d z0 s
  | .mshrink k w imm d => Sys2Proof.Machine.execMshrink k w imm d s
  | .issueBundle => Sys2Proof.Machine.execIssueBundle s
  | .wfiWake => Sys2Proof.Machine.execWfiWake s
  | .threadEnd => Sys2Proof.Machine.execThreadEnd s
  | .shufStep => Sys2Proof.Machine.execShufStep s
  | .segDeadline => Sys2Proof.Machine.execSegDeadline s
  | .sectorLand => Sys2Proof.Machine.execSectorLand s
  | .remoteBarrierSignal => Sys2Proof.Machine.execRemoteBarrierSignal s
  | .nestComplete => Sys2Proof.Machine.execNestComplete s
  | .queueDeadlock => Sys2Proof.Machine.execQueueDeadlock s
  | .uiDelivery => Sys2Proof.Machine.execUiDelivery s
  | .clpmQuiesce => Sys2Proof.Machine.execClpmQuiesce s
  | .clpmSave => Sys2Proof.Machine.execClpmSave s
  | .gateClk => Sys2Proof.Machine.execGateClk s
  | .gateRail => Sys2Proof.Machine.execGateRail s
  | .ungateRail => Sys2Proof.Machine.execUngateRail s
  | .ungateClk => Sys2Proof.Machine.execUngateClk s
  | .clpmRestore => Sys2Proof.Machine.execClpmRestore s
  | .clpmRelease => Sys2Proof.Machine.execClpmRelease s
  | .clpmCommandComplete => Sys2Proof.Machine.execClpmCommandComplete s
  | .pgoodTimeout => Sys2Proof.Machine.execPgoodTimeout s
  | .clpmWake => Sys2Proof.Machine.execClpmWake s
  | .fwtimerExpire => Sys2Proof.Machine.execFwtimerExpire s
  | .bar0MirrorWrite => Sys2Proof.Machine.execBar0MirrorWrite s
  | .modrst => Sys2Proof.Machine.execModrst s
  | .fwdoorbell => Sys2Proof.Machine.execFwdoorbell s
  | .read64 => Sys2Proof.Machine.execRead64 s
  | .write64 => Sys2Proof.Machine.execWrite64 s
  | .mgmtOwnerWrite => Sys2Proof.Machine.execMgmtOwnerWrite s
  | .linkdown => Sys2Proof.Machine.execLinkdown s
  | .powerOnReset => Sys2Proof.Machine.execPowerOnReset s
  | .railPgoodTimeout => Sys2Proof.Machine.execRailPgoodTimeout s
  | .moduleReset => Sys2Proof.Machine.execModuleReset s
  | .fireflyReset => Sys2Proof.Machine.execFireflyReset s
  | .bootRom => Sys2Proof.Machine.execBootRom s
  | .attestRequest => Sys2Proof.Machine.execAttestRequest s
  | .throttlePeriod => Sys2Proof.Machine.execThrottlePeriod s
  | .fastlim => Sys2Proof.Machine.execFastlim s
  | .thermlim => Sys2Proof.Machine.execThermlim s
  | .thermalCut => Sys2Proof.Machine.execThermalCut s
  | .securityAlarm => Sys2Proof.Machine.execSecurityAlarm s
  | .hostBar2Write => Sys2Proof.Machine.execHostBar2Write s
  | .launchDoorbell => Sys2Proof.Machine.execLaunchDoorbell s
  | .launchReceive => Sys2Proof.Machine.execLaunchReceive s
  | .launchReplyTimeout => Sys2Proof.Machine.execLaunchReplyTimeout s
  | .dispatchSelect => Sys2Proof.Machine.execDispatchSelect s
  | .nodeComplete => Sys2Proof.Machine.execNodeComplete s
  | .cooperativePoint => Sys2Proof.Machine.execCooperativePoint s
  | .forcedPreempt => Sys2Proof.Machine.execForcedPreempt s
  | .saveDeadline => Sys2Proof.Machine.execSaveDeadline s
  | .deathwatch => Sys2Proof.Machine.execDeathwatch s
  | .createCtx => Sys2Proof.Machine.execCreateCtx s
  | .teardownCtx => Sys2Proof.Machine.execTeardownCtx s
  | .preemptCtx => Sys2Proof.Machine.execPreemptCtx s
  | .haltCtx => Sys2Proof.Machine.execHaltCtx s
  | .resumeCtx => Sys2Proof.Machine.execResumeCtx s
  | .stepThread => Sys2Proof.Machine.execStepThread s
  | .tlbinv => Sys2Proof.Machine.execTlbinv s
  | .tlbinvDone => Sys2Proof.Machine.execTlbinvDone s
  | .fqresp => Sys2Proof.Machine.execFqresp s
  | .repairOnRead => Sys2Proof.Machine.execRepairOnRead s
  | .repairTimeout => Sys2Proof.Machine.execRepairTimeout s
  | .planishVisit => Sys2Proof.Machine.execPlanishVisit s
  | .combineTimeout => Sys2Proof.Machine.execCombineTimeout s
  | .lineDepart => Sys2Proof.Machine.execLineDepart s
  | .postedWriteReceive => Sys2Proof.Machine.execPostedWriteReceive s
  | .postedAck => Sys2Proof.Machine.execPostedAck s
  | .postedTimeout => Sys2Proof.Machine.execPostedTimeout s
  | .remoteLoadReceive => Sys2Proof.Machine.execRemoteLoadReceive s
  | .remoteLoadTimeout => Sys2Proof.Machine.execRemoteLoadTimeout s
  | .flitReceive => Sys2Proof.Machine.execFlitReceive s
  | .linkDown => Sys2Proof.Machine.execLinkDown s
  | .fabSwitch => Sys2Proof.Machine.execFabSwitch s
  | .fabSwitchApply => Sys2Proof.Machine.execFabSwitchApply s
  | .reductionContribution => Sys2Proof.Machine.execReductionContribution s
  | .reductionDeadline => Sys2Proof.Machine.execReductionDeadline s
  | .reductionResult => Sys2Proof.Machine.execReductionResult s
  | .rfreeFrameEnd => Sys2Proof.Machine.execRfreeFrameEnd s
  | .deltaReceive => Sys2Proof.Machine.execDeltaReceive s
  | .deltaAck => Sys2Proof.Machine.execDeltaAck s
  | .voteReceive => Sys2Proof.Machine.execVoteReceive s
  | .decisionReceive => Sys2Proof.Machine.execDecisionReceive s
  | .decisionApply => Sys2Proof.Machine.execDecisionApply s
  | .heartbeatReceive => Sys2Proof.Machine.execHeartbeatReceive s
  | .lossDeclare => Sys2Proof.Machine.execLossDeclare s
  | .lostNotice => Sys2Proof.Machine.execLostNotice s
  | .recoveryReport => Sys2Proof.Machine.execRecoveryReport s
  | .joinGroup => Sys2Proof.Machine.execJoinGroup s
  | .leaveGroup => Sys2Proof.Machine.execLeaveGroup s
  | .startSource => Sys2Proof.Machine.execStartSource s
  | .stopSource => Sys2Proof.Machine.execStopSource s
  | .recastUnit => Sys2Proof.Machine.execRecastUnit s
  | .exportShard => Sys2Proof.Machine.execExportShard s
  | .restoreShard => Sys2Proof.Machine.execRestoreShard s
  | .cancelExport => Sys2Proof.Machine.execCancelExport s
  | .healthEvent => Sys2Proof.Machine.execHealthEvent s
  | .ffReadHallmark => Sys2Proof.Machine.execFfReadHallmark s
  | .ffReadInfield => Sys2Proof.Machine.execFfReadInfield s
  | .ffReadHealth => Sys2Proof.Machine.execFfReadHealth s
  | .vmargWrite => Sys2Proof.Machine.execVmargWrite s
  | .vmargSettled => Sys2Proof.Machine.execVmargSettled s
  | .linkMarginStart => Sys2Proof.Machine.execLinkMarginStart s
  | .linkMarginDone => Sys2Proof.Machine.execLinkMarginDone s
  | .hostLinkRecovery => Sys2Proof.Machine.execHostLinkRecovery s
  | .fabricLinkUp => Sys2Proof.Machine.execFabricLinkUp s
  | .heartbeatSend => Sys2Proof.Machine.execHeartbeatSend s
  | .frameTick => Sys2Proof.Machine.execFrameTick s
  | .powerLoss => Sys2Proof.Machine.execPowerLoss s
  | .fireflyMailbox => Sys2Proof.Machine.execFireflyMailbox s
  | .arrayFault => Sys2Proof.Machine.execArrayFault s
  | .pageRequestResponse => Sys2Proof.Machine.execPageRequestResponse s
  | .reconstructRequest => Sys2Proof.Machine.execReconstructRequest s

end Sys2Proof.Machine
end

