-- ==== Sys2Proof/Machine/Turn.lean ====
section
/-! DEFINITION. Whose turn it is and what is due: the next piece of work, what it leaves for its stream, and what a tile cycle does besides (R2, R116, R117, R265, R266,
R375, R412). One pass over the tiles is one tile cycle; a tile takes the turns of the C, L, W and S streams, the copy engine, the shuffle engine and the array.
A cycle offers each stream and unit of a tile to its threads in round-robin order, from the one after the thread that it served last, until one takes it (R265, R266). -/

namespace Sys2Proof.Machine

/-! ## The work of a turn -/

/-- The tile may issue in this cycle (R116): in the first 16 - L of each aligned group of 16 cycles, which ones of every 16 is DESIGN CHOICE (log entry 150).
DESIGN CHOICE (log entry 13), unsafe. -/
def State.permits (s : State) (t : Nat) : Bool := isService t || s.run.cycle % 16 < 16 - s.edge.level

/-- The tile's node is being saved by force (R336, R370). -/
def State.forcedSave (s : State) (t : Nat) : Bool :=
  match (s.tileAt t).node with
  | none => false
  | some id => s.disp.nodes.any (fun n => n.id == id && n.saving.isSome && !n.coop)

/-- The C stream's turn: the first thing that is due of it. -/
def State.controlWork (s : State) : Option Instr :=
  let x := s.thr
  if x.flow.status ≠ .running || x.lineWait .c then none
  else if s.tile.halted then (if x.committed then some .issueBundle else none)
  else if x.seg.isOpen && x.seg.budget && x.seg.left = 0 && !s.active && !x.committed && !x.awaits .c then some .segDeadline
  else if x.drained then some .threadEnd
  else if x.uiPending && !s.active && !x.committed then some .uiDelivery
  else if x.flow.inWfi then (if s.wakePending s.ct s.ch then some .wfiWake else none)
  else if s.deadlocked then some .queueDeadlock
  else if x.flow.exiting then none
  else if s.permits s.ct then some .issueBundle
  else none

/-- The next syllable of an engine stream, when it may execute: a trap handler and a stop freeze the streams, but what a stream has started completes
(R268, R336, R362); a forced save stops an array syllable between two of its parts (R336, R340). -/
def State.engineWork (s : State) (sl : Slot) : Option Instr :=
  let x := s.thr
  let goesOn := x.bound sl && !(sl == .w && x.chunking && s.forcedSave s.ct)
  if x.flow.status ≠ .running || x.active (isService s.ct) || x.lineWait sl || (s.tile.halted && !goesOn) then none
  else (x.eng sl).head.bind (fun q => decodeOn s.ct sl q.syl)

/-- A sector of the acting thread's commands that may land now; the commands take turns. DESIGN CHOICE (log entry 174), unsafe. -/
def State.copyWork (s : State) : Option Input :=
  let cs := s.thr.cmds.filterMap (fun c => ((List.range c.sectors).find? (fun q => s.maySector s.ct s.ch c q)).map (fun q => (c.id, q)))
  (cs[s.run.cycle % max cs.length 1]?).map (fun p => .sector p.1 p.2)

/-- What is due in the turn that stands, and its input. -/
def State.nextWork (s : State) : Option (Instr × Input) :=
  match s.run.cur.turn with
  | .stream .c => s.controlWork.map (fun i => (i, Input.none))
  | .stream sl => (s.engineWork sl).map (fun i => (i, .none))
  | .copy => s.copyWork.map (fun a => (Instr.sectorLand, a))
  | .shuffle => (match s.thr.progs with | p :: _ => if p.stop || s.ctxHalted s.ct then none else some (.shufStep, .none) | [] => none)
  | .array =>
    match s.thr.nest with
    | none => none
    | some n =>
      if n.fault then (if s.thr.awaits .w then none else some (.arrayFault, .none))
      else if s.forcedSave s.ct then none else some (.nestComplete, .none)

/-- A syllable discarded by a loop of count 0 leaves before the stream's turn (R74). -/
def State.ready (s : State) : State :=
  match s.run.cur.turn with
  | .stream .c => s
  | .stream sl =>
    let x := s.thr
    if (x.eng sl).skip = 0 || x.active (isService s.ct) || s.tile.halted then s else s.modThr (·.modEng sl Engine.discard)
  | _ => s

/-! ## After the work -/

/-- A syllable has retired: the deathwatch of its context starts again (R375). -/
def State.retired (s : State) : State :=
  let c := s.tile.ctx
  if c = 0 then s else s.updCtx c ({ · with dw := 0, ret := true })

/-- What the turn's work leaves: an engine's syllable is gone when it completed, a C stream without progress may be held by its own thread alone. -/
def State.settle (before s : State) (i : Instr) : State :=
  let s := match before.run.cur.turn with
    | .stream .c => s
    | .stream sl => before.sylEnds s sl
    | _ => s
  match before.run.cur.turn with
  | .stream .c =>
    if i = .issueBundle && (s.run.res = .held || s.run.res = .waitIssue) then s.stuckTick
    else if i = .wfiWake || i = .threadEnd || (i = .issueBundle && s.run.res ≠ .trapped) then s.unstick.retired
    else s.unstick
  | .stream _ => if s.run.res = .done then s.unstick.retired else s
  | _ => s

/-- A turn without work: a C stream in the drain of EXIT may be held by its own thread alone. -/
def State.idleTurn (s : State) : State :=
  match s.run.cur.turn with
  | .stream .c => s.stuckTick
  | _ => s

/-! ## What a tile cycle does (R116, R117, R375, R412) -/

def State.allThreads : List (Nat × Nat) := (List.range 130).flatMap (fun t => (List.range 4).map (fun h => (t, h)))

/-- Something of a thread runs against the clock of its windows and requests. -/
def Thread.timed (x : Thread) : Bool := x.flow.status != .absent && (!x.posted || !x.remotes.isEmpty || x.cmds.any (fun c => !c.sent.isEmpty))

def State.windowTicks (s : State) : State :=
  (State.allThreads.filter (fun p => (s.threadAt p.1 p.2).timed)).foldl (fun (s : State) p => s.windowTick p.1 p.2) s

/-- A segment's budget counts the cycles in which its tile was permitted to issue, not while the context is halted nor in a trap handler. -/
def State.budgetTicks (s : State) : State :=
  (State.allThreads.filter (fun p =>
    let x := s.threadAt p.1 p.2
    x.seg.isOpen && x.seg.budget && x.seg.left != 0 && x.flow.status == .running && !x.active (isService p.1) && !(s.tileAt p.1).halted && s.permits p.1)).foldl
    (fun (s : State) p => s.updThread p.1 p.2 (fun x => { x with seg := { x.seg with left := x.seg.left - 1 } })) s

/-- The deathwatch of every running context counts a cycle in which none of its syllables retired; at its limit the event is due (R375). -/
def State.watchTick (s : State) : State :=
  (List.range 64).foldl (fun (s : State) c =>
    if c = 0 then s
    else if (s.ctxAt c).ret then s.updCtx c ({ · with ret := false })
    else if (s.ctxAt c).st ≠ .running then s
    else
      let s := s.updCtx c (fun x => { x with dw := x.dw + 1 })
      if s.dwLimit c ≤ (s.ctxAt c).dw then s.pushAgenda [⟨.deathwatch, .ctx (BitVec.ofNat 6 c)⟩] else s) s

/-- The repair attempts that end now (R212). -/
def State.askTick (s : State) : State :=
  if s.grp.asks.isEmpty then s
  else
    let s := s.sendAsks
    s.pushAgenda ((s.grp.asks.filter (fun a => a.deadline != 0 && (a.deadline ≤ s.run.cycle || s.askHopeless a.atom))).map (fun a => ⟨.repairTimeout, .atom a.atom⟩))

/-- What is due of one node: its completion, the steps of its save, the end of PWAIT. -/
def State.nodeDueNow (s : State) (n : Node) : List Event :=
  let ev := fun (i : Instr) => (⟨i, .node n.id⟩ : Event)
  if n.phase ≠ .running && n.phase ≠ .loading then []
  else if n.saving.any (fun c => c + 2 ^ 20 ≤ s.run.cycle) then [ev .saveDeadline]
  else if n.saving.isSome then [ev (if n.coop then .cooperativePoint else .forcedPreempt)]
  else if n.phase = .running && (n.abort || s.nodeDrained n) then [ev .nodeComplete]
  else if n.req.isSome then [ev .forcedPreempt]
  else []

/-- The dispatcher's turn: while anything waits to be read, loaded or placed it selects. -/
def State.dispatchTick (s : State) : State :=
  let s := s.pushAgenda (s.disp.nodes.flatMap s.nodeDueNow)
  let waits := s.disp.packets.any (fun p => p.plan != some [] || p.fail.isSome) || s.disp.nodes.any (fun n => n.phase == .ready || n.phase == .loading || n.phase == .saved)
  if waits then s.pushAgenda [⟨.dispatchSelect, .none⟩] else s

/-- Whether a turn's work uses the one start that its stream or unit has in a cycle. A C stream's does when its bundle issues, whether its C syllable completes or is held; a trap, a wake, a
delivery, the end of a thread and the repetition of a held syllable do not (R265). An engine stream's does when a syllable starts, whether it completes in that turn, is held or traps (R266). -/
def State.takes (before s : State) (i : Instr) : Bool :=
  match before.run.cur.turn with
  | .stream .c => i == .issueBundle && !before.thr.flow.ctl && (s.run.res == .done || s.run.res == .jumped || s.run.res == .held)
  | .stream sl => !before.thr.started sl && (s.run.res == .done || s.run.res == .trapped || (s.run.res == .held && (s.threadAt before.ct before.ch).started sl))
  | _ => s.run.res != .held && s.run.res != .waitIssue

/-- The place of a turn in the record of the threads served last. -/
def Turn.index : Turn → Fin 7
  | .stream .c => 0
  | .stream .l => 1
  | .stream .w => 2
  | .stream .s => 3
  | .copy => 4
  | .shuffle => 5
  | .array => 6

/-- A unit's turn begins with the thread after the one that it served last. -/
def State.beginTurn (s : State) (t : Fin 130) (u : Turn) : State :=
  { s with run := { s.run with cur := ⟨t, s.run.served[t][u.index] + 1, u, 0⟩ } }

/-- With the cycle, no thread has a bit that hardware has set in it (R8). -/
def State.settleFresh (s : State) : State :=
  (State.allThreads.filter (fun p => !(s.threadAt p.1 p.2).fresh.isEmpty)).foldl (fun (s : State) p => s.updThread p.1 p.2 (fun x => { x with fresh := [] })) s

/-- The end of a tile cycle: the clocks of every unit. -/
def State.endCycle (s : State) : State :=
  let s := s.windowTicks.budgetTicks.watchTick.clusterTick.marginTick.powerTick.hourTick.recastTick.askTick.dispatchTick.slotTick.reduceTick
  (({ s.settleFresh with run := { s.run with cycle := s.run.cycle + 1, fresh := [] } } : State).timerTick).beginTurn 0 (.stream .c)

/-- The turn that follows within a tile; none after the array. -/
def Turn.next : Turn → Option Turn
  | .stream .c => some (.stream .l)
  | .stream .l => some (.stream .w)
  | .stream .w => some (.stream .s)
  | .stream .s => some .copy
  | .copy => some .shuffle
  | .shuffle => some .array
  | .array => none

/-- The turn passes on: to the tile's next unit, to the next tile, or through the end of the cycle. DESIGN CHOICE (log entry 120), unsafe. -/
def State.nextTurn (s : State) : State :=
  let c := s.run.cur
  match c.turn.next with
  | some u => s.beginTurn c.tile u
  | none => if c.tile.val < 129 then s.beginTurn (Fin.ofNat 130 (c.tile.val + 1)) (.stream .c) else s.endCycle

/-- The work of a turn leaves the order of the turns as it was. -/
def State.sameTurn (s before : State) : State := { s with run := { s.run with cur := before.run.cur, served := before.run.served } }

/-- After an offer: a thread that took it is the one served last and the turn passes on; else the next thread has the offer, and after the fourth the turn passes on. -/
def State.offered (s : State) (taken : Bool) : State :=
  let c := s.run.cur
  if taken then ({ s with run := { s.run with served := s.run.served.set c.tile (s.run.served[c.tile].set c.turn.index c.thread) } } : State).nextTurn
  else if c.tries < 3 then { s with run := { s.run with cur := { c with thread := c.thread + 1, tries := c.tries + 1 } } }
  else s.nextTurn

/-! ## Without power (R110, R114, R116) -/

/-- The events that still do something while the main rails are down: those of Firefly and of the 48 V input. -/
def onStandby (i : Instr) : Bool :=
  match i with
  | .powerOnReset | .powerLoss | .railPgoodTimeout | .fireflyReset | .read64 | .write64 | .attestRequest | .securityAlarm | .ffReadHallmark | .ffReadInfield | .ffReadHealth => true
  | _ => false

/-- An event that finds nothing powered: with the main rails down all but those of standby, and without STBY all but the return of 48 V. -/
def State.asleep (s : State) (i : Instr) : Bool := s.edge.dead && !(onStandby i && (s.edge.rails[0] || i == .powerOnReset))

/-! ## Which event comes next (R113) -/

/-- Who outside the module writes a register by this event, if it is such a write. -/
def outsideWrite (e : Event) : Option Writer :=
  match e.input with
  | .bar0 w _ _ _ | .write w _ | .writer w => if w = .firmware then none else some w
  | .offVal .. => some .firefly
  | _ => none

/-- The first event of the agenda that has a property, and the others. -/
def takeFirst (p : Event → Bool) (l : List Event) : Option (Event × List Event) :=
  match l with
  | [] => none
  | e :: r => if p e then some (e, r) else (takeFirst p r).map (fun x => (x.1, e :: x.2))

/-- The event that a step runs, and what stays on the agenda. The writes of the host and of Firefly to registers wait for the last turn of the cycle, so that firmware's writes of the
cycle come before them; the host's then come before Firefly's (R113). Without power there are no turns, and the events run as they stand. -/
def State.pick (s : State) : Option (Event × List Event) :=
  let l := s.run.agenda
  if s.edge.dead then takeFirst (fun _ => true) l
  else match takeFirst (fun e => (outsideWrite e).isNone) l with
    | some x => some x
    | none =>
      if s.run.cur.tile.val = 129 && s.run.cur.turn == .array then
        match takeFirst (fun e => outsideWrite e == some Writer.host) l with
        | some x => some x
        | none => takeFirst (fun _ => true) l
      else none

/-! ## A word placed for the next step -/

/-- A thread that a step finds ready: it runs, nothing holds it, and no handler is active. -/
def Thread.prepared (x : Thread) : Thread :=
  { x with flow := { Flow.reset with status := .running }, csr := { x.csr with uimask := 0, tcause := 0, fwcause := 0 }, seg := Segment.closed, nest := none, stuck := 0,
           remotes := [], posting := [], win := vrep 64 Window.reset }

/-- The bytes of a bundle whose C syllable is `w` and whose other slots are empty. -/
def soloBundle (w : Nat) : List Byte := sylBytes (BitVec.ofNat 32 w) ++ List.replicate 12 0

/-- A C syllable is placed in a bundle at physical address 0, where thread 0 of tile 128 fetches it; an engine syllable at the head of its stream's queue in thread 0 of tile 0,
which then belongs to context 1. The step that follows takes that turn. -/
def State.placeWord (s : State) (w : Nat) : State :=
  let sl := guessSlot w
  let syl : Syl := BitVec.ofNat 32 w
  let ent : QEnt := { syl := syl, cap := if captures (decode .w syl) then some (s.threadAt 0 0).ntab else none, seg := 0, prog := [] }
  let s := { s with edge := { s.edge with dead := false },
                    run := { s.run with agenda := [], cur := ⟨if sl = Slot.c then ⟨128, by omega⟩ else 0, 0, .stream sl, 0⟩ } }
  if sl = .c then
    ({ s with mems := { s.mems with hbm := { mem := s.mems.hbm.mem.write 0 (soloBundle w), poison := delNat 0 s.mems.hbm.poison }, stale := [] } }.updThread 128 0
      Thread.prepared).updTile 128 (fun x => { x with halted := false })
  else
    ((s.updThread 0 0 (fun x => Thread.modEng x.prepared sl (fun _ => { Engine.empty with q := [ent] }))).updTile 0 (fun x => { x with halted := false, ctx := 1, twin := none })).updCtx 1
      ({ · with st := .running })

end Sys2Proof.Machine
end

