-- ==== Sys2Proof/Machine/Step.lean ====
section
/-! DEFINITION. One step of the machine: the event that stands first on the agenda, else the work of the turn that stands. -/

namespace Sys2Proof.Machine

/-- One step. The event that is due comes first; without power nothing but Firefly's and the supply's events act; else the acting stream or unit takes its turn, and the turn passes on. -/
def step (s : State) : Host.Outcome State Fault Refusal :=
  match s.pick with
  | some (e, rest) =>
    let s := { s with run := { s.run with agenda := rest, input := e.input } }
    if !wfEvent e then .refused .notAnEvent
    else if s.asleep e.what then .next s
    else match exec e.what s with
      | .next s' => .next (s'.sameTurn s)
      | o => o
  | none =>
    if s.edge.dead then .fault .unpowered
    else
      let s := s.ready
      match s.nextWork with
      | none => .next ((s.idleTurn.sameTurn s).offered false)
      | some (i, a) =>
        let s := { s with run := { s.run with input := a, res := .done } }
        match exec i s with
        | .next s' => .next (((s.settle s' i).sameTurn s).offered (s.takes s' i))
        | o => o

/-- `s` with the 32-bit word `w` where the next step fetches and runs it (DESIGN CHOICE, log entry 2). DESIGN CHOICE (log entry 124), safe. -/
def State.withFetchWord (s : State) (_nbits w : Nat) : State := s.placeWord w

end Sys2Proof.Machine
end

