-- ==== Sys2Proof/Safety.lean ====
section
/-! DEFINITION. The terms in which claims about the machine are stated: the bytes of its memories, what a completed register syllable leaves, when only the
acting thread has changed, the order of the turns, and a safe step. -/

namespace Sys2Proof.Machine

/-- A byte of some memory of the module: HBM, the synchronisation SRAMs, host memory, the MRAM, and of each tile the scratchpad, the register SRAM, the B stratum
and the lines of its L1. -/
inductive Spot where
  | hbm (a : Nat) | sync0 (a : Nat) | sync1 (a : Nat) | host (a : Nat) | mram (a : Nat)
  | spad (t : Fin 130) (a : Nat) | regs (t : Fin 130) (a : Nat) | bst (t : Fin 130) (a : Nat) | line (t : Fin 130) (a : Nat)
  deriving DecidableEq, Repr

/-- The model's read of one byte. -/
def State.byteAt (s : State) : Spot → Byte
  | .hbm a => s.mems.hbm.mem.byte a
  | .sync0 a => s.mems.sync0.byte a
  | .sync1 a => s.mems.sync1.byte a
  | .host a => s.mems.host.byte a
  | .mram a => s.mems.mram.byte a
  | .spad t a => (s.tileF t).spad.mem.byte a
  | .regs t a => (s.tileF t).regs.mem.byte a
  | .bst t a => (s.tileF t).bst.mem.byte a
  | .line t a => (s.tileF t).l1.data.byte a

/-- Every byte outside `w` reads as before. -/
def SameBytes (s t : State) (w : Spot → Prop) : Prop := ∀ m, ¬ w m → t.byteAt m = s.byteAt m

/-- The acting thread's record and the outcome of the syllable are all in which `t` differs from `s`: no other thread, tile, register or memory has changed. -/
def OnlyThread (s t : State) : Prop := t = (s.modThr (fun _ => t.thr)).setRes t.run.res

/-- WARN with one bit set (R38). -/
def Thread.warned (x : Thread) (c : Bool) (b : Nat) : Thread := if c then { x with csr := { x.csr with warn := wset x.csr.warn b } } else x

/-- What a register syllable leaves that reads the fields `srcs` and writes `v` to field `d` (R27, R37, R60): field `d` of the acting stream holds `v` (s0 and an
engine's fields 8 to 31 discard it); in an engine slot WARN.REG records a source from 12 to 31 and a destination from 8 to 31. -/
def State.regDone (s : State) (srcs : List (BitVec 5)) (d : BitVec 5) (v : Word) : State :=
  (s.modThr (fun x => (x.writeX s.slot d v).warned (s.slot != .c && (8 ≤ d.toNat || srcs.any (fun (a : BitVec 5) => 12 ≤ a.toNat))) 4)).setRes .done

/-- What a syllable leaves that only the C slot accepts and that stands in an engine slot (R37). -/
def State.nopSlot (s : State) : State := (s.modThr (·.warned true 2)).setRes .done

/-- What a trap of the acting stream leaves: what it had begun ended and the exception taken (R11, R361). -/
def State.traps (s : State) (t : Trap) : State := ((if t.cause = 5 then s.forgetAsks else s).endStarted.deliver t).setRes .trapped

/-- What a store leaves that waits for its bytes to leave a window's pending store: the window with those bytes, and the syllable held (R191, R387). -/
def State.postStore (s : State) (w : Vector Window 64) : State := (s.modThr (fun x => { x with win := w, posting := x.posting ++ [s.slot] })).setRes .held

/-- The address of an offset in the acting thread's local space (R77, R86). -/
def State.ownAddr (s : State) (off : Nat) : Word := wofNat (s.tile.localBase.toNat * 2 ^ 32 + off)

/-- The bytes of the acting tile's own scratchpad, none of them in a poisoned unit. -/
def State.cleanOwn (s : State) (off n : Nat) : Prop := ∀ u ∈ s.tile.spad.poison, ¬ (off < 32 * u + 32 ∧ 32 * u < off + n)

/-- Little-endian value of `n` bytes of the acting tile's own scratchpad (R5). -/
def State.ownValue (s : State) (off : Nat) : Nat → Nat
  | 0 => 0
  | n + 1 => (s.byteAt (.spad s.run.cur.tile off)).toNat + 256 * s.ownValue (off + 1) n

/-- A W syllable with token bits `k`, vector sources `srcs`, vector destination `d` and `n` vectors to write can start: its token pops and the room for its pushes are there, its qlw
entries and its room in qws are there, and where it pushes a token no nest runs (R29, R158, R262, R298). -/
def State.vecCan (s : State) (k : BitVec 4) (srcs : List (BitVec 4)) (d : Option (BitVec 4)) (n : Nat) : Prop :=
  s.slot = .w ∧ tokReady s.thr.qs.tok .w k = true ∧ ((k[1] || k[0]) = true → s.thr.nest = none) ∧ s.vecReady srcs d n = true

/-- The operands of a vector syllable, in the order of its sources: a register's 512 bytes, or the oldest entries of qlw (R154, R156). -/
def State.vecArgs (s : State) (srcs : List (BitVec 4)) : List VecVal := (s.takeSrcs srcs).1

/-- What a vector syllable leaves: its token pops and its qlw entries taken, its result, then its token pushes (R158). -/
def State.vecDone (s : State) (k : BitVec 4) (srcs : List (BitVec 4)) (result : State → State) : State :=
  ((result ((s.popTokens k).takeSrcs srcs).2).pushTokens k).setRes .done

/-- The order of the turns: the thread on offer is as many threads after the one that this stream or unit of the tile served last as have declined (R265, R266). -/
def Run.inOrder (r : Run) : Prop := r.cur.tries ≤ 3 ∧ r.cur.thread = r.served[r.cur.tile][r.cur.turn.index] + 1 + Fin.ofNat 4 r.cur.tries

/-- Every byte memory of the module is in its canonical form. -/
def Tile.memoriesWf (x : Tile) : Prop := x.spad.wf ∧ x.regs.wf ∧ x.bst.wf ∧ x.l1.data.wf
def State.memoriesWf (s : State) : Prop :=
  s.mems.hbm.wf ∧ s.mems.sync0.wf ∧ s.mems.sync1.wf ∧ s.mems.host.wf ∧ s.mems.mram.wf ∧ ∀ t, (s.tileF t).memoriesWf

/-- A safe step: the machine goes on. -/
def State.goesOn (s : State) : Prop := ∃ t, step s = .next t

end Sys2Proof.Machine
end

