-- ==== Sys2Proof/Certificates/Slice0/Obligations.lean ====
section
/-! DEFINITION. The statements for the provers. Each names the rules of the spec it rests on, and says where it rests on a choice of the model instead. -/

open Sys2Proof Sys2Proof.Machine

/-! ## The encoding -/

/-- R22 to R33: what the encoder writes, the decoder reads back: for every instruction and every slot in which it is well formed, with every operand. -/
def Obligations.DecodeOfEncode : Prop :=
  ∀ (sl : Slot) (i : Instr), wf sl i = true → encode i < 2 ^ 32 ∧ decodeNat sl (encode i) = some i

/-- R35: a word that a slot accepts is the word of the instruction it stands for, and that instruction is well formed there: no bit of an accepted word goes unread, and a
reserved encoding is never read as something else. -/
def Obligations.EncodeOfDecode : Prop :=
  ∀ (sl : Slot) (w : Nat) (i : Instr), w < 2 ^ 32 → decodeNat sl w = some i → wf sl i = true ∧ encode i = w

/-- R17: the all-zero syllable is NOP and 0xFFFF_FFFF is a reserved encoding, in all four slots. -/
def Obligations.NopAndIll : Prop := ∀ sl : Slot, decode sl 0 = some .nop ∧ decode sl 0xFFFFFFFF = none

/-- R23, R24, R31 to R33, R35: a control syllable (bit 31 clear) with a major that the table does not list is a reserved encoding in every slot, and so is a LOOP or LOOPI
whose length is 0; a private syllable (bit 31 set) with an opcode that its slot's table does not list is one. -/
def Obligations.ReservedOpcodes : Prop :=
  (∀ (sl : Slot) (w : Syl), w.getLsbD 31 = false →
    (w.toNat / 2 ^ 25 % 64 ∈ [0x0D, 0x0E, 0x0F, 0x1B, 0x1C, 0x1D, 0x1E, 0x1F, 0x27, 0x2E, 0x2F] ∨ 0x32 ≤ w.toNat / 2 ^ 25 % 64) → decode sl w = none) ∧
  (∀ (sl : Slot) (w : Syl), w.getLsbD 31 = false → w.toNat / 2 ^ 25 % 64 = 0x18 → w.toNat / 2 ^ 5 % 2 ^ 10 = 0 → decode sl w = none) ∧
  (∀ (sl : Slot) (w : Syl), w.getLsbD 31 = false → w.toNat / 2 ^ 25 % 64 = 0x19 → w.toNat % 2 ^ 10 = 0 → decode sl w = none) ∧
  (∀ w : Syl, w.getLsbD 31 = true →
    (w.toNat / 2 ^ 25 % 64 ∈ [0x0C, 0x0D, 0x0E, 0x0F, 0x17, 0x1B, 0x1C, 0x1D, 0x1E, 0x1F, 0x21, 0x22, 0x23, 0x2E, 0x2F] ∨ 0x36 ≤ w.toNat / 2 ^ 25 % 64) →
    decode .c w = none) ∧
  (∀ w : Syl, w.getLsbD 31 = true → (w.toNat / 2 ^ 21 % 64 ∈ [0x03, 0x06, 0x07] ∨ 0x0E ≤ w.toNat / 2 ^ 21 % 64) → decode .l w = none) ∧
  (∀ w : Syl, w.getLsbD 31 = true → (w.toNat / 2 ^ 21 % 64 ∈ [0x03, 0x04, 0x05, 0x06, 0x07] ∨ 0x0D ≤ w.toNat / 2 ^ 21 % 64) → decode .s w = none) ∧
  (∀ w : Syl, w.getLsbD 31 = true → w.toNat / 2 ^ 21 % 64 ∈ [0x29, 0x37] → decode .w w = none)

/-! ## Registers and the scalar instructions -/

/-- R61, R62: the functions of ALU and MULDIV on 64-bit patterns. -/
def Claims.regReg : List ((BitVec 5 → BitVec 5 → BitVec 5 → Instr) × (Word → Word → Word)) :=
  [(.add, fun x y => x + y), (.sub, fun x y => x - y), (.andReg, fun x y => x &&& y), (.orReg, fun x y => x ||| y), (.xorReg, fun x y => x ^^^ y),
   (.shl, fun x y => x <<< (y.toNat % 64)), (.shr, fun x y => x >>> (y.toNat % 64)), (.sar, fun x y => BitVec.ofInt 64 (x.toInt / 2 ^ (y.toNat % 64))),
   (.slt, fun x y => if x.slt y then 1 else 0), (.sltn, fun x y => if x.ult y then 1 else 0),
   (.minReg, fun x y => if y.slt x then y else x), (.maxReg, fun x y => if x.slt y then y else x),
   (.minn, fun x y => if y.ult x then y else x), (.maxn, fun x y => if x.ult y then y else x), (.andn, fun x y => x &&& ~~~y),
   (.mul, fun x y => x * y), (.mulh, fun x y => BitVec.ofInt 64 (x.toInt * y.toInt / 2 ^ 64)), (.mulhn, fun x y => BitVec.ofNat 64 (x.toNat * y.toNat / 2 ^ 64)),
   (.div, fun x y => if y = 0 then BitVec.allOnes 64 else x.sdiv y), (.divn, fun x y => if y = 0 then BitVec.allOnes 64 else x / y),
   (.rem, fun x y => x.srem y), (.remn, fun x y => x % y)]

/-- R61, R62: the 22 operations on two registers complete in every state, write their result to d and change nothing else (in an engine slot WARN.REG as R37 says). -/
def Obligations.AluAndMuldiv : Prop :=
  ∀ op ∈ Claims.regReg, ∀ (s : State) (d a b : BitVec 5), exec (op.1 d a b) s = .next (s.regDone [a, b] d (op.2 (s.X a) (s.X b)))

/-- R63: CLZ, CTZ, POPC, BREV and BEXT complete in every state with the result of the table. -/
def Obligations.BitOperations : Prop :=
  ∀ (s : State) (d a : BitVec 5), let x := s.X a
    (∃ n : Nat, exec (.clz d a) s = .next (s.regDone [a] d (BitVec.ofNat 64 n)) ∧ n ≤ 64 ∧ x.toNat < 2 ^ (64 - n) ∧ (n < 64 → 2 ^ (63 - n) ≤ x.toNat)) ∧
    (∃ n : Nat, exec (.ctz d a) s = .next (s.regDone [a] d (BitVec.ofNat 64 n)) ∧ n ≤ 64 ∧ x.toNat % 2 ^ n = 0 ∧ (n < 64 → x.getLsbD n = true)) ∧
    exec (.popc d a) s = .next (s.regDone [a] d (BitVec.ofNat 64 ((List.range 64).countP (fun i => x.getLsbD i)))) ∧
    (∃ v : Word, exec (.brev d a) s = .next (s.regDone [a] d v) ∧ ∀ i < 64, v.getLsbD i = x.getLsbD (63 - i)) ∧
    ∀ (pos : BitVec 6) (len : BitVec 4), ∃ v : Word, exec (.bext d a pos len) s = .next (s.regDone [a] d v) ∧
      ∀ i, v.getLsbD i = (decide (i ≤ len.toNat) && x.getLsbD (pos.toNat + i))

/-- R64: the functions of the immediates of 15 bits. -/
def Claims.regImm : List ((BitVec 5 → BitVec 5 → BitVec 15 → Instr) × (Word → BitVec 15 → Word)) :=
  [(.addi, fun x i => x + i.signExtend 64), (.andi, fun x i => x &&& i.signExtend 64), (.ori, fun x i => x ||| i.zeroExtend 64),
   (.xori, fun x i => x ^^^ i.zeroExtend 64), (.slti, fun x i => if x.slt (i.signExtend 64) then 1 else 0), (.sltin, fun x i => if x.ult (i.signExtend 64) then 1 else 0)]

/-- R64: and of the shifts by an amount. -/
def Claims.regShift : List ((BitVec 5 → BitVec 5 → BitVec 6 → Instr) × (Word → Nat → Word)) :=
  [(.shli, fun x n => x <<< n), (.shri, fun x n => x >>> n), (.sari, fun x n => BitVec.ofInt 64 (x.toInt / 2 ^ n))]

/-- R64, R65: the immediates, LIH and LIX complete in every state with the result of the tables; LIX reads its own destination. -/
def Obligations.Immediates : Prop :=
  (∀ op ∈ Claims.regImm, ∀ (s : State) (d a : BitVec 5) (i : BitVec 15), exec (op.1 d a i) s = .next (s.regDone [a] d (op.2 (s.X a) i))) ∧
  (∀ op ∈ Claims.regShift, ∀ (s : State) (d a : BitVec 5) (n : BitVec 6), exec (op.1 d a n) s = .next (s.regDone [a] d (op.2 (s.X a) n.toNat))) ∧
  (∀ (s : State) (d : BitVec 5) (i : BitVec 20), exec (.lih d i) s = .next (s.regDone [] d (BitVec.ofInt 64 (i.toInt * 2 ^ 15)))) ∧
  (∀ (s : State) (d : BitVec 5) (i : BitVec 20), exec (.lix d i) s = .next (s.regDone [d] d (BitVec.ofNat 64 ((s.X d).toNat * 2 ^ 20 + i.toNat)))) ∧
  ∀ s : State, exec .nop s = .next (s.setRes .done)

/-- R27, R60: reading and writing a register field. In the C slot field 0 reads 0 and discards what is written; another field reads what was written to it and leaves every
other field. In an engine slot fields 0 to 7 are that engine's own address registers, fields 8 to 11 read the indexes of its own loops by nesting depth, fields 12 to 31
read 0, and a write to a field from 8 to 31 is discarded. -/
def Obligations.RegisterFields : Prop :=
  ∀ (x : Thread) (v : Word),
    (x.readX .c 0 = 0 ∧ x.writeX .c 0 v = x) ∧
    (∀ n m : BitVec 5, n ≠ 0 → (x.writeX .c n v).readX .c n = v ∧ (m ≠ n → (x.writeX .c n v).readX .c m = x.readX .c m)) ∧
    (∀ sl : Slot, sl ≠ .c → ∀ n m : BitVec 5, n.toNat < 8 → (x.writeX sl n v).readX sl n = v ∧ (m ≠ n → (x.writeX sl n v).readX sl m = x.readX sl m) ∧
      ∀ sl' : Slot, sl' ≠ sl → ∀ k : BitVec 5, (x.writeX sl n v).readX sl' k = x.readX sl' k) ∧
    (∀ sl : Slot, sl ≠ .c → ∀ n : BitVec 5, 8 ≤ n.toNat → x.writeX sl n v = x) ∧
    (∀ sl : Slot, sl ≠ .c → ∀ n : BitVec 5, 12 ≤ n.toNat → x.readX sl n = 0) ∧
    (∀ sl : Slot, sl ≠ .c → ∀ (n : BitVec 5) (outer inner : List LoopEnt) (e : LoopEnt), (x.eng sl).loops = inner ++ e :: outer → n.toNat = 8 + outer.length → outer.length < 4 →
      x.readX sl n = e.index)

/-- R66: when each conditional branch is taken. -/
def Claims.branches : List ((BitVec 5 → BitVec 5 → BitVec 15 → Instr) × (Word → Word → Bool)) :=
  [(.beq, fun x y => x == y), (.bne, fun x y => x != y), (.blt, fun x y => x.slt y), (.bge, fun x y => !x.slt y), (.bltn, fun x y => x.ult y), (.bgen, fun x y => !x.ult y)]

/-- A transfer of control to `pc` (R66, R71): the thread's pc and the marks of a resumption change, and what it may fetch from now on (`branchSync`, R80: its stores to the target before its latest
FENCE leave the L1 for memory); where no store waits to be fetched, nothing else. -/
def Claims.goesTo (s t : State) (pc : Word) : Prop :=
  let f := fun (x : Thread) => { x with flow := { x.flow with pc := pc, ctl := false, inWfi := false } }
  t = (((s.setRes .done).branchSync s.ct s.ch pc).modThr f).setRes .jumped ∧ (s.mems.stale = [] → t = (s.modThr f).setRes .jumped)

/-- R66, R37: a conditional branch in the C slot moves to PC + 16 · Sext(off15) when its condition holds, and otherwise completes without any effect; in an engine slot it
runs as NOP and sets WARN.SLOT. -/
def Claims.ConditionalBranches : Prop :=
  ∀ op ∈ Claims.branches, ∀ (s : State) (a b : BitVec 5) (o : BitVec 15),
    (s.slot = .c → op.2 (s.X a) (s.X b) = true → ∃ t, exec (op.1 a b o) s = .next t ∧ Claims.goesTo s t (s.thr.flow.pc + 16 * o.signExtend 64)) ∧
    (s.slot = .c → op.2 (s.X a) (s.X b) = false → exec (op.1 a b o) s = .next (s.setRes .done)) ∧
    (s.slot ≠ .c → exec (op.1 a b o) s = .next s.nopSlot)

/-- R67, R68, R37: JAL and JALR link and jump; the target of JALR is computed before d is written; a target that is not a multiple of 16 traps (misaligned access, of access
kind fetch: the model's deduction, log entry 36) and writes nothing. In an engine slot both run as NOP and set WARN.SLOT. -/
def Claims.Jumps : Prop :=
  (∀ (s : State) (d : BitVec 5) (o : BitVec 20), s.slot = .c → ∃ t, exec (.jal d o) s = .next t ∧
    Claims.goesTo (s.modThr (·.writeX .c d (s.thr.flow.pc + 16))) t (s.thr.flow.pc + 16 * o.signExtend 64)) ∧
  (∀ (s : State) (d a : BitVec 5) (i : BitVec 15), s.slot = .c → (s.X a + i.signExtend 64).toNat % 16 = 0 → ∃ t, exec (.jalr d a i) s = .next t ∧
    Claims.goesTo (s.modThr (·.writeX .c d (s.thr.flow.pc + 16))) t (s.X a + i.signExtend 64)) ∧
  (∀ (s : State) (d a : BitVec 5) (i : BitVec 15), s.slot = .c → (s.X a + i.signExtend 64).toNat % 16 ≠ 0 → s.thr.awaits .c = false →
    exec (.jalr d a i) s = .next (s.traps { cause := 2, info := 3, addr := s.X a + i.signExtend 64 })) ∧
  ∀ (s : State) (d a : BitVec 5) (o : BitVec 20) (i : BitVec 15), s.slot ≠ .c → exec (.jal d o) s = .next s.nopSlot ∧ exec (.jalr d a i) s = .next s.nopSlot

/-- R70, R71, R73, R37: LOOP, LOOPI and LEXIT in the C slot. A count of 0 moves past the body; otherwise an entry is pushed (start P + 16, last P + 16 · n, index 0) and the
bundle completes, unless four loops are active or the body runs past the innermost one's: that is an illegal-instruction trap. LEXIT pops the innermost entry. -/
def Claims.ControlLoops : Prop :=
  (∀ (s : State) (c : Word) (n : BitVec 10) (i : Instr), s.slot = .c → n ≠ 0 →
    ((∃ a, i = .loopReg a n ∧ c = s.X a) ∨ ∃ k : BitVec 15, i = .loopImm k n ∧ c = k.zeroExtend 64) →
    let P := s.thr.flow.pc
    let last := P + 16 * BitVec.ofNat 64 n.toNat
    let fits := s.thr.flow.loops.length ≠ 4 ∧ ∀ e ∈ s.thr.flow.loops.head?, last.toNat ≤ e.last.toNat
    (c = 0 → exec i s = .next ((s.modThr (fun x => { x with flow := { x.flow with pc := last + 16, ctl := false, inWfi := false } })).setRes .jumped)) ∧
    (c ≠ 0 → fits → exec i s = .next ((s.modThr (fun x => { x with flow := { x.flow with loops := ⟨P + 16, last, c, 0⟩ :: x.flow.loops } })).setRes .done)) ∧
    (c ≠ 0 → ¬ fits → s.thr.awaits .c = false → exec i s = .next (s.traps { cause := 1 }))) ∧
  (∀ s : State, s.slot = .c → exec .lexit s = .next ((s.modThr (fun x => { x with flow := { x.flow with loops := x.flow.loops.drop 1 } })).setRes .done)) ∧
  (∀ s : State, s.slot ≠ .c → exec .lexit s = .next s.nopSlot)

/-- R70, R74, R75: LOOP and LOOPI in an engine slot, with a body of 1 to 256 syllables. A count of 0 discards the next n syllables of the stream; an outermost loop starts an
empty replay buffer, in which its body takes the places 0 to n − 1; an inner loop's body takes the n places after its own; a fifth loop, or an inner body that runs past the
end of its enclosing body, is an illegal-instruction trap in that stream. A count field from 12 to 31 reads as 0 and sets WARN.REG. -/
def Obligations.EngineLoops : Prop :=
  ∀ (s : State) (c : Word) (w : Bool) (n : BitVec 10) (i : Instr), s.slot ≠ .c → 1 ≤ n.toNat → n.toNat ≤ 256 →
    ((∃ a : BitVec 5, i = .loopReg a n ∧ c = s.X a ∧ w = decide (12 ≤ a.toNat)) ∨ ∃ k : BitVec 15, i = .loopImm k n ∧ c = k.zeroExtend 64 ∧ w = false) →
    let e := s.thr.eng s.slot
    let done := fun (e' : Engine) => exec i s = .next ((s.modThr (fun x => (x.warned w 4).modEng s.slot (fun _ => e'))).setRes .done)
    (c = 0 → done { e with skip := n.toNat }) ∧
    (c ≠ 0 → e.loops = [] → done { e with rb := [], pos := 0, loops := [⟨0, BitVec.ofNat 64 (n.toNat - 1), c, 0⟩] }) ∧
    (∀ top rest, c ≠ 0 → e.loops = top :: rest → e.loops.length ≠ 4 → e.pos + n.toNat ≤ top.last.toNat →
      done { e with loops := ⟨BitVec.ofNat 64 (e.pos + 1), BitVec.ofNat 64 (e.pos + n.toNat), c, 0⟩ :: e.loops }) ∧
    (∀ top rest, c ≠ 0 → e.loops = top :: rest → (e.loops.length = 4 ∨ top.last.toNat < e.pos + n.toNat) → s.thr.awaits s.slot = false → exec i s = .next (s.traps { cause := 1 }))

/-- R71: the loop-end test after a bundle at E that completes without a transfer of control, from the innermost entry outward: an entry whose last bundle is not E stands and
the pc moves on; one with iterations left starts its body again with its count one less and its index one more; one without is popped and the next is tested. -/
def Claims.LoopEndTest : Prop :=
  (∀ E : Word, loopEnd E [] = ([], E + 16)) ∧
  ∀ (E : Word) (top : LoopEnt) (rest : List LoopEnt),
    (top.last ≠ E → loopEnd E (top :: rest) = (top :: rest, E + 16)) ∧
    (top.last = E → 1 < top.remaining.toNat →
      loopEnd E (top :: rest) = (⟨top.start, top.last, top.remaining - 1, top.index + 1⟩ :: rest, top.start)) ∧
    (top.last = E → top.remaining.toNat ≤ 1 → loopEnd E (top :: rest) = loopEnd E rest)

/-! ## Scalar memory -/

/-- R76: the bytes of each scalar load and the value it makes of them. -/
def Claims.loads : List ((BitVec 5 → BitVec 5 → BitVec 15 → Instr) × Nat × (Nat → Word)) :=
  [(.ldb, 1, fun v => (BitVec.ofNat 8 v).signExtend 64), (.ldbz, 1, fun v => BitVec.ofNat 64 v), (.ldh, 2, fun v => (BitVec.ofNat 16 v).signExtend 64),
   (.ldhz, 2, fun v => BitVec.ofNat 64 v), (.ldw, 4, fun v => (BitVec.ofNat 32 v).signExtend 64), (.ldwz, 4, fun v => BitVec.ofNat 64 v),
   (.ldd, 8, fun v => BitVec.ofNat 64 v)]

/-- R76: the bytes of each scalar store. -/
def Claims.stores : List ((BitVec 5 → BitVec 5 → BitVec 15 → Instr) × Nat) := [(.stb, 1), (.sth, 2), (.stw, 4), (.std, 8)]

/-- R76 to R78, R37: a scalar load from the thread's own scratchpad writes the sign- or zero-extended little-endian value and changes nothing else; from any other place it
writes what the access gives (`loadAt`, the same for every load); at a misaligned address it traps, with A as the fault address; in an engine slot it runs as NOP. -/
def Obligations.ScalarLoads : Prop :=
  ∀ op ∈ Claims.loads, ∀ (s : State) (d a : BitVec 5) (i : BitVec 15), let A := s.X a + i.signExtend 64
    (∀ off, s.slot = .c → A = s.ownAddr off → off % op.2.1 = 0 → off + op.2.1 ≤ 0x300000 → s.cleanOwn off op.2.1 →
      exec (op.1 d a i) s = .next (s.regDone [] d (op.2.2 (s.ownValue off op.2.1)))) ∧
    (∀ bs t, s.slot = .c → A.toNat % op.2.1 = 0 → (s.setRes .done).loadAt A op.2.1 true = .ok (bs, t) → exec (op.1 d a i) s = .next (t.W d (op.2.2 (leNat bs)))) ∧
    (s.slot = .c → A.toNat % op.2.1 ≠ 0 → s.thr.awaits .c = false → exec (op.1 d a i) s = .next (s.traps { cause := 2, info := 0, addr := A })) ∧
    (s.slot ≠ .c → exec (op.1 d a i) s = .next s.nopSlot)

/-- R76 to R78, R37: a scalar store to the thread's own scratchpad, where no live barrier stands, leaves the low bytes of X(b) there, low byte first, and changes no other byte,
no register and no flag; to any other place it does what the access does (`storeAt`); at a misaligned address it traps; in an engine slot it runs as NOP. -/
def Claims.ScalarStores : Prop :=
  ∀ op ∈ Claims.stores, ∀ (s : State) (a b : BitVec 5) (o : BitVec 15), let A := s.X a + o.signExtend 64
    (∀ off, s.slot = .c → A = s.ownAddr off → off % op.2 = 0 → off + op.2 ≤ 0x300000 → s.tile.touchesLive off op.2 = false → s.thr.posting.contains .c = false →
      ∃ t, exec (op.1 a b o) s = .next t ∧
        (∀ i < op.2, t.byteAt (.spad s.run.cur.tile (off + i)) = ((s.X b) >>> (8 * i)).setWidth 8) ∧
        SameBytes s t (fun m => ∃ i < op.2, m = .spad s.run.cur.tile (off + i)) ∧
        (∀ u h, t.threadAt u h = s.threadAt u h) ∧ t.run = { s.run with res := .done } ∧ t.ctxs = s.ctxs ∧ t.edge = s.edge) ∧
    (∀ t, s.slot = .c → A.toNat % op.2 = 0 → (s.setRes .done).storeAt A (leBytes op.2 (s.X b).toNat) true = .ok t → exec (op.1 a b o) s = .next t) ∧
    (s.slot = .c → A.toNat % op.2 ≠ 0 → s.thr.awaits .c = false → exec (op.1 a b o) s = .next (s.traps { cause := 2, info := 1, addr := A })) ∧
    (s.slot ≠ .c → exec (op.1 a b o) s = .next s.nopSlot)

/-- R78: a scalar store that does not wait for posted bytes to leave (R387), to a granule that holds a live barrier, raises the barrier-store violation and leaves memory as it was. -/
def Claims.BarrierStoreViolation : Prop :=
  ∀ op ∈ Claims.stores, ∀ (s : State) (a b : BitVec 5) (o : BitVec 15) (off : Nat),
    s.slot = .c → s.X a + o.signExtend 64 = s.ownAddr off → off % op.2 = 0 → off + op.2 ≤ 0x300000 → s.tile.live off = true → s.thr.posting.contains .c = false → s.thr.awaits .c = false →
    exec (op.1 a b o) s = .next (s.traps { cause := 7, addr := s.ownAddr off })

/-! ## Queues and CSRs -/

/-- R81, R261, R37: QPUSH appends X(a) to qcl unless that holds 32 entries; QPOP moves the oldest entry of qlc to d unless there is none; the one that cannot complete is held
and has taken nothing. In an engine slot both run as NOP. -/
def Obligations.ScalarQueues : Prop :=
  ∀ (s : State) (a d : BitVec 5),
    (s.slot = .c → s.thr.qs.qcl.length < 32 → exec (.qpush a) s = .next ((s.modThr (fun x => { x with qs := { x.qs with qcl := x.qs.qcl ++ [s.X a] } })).setRes .done)) ∧
    (s.slot = .c → 32 ≤ s.thr.qs.qcl.length → exec (.qpush a) s = .next (s.setRes .held)) ∧
    (∀ v r, s.slot = .c → s.thr.qs.qlc = v :: r → exec (.qpop d) s = .next ((s.modThr (fun x => ({ x with qs := { x.qs with qlc := r } } : Thread).writeX .c d v)).setRes .done)) ∧
    (s.slot = .c → s.thr.qs.qlc = [] → exec (.qpop d) s = .next (s.setRes .held)) ∧
    (s.slot ≠ .c → exec (.qpush a) s = .next s.nopSlot ∧ exec (.qpop d) s = .next s.nopSlot)

/-- The CSR access of R83 to R85 is not held back: the CSR is not drain-ordered, or every earlier engine syllable has completed (in a handler, and in a control-only
resumption, it is not waited for). -/
def Claims.csrFree (s : State) (n : Nat) : Prop := drainOrdered n = false ∨ s.active = true ∨ s.thr.flow.ctl = true ∨ s.thr.enginesIdle = true

/-- R8, R83 to R85: the CSR instructions give d the CSR's old value. CSRW writes X(a) to every field under its access code, CSRS and CSRC set and clear RW fields, and both are
reads where a is 0; a bit that hardware has set in the same cycle stays set; for a CSR below 0x800 the write changes the acting thread alone. An unassigned number, a privileged number at user privilege, and a write to the identity
range raise the illegal-instruction trap and change nothing. -/
def Obligations.CsrInstructions : Prop :=
  ∀ (s : State) (d a : BitVec 5) (c : BitVec 12), s.slot = .c →
    (∀ o, s.csrRead s.ct s.ch c.toNat = some o → Claims.csrFree s c.toNat →
      exec (.csrr d c) s = .next (s.regDone [] d o) ∧
      (a = 0 → exec (.csrs d a c) s = .next (s.regDone [] d o) ∧ exec (.csrc d a c) s = .next (s.regDone [] d o)) ∧
      (c.toNat < 0x800 →
        exec (.csrw d a c) s = .next ((s.modThr (fun x => x.putCsr c.toNat o (csrNew .write c.toNat o (s.X a) ||| freshBits x.fresh c.toNat))).regDone [] d o) ∧
        (a ≠ 0 → exec (.csrs d a c) s = .next ((s.modThr (fun x => x.putCsr c.toNat o (o ||| (s.X a &&& rwMask c.toNat) ||| freshBits x.fresh c.toNat))).regDone [] d o) ∧
          exec (.csrc d a c) s = .next ((s.modThr (fun x => x.putCsr c.toNat o (o &&& ~~~(s.X a &&& rwMask c.toNat) ||| freshBits x.fresh c.toNat))).regDone [] d o))) ∧
      (0x800 ≤ c.toNat → c.toNat < 0xC00 →
        exec (.csrw d a c) s = .next (((s.setRes .done).writePriv (s.ct - 128) s.ch c.toNat .firmware .write (s.X a)).W d o) ∧
        (a ≠ 0 → exec (.csrs d a c) s = .next (((s.setRes .done).writePriv (s.ct - 128) s.ch c.toNat .firmware .set (s.X a)).W d o) ∧
          exec (.csrc d a c) s = .next (((s.setRes .done).writePriv (s.ct - 128) s.ch c.toNat .firmware .clear (s.X a)).W d o)))) ∧
    (s.csrRead s.ct s.ch c.toNat = none → s.thr.awaits .c = false →
      exec (.csrr d c) s = .next (s.traps { cause := 1 }) ∧ exec (.csrw d a c) s = .next (s.traps { cause := 1 }) ∧
      exec (.csrs d a c) s = .next (s.traps { cause := 1 }) ∧ exec (.csrc d a c) s = .next (s.traps { cause := 1 })) ∧
    (0x800 ≤ c.toNat → c.toNat < 0xC00 → s.isFw = false → s.csrRead s.ct s.ch c.toNat = none) ∧
    (0xC00 ≤ c.toNat → s.thr.awaits .c = false → exec (.csrw d a c) s = .next (s.traps { cause := 1 }) ∧
      (a ≠ 0 → exec (.csrs d a c) s = .next (s.traps { cause := 1 }) ∧ exec (.csrc d a c) s = .next (s.traps { cause := 1 })))

/-! ## Exceptions and the system instructions -/

/-- R361, R362, R359: entry into a user handler. A trap of a thread of a compute tile that has a handler (TVEC not 0) and does not run it, and whose cause does not unwind an open
region, is taken: TEPC holds the bundle at which the C stream stood, TCAUSE the cause, the stream, the deferred fault, CTLONLY, INFO and ACTIVE, with SKIP 0, TADDR the fault
address; s24 to s31 are exchanged with the thread's trap shadow bank; the C stream continues at TVEC. No byte of memory and nothing outside the thread changes. -/
def Claims.UserTrapEntry : Prop :=
  ∀ (s : State) (t : Trap), s.isFw = false → s.tile.twin = none → (t.cause = 11 → s.ctxs[Fin.ofNat 64 s.tile.ctx].record.brkHalt = false) →
    (s.thr.crs = [] ∨ (t.cause ≠ 5 ∧ t.cause ≠ 10)) → s.thr.csr.tvec ≠ 0 → wbit s.thr.csr.tcause 13 = false →
    let u := s.deliver t
    let x := s.thr
    u = s.modThr (fun _ => u.thr) ∧ SameBytes s u (fun _ => False) ∧
    u.thr.csr = { x.csr with tepc := x.flow.pc, taddr := t.addr, tcause := u.thr.csr.tcause } ∧
    wbits u.thr.csr.tcause 0 8 = t.cause % 256 ∧ wbits u.thr.csr.tcause 8 2 = slotCode (t.slot.getD s.slot) ∧ wbit u.thr.csr.tcause 10 = t.defer.isSome ∧
    wbit u.thr.csr.tcause 11 = x.flow.ctl ∧ wbit u.thr.csr.tcause 12 = false ∧ wbit u.thr.csr.tcause 13 = true ∧
    wbits u.thr.csr.tcause 16 16 = (t.defer.getD t.info) % 2 ^ 16 ∧ wbits u.thr.csr.tcause 32 32 = 0 ∧
    u.thr.flow = { x.flow with pc := x.csr.tvec, ctl := false, exiting := false, inWfi := false, held := .no, stack := x.flow.held.stands :: x.flow.stack } ∧
    u.thr.regs = { x.regs with x := u.thr.regs.x, shTrap := u.thr.regs.shTrap } ∧
    (∀ n : Fin 32, n.val < 24 → u.thr.regs.x[n] = x.regs.x[n]) ∧
    (∀ k : Fin 8, u.thr.regs.x[Fin.ofNat 32 (24 + k.val)] = x.regs.shTrap[k] ∧ u.thr.regs.shTrap[k] = x.regs.x[Fin.ofNat 32 (24 + k.val)]) ∧
    u.thr.eL = x.eL.setProg [] ∧ u.thr.eW = x.eW ∧ u.thr.eS = x.eS.setProg [] ∧ u.thr.qs = x.qs

/-- R104: entry into the firmware handler. A trap on a firmware thread whose tile has a handler (FWTVEC not 0), that does not run it and whose cause does not unwind an open region saves the stopping point in FWEPC and the
cause in FWCAUSE, sets FWCAUSE.ACTIVE, swaps s24 to s31 with the trap shadow bank and starts the thread at FWTVEC. While ACTIVE is 1, or with FWTVEC 0, the trap halts both
service tiles, Firefly's log takes an entry, and the module accepts no launch. -/
def Claims.FirmwareTrapEntry : Prop :=
  ∀ (s : State) (t : Trap), s.isFw = true → s.tile.twin = none → (s.thr.crs = [] ∨ (t.cause ≠ 5 ∧ t.cause ≠ 10)) →
    let u := s.deliver t
    let x := s.thr
    let vec := s.svc[Fin.ofNat 2 (s.ct - 128)].fwtvec
    (vec ≠ 0 → wbit x.csr.fwcause 13 = false →
      u = s.modThr (fun _ => u.thr) ∧ SameBytes s u (fun _ => False) ∧
      u.thr.csr = { x.csr with fwepc := x.flow.pc, fwcause := u.thr.csr.fwcause } ∧
      wbits u.thr.csr.fwcause 0 8 = t.cause % 256 ∧ wbits u.thr.csr.fwcause 8 2 = slotCode (t.slot.getD s.slot) ∧ wbit u.thr.csr.fwcause 11 = x.flow.ctl ∧
      wbit u.thr.csr.fwcause 13 = true ∧ wbits u.thr.csr.fwcause 16 16 = (t.defer.getD t.info) % 2 ^ 16 ∧
      u.thr.flow.pc = vec ∧ u.thr.regs = x.regs.swapTrap ∧ u.thr.eL = x.eL.setProg [] ∧ u.thr.eW = x.eW ∧ u.thr.eS = x.eS.setProg [] ∧ u.thr.qs = x.qs) ∧
    (vec = 0 ∨ wbit x.csr.fwcause 13 = true →
      (u.tileAt 128).halted = true ∧ (u.tileAt 129).halted = true ∧ u.disp.stopped = true ∧ u.edge.fwHalt = true ∧ u.edge.logHead = s.edge.logHead + 1)

/-- R361, R377: a trap that no region and no handler takes kills the context: the teardown, with the cause and the fields of the fault record, is the next event, and nothing
else has changed; a breakpoint of a context with BRKHALT halts the context instead. -/
def Claims.TrapKillsOrHalts : Prop :=
  ∀ (s : State) (t : Trap), s.isFw = false → s.tile.twin = none →
    let c := s.tile.ctx
    let brk := s.ctxs[Fin.ofNat 64 c].record.brkHalt
    (t.cause = 11 → brk = true → s.deliver t = { s with ctxs := s.ctxs.set (Fin.ofNat 64 c) { s.ctxs[Fin.ofNat 64 c] with brk := true } }.urgent .haltCtx (.ctx (BitVec.ofNat 6 c))) ∧
    ((t.cause ≠ 11 ∨ brk = false) → (s.thr.crs = [] ∨ (t.cause ≠ 5 ∧ t.cause ≠ 10)) → (s.thr.csr.tvec = 0 ∨ wbit s.thr.csr.tcause 13 = true) →
      s.deliver t = { s with ctxs := s.ctxs.set (Fin.ofNat 64 c) { s.ctxs[Fin.ofNat 64 c] with
        kill := some { cause := t.cause, lost := false, node := s.tile.node, addr := t.addr, tile := s.ct, thread := s.ch, access := if 2 ≤ t.cause ∧ t.cause ≤ 4 then t.info else 0 } } }.urgent
          .teardownCtx (.ctx (BitVec.ofNat 6 c)))

/-- R87, R359, R37: TRAP and BREAK raise the user trap (cause 12) and the breakpoint (cause 11), with their code as INFO; in an engine slot they run as NOP. That entry is their
whole effect; UserTrapEntry, FirmwareTrapEntry and TrapKillsOrHalts say what it is. -/
def Claims.TrapAndBreak : Prop :=
  ∀ (s : State) (c : BitVec 15),
    (s.slot = .c → s.thr.awaits .c = false →
      exec (.userTrap c) s = .next (s.traps { cause := 12, info := c.toNat }) ∧ exec (.breakpt c) s = .next (s.traps { cause := 11, info := c.toNat })) ∧
    (s.slot ≠ .c → exec (.userTrap c) s = .next s.nopSlot ∧ exec (.breakpt c) s = .next s.nopSlot)

/-- R87, R104, R362, R37: TRET in a handler swaps s24 to s31 back, clears ACTIVE and SKIP and resumes the C stream at TEPC (FWEPC at firmware privilege), as a control-only
resumption when CTLONLY is 1, with the engine syllable that STREAM names discarded first when SKIP is 1; outside a handler it traps as an illegal instruction. -/
def Claims.ReturnFromTrap : Prop :=
  ∀ s : State, s.slot = .c →
    let x := s.thr
    let fw := s.isFw
    let c := if fw then x.csr.fwcause else x.csr.tcause
    (wbit c 13 = true → ∃ y, exec .tret s = .next ((s.modThr (fun _ => y)).setRes .jumped) ∧
      y.flow = { x.flow with pc := if fw then x.csr.fwepc else x.csr.tepc, ctl := wbit c 11, exiting := false, inWfi := false,
                             held := x.flow.stack.headD .no, stack := x.flow.stack.drop 1 } ∧
      y.regs = x.regs.swapTrap ∧ y.csr = (if fw then { x.csr with fwcause := wclr (wclr c 13) 12 } else { x.csr with tcause := wclr (wclr c 13) 12 }) ∧
      y.eL = (if wbit c 12 ∧ wbits c 8 2 = 1 then x.eL.skipOne else x.eL) ∧ y.eW = (if wbit c 12 ∧ wbits c 8 2 = 2 then x.eW.skipOne else x.eW) ∧
      y.eS = (if wbit c 12 ∧ wbits c 8 2 = 3 then x.eS.skipOne else x.eS) ∧ y.qs = x.qs) ∧
    (wbit c 13 = false → x.awaits .c = false → exec .tret s = .next (s.traps { cause := 1 }))

/-- R361, R362: the swap of s24 to s31 with a shadow bank undoes itself, so that a handler that returns gives the thread its registers back. -/
def Claims.SwapIsInvolution : Prop := ∀ r : Regs, r.swapTrap.swapTrap = r ∧ r.swapUi.swapUi = r

/-- R252, R462: a pending user-level interrupt is delivered outside a trap handler and while the C stream awaits no peer: UIEPC holds the bundle to resume at, s24 to s31 are
exchanged with the user-interrupt shadow bank, UIMASK.ACTIVE is set and the C stream continues at UIVEC. UIRET undoes it, and outside such a handler traps as an illegal
instruction. -/
def Claims.UserInterrupts : Prop :=
  ∀ s : State,
    (s.thr.flow.status = .running → s.thr.uiPending = true → s.active = false → s.thr.committed = false →
      ∃ y, exec .uiDelivery s = .next (s.modThr (fun _ => y)) ∧
        (s.thr.flow.inWfi = false → y.csr = { s.thr.csr with uiepc := s.thr.flow.pc, uiCtl := s.thr.flow.ctl, uimask := wset s.thr.csr.uimask 8 } ∧ y.regs = s.thr.regs.swapUi) ∧
        (s.thr.flow.inWfi = true → y.csr.uiepc = (loopEnd s.thr.flow.pc s.thr.flow.loops).2 ∧ y.csr.uiCtl = false) ∧
        y.flow.pc = s.thr.csr.uivec ∧ wbit y.csr.uimask 8 = true ∧ y.flow.ctl = false ∧ y.flow.inWfi = false) ∧
    (s.slot = .c → wbit s.thr.csr.uimask 8 = true → ∃ y, exec .uiret s = .next ((s.modThr (fun _ => y)).setRes .jumped) ∧
      y.regs = s.thr.regs.swapUi ∧ y.csr = { s.thr.csr with uimask := wclr s.thr.csr.uimask 8, uiCtl := false } ∧
      y.flow = { s.thr.flow with pc := s.thr.csr.uiepc, ctl := s.thr.csr.uiCtl, inWfi := false, held := s.thr.flow.stack.headD .no, stack := s.thr.flow.stack.drop 1 }) ∧
    (s.slot = .c → wbit s.thr.csr.uimask 8 = false → s.thr.awaits .c = false → exec .uiret s = .next (s.traps { cause := 1 }))

/-- R87, R107, R37: WFI completes at once where a wake event is pending and otherwise holds the C stream, which WFI_WAKE lets go on after WFI's bundle once one is pending. EXIT
stops the C stream from issuing; THREAD_END ends the thread once its engines have drained. In an engine slot the two instructions, and TRET and UIRET, run as NOP. -/
def Claims.WaitAndExit : Prop :=
  ∀ s : State,
    (s.slot = .c → s.wakePending s.ct s.ch = true → exec .wfi s = .next (s.setRes .done)) ∧
    (s.slot = .c → s.wakePending s.ct s.ch = false → exec .wfi s = .next ((s.modThr (fun x => { x with flow := { x.flow with inWfi := true } })).setRes .held)) ∧
    (s.thr.flow.inWfi = true → s.wakePending s.ct s.ch = true → ∃ y, exec .wfiWake s = .next (s.modThr (fun _ => y)) ∧
      y = { s.thr with flow := { s.thr.flow with pc := (loopEnd s.thr.flow.pc s.thr.flow.loops).2, loops := (loopEnd s.thr.flow.pc s.thr.flow.loops).1, ctl := false, inWfi := false, held := .no } }) ∧
    (s.slot = .c → s.active = false → exec .exitThread s = .next ((s.modThr (fun x => { x with flow := { x.flow with exiting := true } })).setRes .held)) ∧
    (s.slot = .c → s.active = true → ∃ y, exec .exitThread s = .next ((s.modThr (fun _ => y)).setRes .held) ∧ y.flow.exiting = true ∧ y.eL = Engine.empty ∧ y.eW = Engine.empty ∧ y.eS = Engine.empty ∧ y.nest = none ∧
      y.qs = { s.thr.qs with qlw := [], qws := [], qcl := [], qlc := [] }) ∧
    (s.thr.flow.status = .running → s.thr.drained = true →
      exec .threadEnd s = .next ((s.modThr Thread.ends).modTile (fun x => (x.dropAll s.ch).freeOwned s.ch)).phaseCheck ∧
      s.thr.ends.flow.status = .ended ∧ s.thr.ends.qs.qlw = [] ∧ s.thr.ends.qs.qws = [] ∧ s.thr.ends.qs.qcl = [] ∧ s.thr.ends.qs.qlc = [] ∧ s.thr.ends.crs = [] ∧
      s.thr.ends.seg.isOpen = false ∧ ∀ f < 6, tokCnt s.thr.ends.qs.tok f = 0) ∧
    (s.slot ≠ .c → exec .wfi s = .next s.nopSlot ∧ exec .exitThread s = .next s.nopSlot ∧ exec .tret s = .next s.nopSlot ∧ exec .uiret s = .next s.nopSlot)

/-! ## One step -/

/-- A step runs the decoded instruction, whatever the state. (1) The C stream: where the turn is a C stream that may issue and the 16 bytes at its pc are a bundle without a reserved
syllable and with room for its engine syllables, step is exec of the C syllable's instruction, then the end of the bundle (`bundleEnds`: the engine syllables are appended, the
pc moves on), the bookkeeping of the stream (`settle`) and of the turn. (2) An engine stream: step is exec of the instruction that the head of its queue or replay buffer decodes to,
then that the syllable leaves the head if it completed. (3) An event that is due (`pick`: the agenda's first, but for writes from outside that wait for the cycle's end, R113) and not without power is executed
with its input. (4) Where the turn has no work, the turn passes on. (5) In the turn of the copy engine, the shuffle engine or the array, the sector, the shuffle step or the nest that is
due is executed likewise. -/
def Obligations.StepRunsDecoded : Prop :=
  (∀ (s : State) (b : List Byte) (i : Instr) (t : State), s.run.agenda = [] → s.edge.dead = false → s.run.cur.turn = .stream .c → s.thr.flow.status = .running →
    s.thr.flow.exiting = false → s.controlWork = some .issueBundle → s.fetch s.ct s.ch s.thr.flow.pc = .ok b → reservedSlot s.ct (syllables b) = none →
    (s.thr.flow.ctl = true ∨ s.active = true ∨ (s.thr.queueFull (syllables b) = false ∧ s.thr.captureFull (syllables b) = false)) →
    decode .c (sylOf (syllables b) .c) = some i →
    let s' : State := { s with run := { s.run with input := .none, res := .done } }
    exec i s' = .next t →
    let u := s'.bundleEnds t (syllables b)
    step s = .next (((s'.settle u .issueBundle).sameTurn s').offered (s'.takes u .issueBundle))) ∧
  (∀ (s : State) (sl : Slot) (q : QEnt) (i : Instr) (t : State), s.run.agenda = [] → s.edge.dead = false → s.run.cur.turn = .stream sl → sl ≠ .c →
    s.thr.flow.status = .running → s.active = false → s.tile.halted = false → s.thr.lineWait sl = false → (s.thr.eng sl).skip = 0 →
    (s.thr.eng sl).head = some q → decodeOn s.ct sl q.syl = some i →
    let s' : State := { s with run := { s.run with input := .none, res := .done } }
    exec i s' = .next t →
    step s = .next (((s'.settle t i).sameTurn s').offered (s'.takes t i))) ∧
  (∀ (s : State) (e : Event) (rest : List Event) (t : State), s.pick = some (e, rest) → wfEvent e = true → s.asleep e.what = false →
    let s' : State := { s with run := { s.run with agenda := rest, input := e.input } }
    exec e.what s' = .next t → step s = .next (t.sameTurn s')) ∧
  (∀ s : State, s.run.agenda = [] → s.edge.dead = false → s.ready.nextWork = none → step s = .next ((s.ready.idleTurn.sameTurn s.ready).offered false)) ∧
  (∀ (s : State) (i : Instr) (a : Input) (t : State), s.run.agenda = [] → s.edge.dead = false → s.run.cur.turn ∈ [Turn.copy, .shuffle, .array] → s.nextWork = some (i, a) →
    let s' : State := { s with run := { s.run with input := a, res := .done } }
    exec i s' = .next t → step s = .next ((t.sameTurn s').offered (t.run.res != .held && t.run.res != .waitIssue)))

/-- R74, R410: an engine syllable that completes is gone from the head of its queue; inside a loop it is kept in the replay buffer, and the loop-end test follows. One that is held,
waits or traps stays where it is. -/
def Claims.EngineSyllableLeaves : Prop :=
  ∀ (before t : State) (sl : Slot), sl ≠ .c → before.run.cur.turn = .stream sl → t.run.cur = before.run.cur →
    (t.run.res = .done → (before.sylEnds t sl).thr.eng sl = (t.thr.eng sl).retire (before.thr.eng sl).loops) ∧
    (t.run.res ≠ .done → before.sylEnds t sl = t) ∧
    (∀ (e : Engine) (q : QEnt) (r : List QEnt), e.q = q :: r → (e.retire []).q = r ∧ (e.retire []).rb = e.rb ∧ (e.retire []).loops = e.loops) ∧
    (∀ (e : Engine) (q : QEnt) (r : List QEnt) (was : LoopEnt) (w : List LoopEnt), e.q = q :: r → e.pos = e.rb.length →
      (e.retire (was :: w)).q = r ∧ (e.retire (was :: w)).rb = e.rb ++ [{ q with prog := [] }]) ∧
    (∀ (e : Engine) (was : LoopEnt) (w : List LoopEnt), e.pos < e.rb.length → (e.retire (was :: w)).q = e.q ∧ (e.retire (was :: w)).rb = e.rb)

/-- R18 to R20, R66, R71: the end of a bundle whose C syllable completed: the engine syllables that are not all zero have joined their queues, in slot order and with the capture of the
nest table from before the bundle, and the pc has moved on as the loop-end test says. After a transfer of control the pc stays where it went; a held C syllable leaves the bundle
to its control-only resumption. In a control-only resumption and in a trap handler nothing is appended. -/
def Claims.BundleEnds : Prop :=
  ∀ (s t : State) (ws : List Syl), t.run.cur = s.run.cur → t.thr.seg.bad = 0 →
    let x := s.thr
    let joins := x.flow.ctl = false ∧ s.active = false
    let y := if joins then t.thr.append ws x.ntab (if x.seg.isOpen && t.thr.seg.isOpen then x.seg.id else 0) else t.thr
    (t.run.res = .done → (s.bundleEnds t ws).thr = y.advancePc) ∧
    (t.run.res = .jumped → (s.bundleEnds t ws).thr = y) ∧
    (t.run.res = .held → (s.bundleEnds t ws).thr = { y with flow := { y.flow with ctl := true } }) ∧
    (t.run.res = .waitIssue ∨ t.run.res = .trapped → s.bundleEnds t ws = t) ∧
    (joins → ∀ sl, sl ≠ .c → sylOf ws sl ≠ 0 → ∃ cap, (y.eng sl).q = (t.thr.eng sl).q ++ [⟨sylOf ws sl, cap, if x.seg.isOpen && t.thr.seg.isOpen then x.seg.id else 0, []⟩]) ∧
    (joins → ∀ sl, sl ≠ .c → sylOf ws sl = 0 → y.eng sl = t.thr.eng sl)

/-- R36: a bundle that holds a reserved encoding executes and appends nothing: the C stream takes the illegal-instruction trap, whose cause names the lowest-numbered slot that is
reserved. R19: a bundle without room in a queue it needs does not issue. -/
def Claims.ReservedBundleTraps : Prop :=
  ∀ (s : State) (ws : List Syl),
    (∀ sl, s.thr.flow.ctl = false → reservedSlot s.ct ws = some sl → s.thr.awaits s.slot = false → s.issueWords ws = .next (s.traps { cause := 1, slot := some sl })) ∧
    (∀ sl, reservedSlot s.ct ws = some sl → (decodeOn s.ct sl (sylOf ws sl)) = none ∧ ∀ sl', slotCode sl' < slotCode sl → (decodeOn s.ct sl' (sylOf ws sl')).isSome = true) ∧
    (reservedSlot s.ct ws = none → s.thr.flow.ctl = false → s.active = false → s.thr.queueFull ws = true → s.issueWords ws = .next (s.setRes .waitIssue))

/-- R18, R19, R36: a thread that runs and is not in EXIT issues the bundle at its pc: where its 16 bytes hold no reserved syllable and the queues have room for its engine syllables, the C syllable is executed in the C
stream and the bundle ends. In a control-only resumption the C syllable alone counts. Any other thread issues nothing. -/
def Claims.BundleIssues : Prop :=
  ∀ s : State, let v : State := { s with run := { s.run with cur := { s.run.cur with turn := .stream .c } } }; let f := s.thr.flow
    (∀ (b : List Byte) (i : Instr), f.status = .running → f.exiting = false → v.fetch s.ct s.ch f.pc = .ok b → decodeOn s.ct .c (sylOf (syllables b) .c) = some i →
      (f.ctl = true ∨ (reservedSlot s.ct (syllables b) = none ∧ (s.active = true ∨ (s.thr.queueFull (syllables b) = false ∧ s.thr.captureFull (syllables b) = false)))) →
      ∃ t, exec i v = .next t ∧ exec .issueBundle s = .next (v.bundleEnds t (syllables b))) ∧
    (f.status ≠ .running ∨ f.exiting = true → exec .issueBundle s = .next (s.setRes .waitIssue))

/-- Every instruction and every event goes on in every state: no meaning of the model refuses or faults. -/
def Claims.NoInstructionStops : Prop := ∀ (i : Instr) (s : State), ∃ t, exec i s = .next t

/-- The machine goes on in every state with power whose agenda holds events only; without power, and with nothing on the agenda, it stops with the fault `unpowered`, which is the model's choice (log entry 122):
R114 says only what resets. -/
def Claims.StepGoesOn : Prop :=
  (∀ s : State, (s.edge.dead = false ∨ s.run.agenda ≠ []) → (∀ e ∈ s.run.agenda, wfEvent e = true) → s.goesOn) ∧
  ∀ s : State, s.edge.dead = true → s.run.agenda = [] → step s = .fault .unpowered

/-- R265, R266: the round robin: each stream and unit of a tile is offered to the threads in turn from the one after the thread that it served last, and no step of any kind
breaks that order. -/
def Obligations.StepKeepsTurnOrder : Prop := ∀ s t : State, s.run.inOrder → step s = .next t → t.run.inOrder

/-- R265, R266: a thread that takes an offer is the one served last, and the turn passes on; one that has no work or is held leaves the offer to the next thread of the tile, until
the fourth. The array is the last unit of a tile: after it the next tile begins with its C streams, and after the last tile the cycle ends and the first tile begins. The array's
turn serves the nest of the thread on offer: one whose operands faulted traps once the streams' started syllables are over, and one that a forced save stops does nothing. -/
def Obligations.RoundRobin : Prop :=
  ∀ s : State, let c := s.run.cur
    (c.turn ≠ .array → ∃ u, c.turn.next = some u ∧ (s.offered true).run.served = s.run.served.set c.tile (s.run.served[c.tile].set c.turn.index c.thread) ∧
      (s.offered true).run.cur.tile = c.tile ∧ (s.offered true).run.cur.turn = u ∧ (s.offered true).run.cur.tries = 0) ∧
    (c.tries < 3 → s.offered false = { s with run := { s.run with cur := ⟨c.tile, c.thread + 1, c.turn, c.tries + 1⟩ } }) ∧
    (c.tries = 3 → c.turn ≠ .array → ∃ u, c.turn.next = some u ∧ (s.offered false).run.served = s.run.served ∧ (s.offered false).run.cur.turn = u) ∧
    (∀ taken : Bool, c.turn = .array → c.tile.val < 129 → (taken = true ∨ c.tries = 3) → let u := (s.offered taken).run
      u.cur = ⟨Fin.ofNat 130 (c.tile.val + 1), s.run.served[Fin.ofNat 130 (c.tile.val + 1)][0] + 1, .stream .c, 0⟩ ∧
      u.served = if taken then s.run.served.set c.tile (s.run.served[c.tile].set 6 c.thread) else s.run.served) ∧
    (∀ taken : Bool, c.turn = .array → c.tile.val = 129 → (taken = true ∨ c.tries = 3) → let u := (s.offered taken).run.cur
      u.tile = 0 ∧ u.turn = .stream .c ∧ u.tries = 0 ∧ u.thread = (s.offered taken).run.served[0][0] + 1) ∧
    (∀ n, c.turn = .array → s.thr.nest = some n →
      s.nextWork = if n.fault then (if s.thr.awaits .w then none else some (.arrayFault, .none)) else if s.forcedSave s.ct then none else some (.nestComplete, .none)) ∧
    (c.turn = .array → s.thr.nest = none → s.nextWork = none)

/-! ## Vectors -/

/-- An element of `b` bits read as signed (R12). -/
def Claims.sInt (b x : Nat) : Int := if x < 2 ^ (b - 1) then x else (x : Int) - 2 ^ b
/-- Trunc(v, b) of an exact value (R12). -/
def Claims.trunc (b : Nat) (v : Int) : Nat := (v % 2 ^ b).toNat
/-- A value clamped to `lo` to `hi`, with FLAGS.SAT where it was outside (R162). -/
def Claims.clamp (b : Nat) (lo hi v : Int) : Nat × Flags :=
  if v < lo then (Claims.trunc b lo, fSAT) else if hi < v then (Claims.trunc b hi, fSAT) else (Claims.trunc b v, 0)
/-- Operand `j` of an element's operands. -/
def Claims.op (l : List Nat) (j : Nat) : Nat := l.getD j 0

/-- R162, R163: each integer instruction with its predicate as write mask: the instruction and its sources for the fields (tokens, type, d, a, b, p), and its result for an
element of `w` bits with the operands in the order of the sources. A one-source instruction ignores b. -/
def Claims.vInteger : List ((BitVec 4 → BitVec 3 → BitVec 4 → BitVec 4 → BitVec 4 → BitVec 4 → Instr × List (BitVec 4)) × (Nat → List Nat → Nat × Flags)) :=
  let S := Claims.sInt
  let T := Claims.trunc
  let o := Claims.op
  [(fun k y d a b p => (.vadd k y d a b p, [a, b]), fun w l => ((o l 0 + o l 1) % 2 ^ w, 0)),
   (fun k y d a b p => (.vsub k y d a b p, [a, b]), fun w l => ((o l 0 + 2 ^ w - o l 1) % 2 ^ w, 0)),
   (fun k y d a b p => (.vmul k y d a b p, [a, b]), fun w l => (o l 0 * o l 1 % 2 ^ w, 0)),
   (fun k y d a b p => (.vmulh k y d a b p, [a, b]), fun w l => (T w (S w (o l 0) * S w (o l 1) / 2 ^ w), 0)),
   (fun k y d a b p => (.vmulhn k y d a b p, [a, b]), fun w l => (o l 0 * o l 1 / 2 ^ w, 0)),
   (fun k y d a b p => (.vmin k y d a b p, [a, b]), fun w l => (if S w (o l 1) < S w (o l 0) then o l 1 else o l 0, 0)),
   (fun k y d a b p => (.vminn k y d a b p, [a, b]), fun _ l => (if o l 1 < o l 0 then o l 1 else o l 0, 0)),
   (fun k y d a b p => (.vmax k y d a b p, [a, b]), fun w l => (if S w (o l 0) < S w (o l 1) then o l 1 else o l 0, 0)),
   (fun k y d a b p => (.vmaxn k y d a b p, [a, b]), fun _ l => (if o l 0 < o l 1 then o l 1 else o l 0, 0)),
   (fun k y d a b p => (.vshl k y d a b p, [a, b]), fun w l => (if w ≤ o l 1 then 0 else o l 0 * 2 ^ o l 1 % 2 ^ w, 0)),
   (fun k y d a b p => (.vshr k y d a b p, [a, b]), fun w l => (if w ≤ o l 1 then 0 else o l 0 / 2 ^ o l 1, 0)),
   (fun k y d a b p => (.vsar k y d a b p, [a, b]), fun w l => (if w ≤ o l 1 then (if S w (o l 0) < 0 then 2 ^ w - 1 else 0) else T w (S w (o l 0) / 2 ^ o l 1), 0)),
   (fun k y d a b p => (.vfshl k y d a b p, [a, b, d]), fun w l => ((o l 0 * 2 ^ w + o l 1) * 2 ^ min (o l 2) w / 2 ^ w % 2 ^ w, 0)),
   (fun k y d a b p => (.vfshr k y d a b p, [a, b, d]), fun w l => ((o l 0 * 2 ^ w + o l 1) / 2 ^ min (o l 2) w % 2 ^ w, 0)),
   (fun k y d a _ p => (.vclz k y d a p, [a]), fun w l => (((List.range (w + 1)).find? (fun n => o l 0 < 2 ^ (w - n) ∧ (n = w ∨ 2 ^ (w - n - 1) ≤ o l 0))).getD 0, 0)),
   (fun k y d a _ p => (.vpopc k y d a p, [a]), fun w l => ((List.range w).countP (fun i => o l 0 / 2 ^ i % 2 == 1), 0)),
   (fun k y d a b p => (.vadds k y d a b p, [a, b]), fun w l => Claims.clamp w (-2 ^ (w - 1)) (2 ^ (w - 1) - 1) (S w (o l 0) + S w (o l 1))),
   (fun k y d a b p => (.vaddsn k y d a b p, [a, b]), fun w l => Claims.clamp w 0 (2 ^ w - 1) ((o l 0 : Int) + o l 1)),
   (fun k y d a b p => (.vsubs k y d a b p, [a, b]), fun w l => Claims.clamp w (-2 ^ (w - 1)) (2 ^ (w - 1) - 1) (S w (o l 0) - S w (o l 1))),
   (fun k y d a b p => (.vsubsn k y d a b p, [a, b]), fun w l => Claims.clamp w 0 (2 ^ w - 1) ((o l 0 : Int) - o l 1)),
   (fun k y d a _ p => (.vabs k y d a p, [a]), fun w l => ((S w (o l 0)).natAbs % 2 ^ w, 0)),
   (fun k y d a _ p => (.vabss k y d a p, [a]), fun w l => Claims.clamp w (-2 ^ (w - 1)) (2 ^ (w - 1) - 1) (S w (o l 0)).natAbs)]

/-- R162: the immediate forms: the instruction and its result for an element. -/
def Claims.vImmediate : List ((BitVec 4 → BitVec 3 → BitVec 4 → BitVec 4 → BitVec 8 → BitVec 2 → Instr) × (Nat → BitVec 8 → Nat → Nat)) :=
  [(fun k y d a i p => .vaddi k y d a i p, fun w i x => Claims.trunc w ((x : Int) + i.toInt)),
   (fun k y d a i p => .vshli k y d a (i.setWidth 6) p, fun w i x => if w ≤ i.toNat % 64 then 0 else x * 2 ^ (i.toNat % 64) % 2 ^ w),
   (fun k y d a i p => .vshri k y d a (i.setWidth 6) p, fun w i x => if w ≤ i.toNat % 64 then 0 else x / 2 ^ (i.toNat % 64)),
   (fun k y d a i p => .vsari k y d a (i.setWidth 6) p, fun w i x => if w ≤ i.toNat % 64 then (if Claims.sInt w x < 0 then 2 ^ w - 1 else 0) else Claims.trunc w (Claims.sInt w x / 2 ^ (i.toNat % 64)))]

/-- The flags of the active elements together. -/
def Claims.flags (n : Nat) (act : Nat → Bool) (f : Nat → Flags) : Flags := (List.range n).foldl (fun x i => if act i then x ||| f i else x) 0

/-- A syllable with a write mask completes with the elements `f` (R156, R157, R158): the active elements of d take `f i`, the others keep their value (0 in an entry pushed for
vq, whose mask is the predicate); the flags are ORed in; `tail` is what else the instruction does. -/
def Claims.masked (s : State) (i : Instr) (k : BitVec 4) (srcs : List (BitVec 4)) (d p : BitVec 4) (w : Nat) (f : Nat → Nat) (fl : Flags) (tail : State → State) : Prop :=
  ∃ v : VecVal, exec i s = .next (s.vecDone k srcs (fun u => tail ((u.putVec d v (s.pred p)).orFlags fl))) ∧
    ∀ j < 4096 / w, vget v.toNat w j = if elemActive (s.pred p) w j then f j else vget (s.oldVec d).toNat w j

/-- R37's fallback for a type that an operation does not take (R159): the syllable runs when it can, its tokens and its vq sources pop, it writes nothing, `n` entries whose mask is all zero are pushed where its
destination is vq, and WARN.TYPE is set. -/
def Claims.fallback (s : State) (i : Instr) (k : BitVec 4) (srcs : List (BitVec 4)) (d : Option (BitVec 4)) (n : Nat) : Prop :=
  s.vecCan k srcs d n → exec i s = .next (s.vecDone k srcs (fun u => (if d = some 15 then u.modQs (fun q => { q with qws := q.qws ++ List.replicate n (0, 0) }) else u).setWarn 3))

/-- R156 to R158, R162, R163: the integer instructions with a write mask, over every type of their class (b8 to b64, and f8 read as b8 with WARN.TYPE): each active element of d is the
rule's function of the sources' elements. Sources and destination may be vq. A floating-point type takes R37's fallback. -/
def Obligations.VectorInteger : Prop :=
  (∀ op ∈ Claims.vInteger, ∀ (s : State) (k : BitVec 4) (y : BitVec 3) (d a b p : BitVec 4) (w : Nat), intBits y = some w →
    let q := op.1 k y d a b p
    s.vecCan k q.2 (some d) 1 →
    let r := fun j => op.2 w ((s.vecArgs q.2).map (fun v => vget v.toNat w j))
    Claims.masked s q.1 k q.2 d p w (fun j => (r j).1) (Claims.flags (4096 / w) (elemActive (s.pred p) w) (fun j => (r j).2)) (fun u => u.warnIf (y = 7) 3)) ∧
  (∀ op ∈ Claims.vImmediate, ∀ (s : State) (k : BitVec 4) (y : BitVec 3) (d a : BitVec 4) (i : BitVec 8) (p : BitVec 2) (w : Nat), intBits y = some w →
    s.vecCan k [a] (some d) 1 →
    Claims.masked s (op.1 k y d a i p) k [a] d (p.setWidth 4) w (fun j => op.2 w i (vget (vopd (s.vecArgs [a]) 0) w j)) 0 (fun u => u.warnIf (y = 7) 3)) ∧
  (∀ op ∈ Claims.vInteger, ∀ (s : State) (k : BitVec 4) (y : BitVec 3) (d a b p : BitVec 4), intBits y = none → let q := op.1 k y d a b p; Claims.fallback s q.1 k q.2 (some d) 1) ∧
  (∀ op ∈ Claims.vImmediate, ∀ (s : State) (k : BitVec 4) (y : BitVec 3) (d a : BitVec 4) (i : BitVec 8) (p : BitVec 2), intBits y = none → Claims.fallback s (op.1 k y d a i p) k [a] (some d) 1)

/-- R137: the generator after `n` draws. -/
def Claims.drawn : Nat → BitVec 32 → BitVec 32
  | 0, x => x
  | n + 1, x => Claims.drawn n (nextDraw x)

/-- The active elements below `j`. -/
def Claims.below (p : PredVal) (w j : Nat) : Nat := (List.range j).countP (fun i => elemActive p w i)

/-- R167, R169: each floating-point instruction with its sources for the fields (tokens, type, d, a, b, p, m2), the rounding it uses given the rounding that m2 selects (the exact ones round
nothing and draw nothing), and its result for an element in a format, with a rounding and a draw. The exact value and its one rounding are those of the shared functions
(`exAdd` … , `Fmt.result`, and for 2^x and log2 x `Fmt.exp2` and `Fmt.log2`). A one-source instruction ignores b. -/
def Claims.vFloat : List ((BitVec 4 → BitVec 3 → BitVec 4 → BitVec 4 → BitVec 4 → BitVec 4 → BitVec 2 → Instr × List (BitVec 4)) × Bool × (BitVec 2 → Fmt → RM → Nat → List FVal → Nat × Flags)) :=
  let o := fun (l : List FVal) (j : Nat) => l.getD j (.fin false 0 0)
  [(fun k y d a b p r => (.vfadd k y d a b p r, [a, b]), false, fun _ g m w l => g.result m w (exAdd (m == .rd) (o l 0) (o l 1))),
   (fun k y d a b p r => (.vfsub k y d a b p r, [a, b]), false, fun _ g m w l => g.result m w (exSub (m == .rd) (o l 0) (o l 1))),
   (fun k y d a b p r => (.vfmul k y d a b p r, [a, b]), false, fun _ g m w l => g.result m w (exMul (o l 0) (o l 1))),
   (fun k y d a b p r => (.vfma k y d a b p r, [a, b, d]), false, fun _ g m w l => g.result m w (exFma (m == .rd) (o l 0) (o l 1) (o l 2))),
   (fun k y d a b p r => (.vfdiv k y d a b p r, [a, b]), false, fun _ g m w l => g.result m w (exDiv (o l 0) (o l 1))),
   (fun k y d a _ p r => (.vfsqrt k y d a p r, [a]), false, fun _ g m w l => g.result m w (exSqrt (o l 0))),
   (fun k y d a _ p r => (.vfrsqrt k y d a p r, [a]), false, fun _ g m w l => g.result m w (exRsqrt (o l 0))),
   (fun k y d a b p r => (.vfmin k y d a b p (r.setWidth 1), [a, b]), true, fun r g _ _ l => g.pick FVal.least (r[0]) (o l 0) (o l 1)),
   (fun k y d a b p r => (.vfmax k y d a b p (r.setWidth 1), [a, b]), true, fun r g _ _ l => g.pick FVal.greatest (r[0]) (o l 0) (o l 1)),
   (fun k y d a _ p _ => (.vfabs k y d a p, [a]), true, fun _ g _ _ l => g.result .rn 0 (o l 0).abs.toEx),
   (fun k y d a _ p _ => (.vfneg k y d a p, [a]), true, fun _ g _ _ l => g.result .rn 0 (o l 0).neg.toEx),
   (fun k y d a _ p _ => (.vfclass k y d a p, [a]), true, fun _ g _ _ l => (2 ^ g.classOf (o l 0), flagIf (o l 0).isSig fINV)),
   (fun k y d a _ p r => (.vfexp2 k y d a p r, [a]), false, fun _ g m w l => g.exp2 m w (o l 0)),
   (fun k y d a _ p r => (.vflog2 k y d a p r, [a]), false, fun _ g m w l => g.log2 m w (o l 0))]

/-- R137, R138, R156 to R158, R167, R169: the floating-point instructions with a write mask, in their three formats. Each active element of d is the rule's function of the sources' elements;
under SR the active elements draw in ascending order, one draw each, and no other element does; the flags of the active elements are ORed into FLAGS and SRSEED keeps the generator. Any other type takes R37's fallback. -/
def Obligations.VectorFloat : Prop :=
  (∀ op ∈ Claims.vFloat, ∀ (s : State) (k : BitVec 4) (y : BitVec 3) (d a b p : BitVec 4) (r : BitVec 2), fltOf y = none → let q := op.1 k y d a b p r; Claims.fallback s q.1 k q.2 (some d) 1) ∧
  ∀ op ∈ Claims.vFloat, ∀ (s : State) (k : BitVec 4) (y : BitVec 3) (d a b p : BitVec 4) (r : BitVec 2) (g : Fmt), fltOf y = some g →
    let q := op.1 k y d a b p r
    s.vecCan k q.2 (some d) 1 →
    let m := if op.2.1 then RM.rn else s.roundMode r
    let seed := fun (j : Nat) => if m = .sr then Claims.drawn (Claims.below (s.pred p) g.width (j + 1)) s.thr.csr.srseed else s.thr.csr.srseed
    let e := fun j => op.2.2 r g m (seed j).toNat ((s.vecArgs q.2).map (fun v => g.decode (vget v.toNat g.width j)))
    Claims.masked s q.1 k q.2 d p g.width (fun j => (e j).1) (Claims.flags (4096 / g.width) (elemActive (s.pred p) g.width) (fun j => (e j).2))
      (fun u => u.setSeed (seed (4096 / g.width - 1)))

/-- R164, R168, R156: the compares write the w predicate bits of each active element of pd, all 1 or all 0, and keep the others; pd 0 discards. VCMP is signed, VCMPN unsigned; VFCMP's
conditions (a type of the other class takes R37's fallback) are EQ, LT, LE, UN with a NaN making the first three false, −0 equal to +0, and INV as R168 says. -/
def Obligations.VectorCompare : Prop :=
  (∀ (s : State) (k : BitVec 4) (y : BitVec 3) (d a b p : BitVec 4) (c : BitVec 2), (intBits y = none → Claims.fallback s (.vcmp k y d a b p c) k [a, b] none 0 ∧ Claims.fallback s (.vcmpn k y d a b p c) k [a, b] none 0) ∧
    (fltOf y = none → Claims.fallback s (.vfcmp k y d a b p c) k [a, b] none 0)) ∧
  (∀ (s : State) (k : BitVec 4) (y : BitVec 3) (d a b p : BitVec 4) (c : BitVec 2) (w : Nat), intBits y = some w → s.vecCan k [a, b] none 0 →
    ∀ sg : Bool, let q := s.vecArgs [a, b]
    let x := fun j => if sg then Claims.sInt w (vget (vopd q 0) w j) else (vget (vopd q 0) w j : Int)
    let z := fun j => if sg then Claims.sInt w (vget (vopd q 1) w j) else (vget (vopd q 1) w j : Int)
    let t := fun j => match c.toNat with | 0 => decide (x j = z j) | 1 => decide (x j ≠ z j) | 2 => decide (x j < z j) | _ => decide (x j ≤ z j)
    ∃ v : PredVal, exec (if sg then .vcmp k y d a b p c else .vcmpn k y d a b p c) s = .next (s.vecDone k [a, b] (fun u => (u.setPred d v).warnIf (y = 7) 3)) ∧
      ∀ n < 512, v.getLsbD n = if elemActive (s.pred p) w (n / (w / 8)) then t (n / (w / 8)) else (s.pred d).getLsbD n) ∧
  (∀ (s : State) (k : BitVec 4) (y : BitVec 3) (d a b p : BitVec 4) (c : BitVec 2) (g : Fmt), fltOf y = some g → s.vecCan k [a, b] none 0 →
    let q := s.vecArgs [a, b]
    let x := fun j => g.decode (vget (vopd q 0) g.width j)
    let z := fun j => g.decode (vget (vopd q 1) g.width j)
    let t := fun j => match c.toNat with | 0 => (x j).eq (z j) | 1 => (x j).lt (z j) | 2 => (x j).lt (z j) || (x j).eq (z j) | _ => (x j).isNan || (z j).isNan
    let inv := fun j => if c = 1 ∨ c = 2 then (x j).isNan || (z j).isNan else (x j).isSig || (z j).isSig
    ∃ v : PredVal, exec (.vfcmp k y d a b p c) s = .next (s.vecDone k [a, b] (fun u => (u.setPred d v).orFlags
        (Claims.flags (4096 / g.width) (elemActive (s.pred p) g.width) (fun j => if inv j then fINV else 0)))) ∧
      ∀ n < 512, v.getLsbD n = if elemActive (s.pred p) g.width (n / (g.width / 8)) then t (n / (g.width / 8)) else (s.pred d).getLsbD n)

/-- R162, R165, R166, R175 to R177: the instructions that move elements under a write mask, of any type: the instruction with its sources for the fields (tokens, type, d, a, b, p), and
the element j of width w it writes, given the operands' values. A one-source instruction ignores b. -/
def Claims.vMoves : List ((BitVec 4 → BitVec 3 → BitVec 4 → BitVec 4 → BitVec 4 → BitVec 4 → Instr × List (BitVec 4)) × (Nat → List VecVal → Nat → Nat)) :=
  let x := fun (w : Nat) (l : List VecVal) (j : Nat) => vget (vopd l 0) w j
  let z := fun (w : Nat) (l : List VecVal) (j : Nat) => vget (vopd l 1) w j
  let both := fun (w : Nat) (l : List VecVal) (j : Nat) => if j < 4096 / w then vget (vopd l 0) w j else vget (vopd l 1) w (j - 4096 / w)
  [(fun k y d a b p => (.vand k y d a b p, [a, b]), fun w l j => x w l j &&& z w l j), (fun k y d a b p => (.vor k y d a b p, [a, b]), fun w l j => x w l j ||| z w l j),
   (fun k y d a b p => (.vxor k y d a b p, [a, b]), fun w l j => x w l j ^^^ z w l j),
   (fun k y d a _ p => (.vbcastVec k y d a p, [a]), fun w l _ => x w l 0),
   (fun k y d a b p => (.vperm k y d a b p 0, [a, b]), fun w l j => x w l (z w l j % (4096 / w))),
   (fun k y d a b p => (.vperm k y d a b p 1, [a, b]), fun w l j => if z w l j < 4096 / w then x w l (z w l j) else 0),
   (fun k y d a b p => (.vziplo k y d a b p, [a, b]), fun w l j => if j % 2 = 0 then x w l (j / 2) else z w l (j / 2)),
   (fun k y d a b p => (.vziphi k y d a b p, [a, b]), fun w l j => if j % 2 = 0 then x w l (4096 / w / 2 + j / 2) else z w l (4096 / w / 2 + j / 2)),
   (fun k y d a b p => (.vunzipe k y d a b p, [a, b]), fun w l j => both w l (2 * j)),
   (fun k y d a b p => (.vunzipo k y d a b p, [a, b]), fun w l j => both w l (2 * j + 1))]

/-- R156 to R158, R162, R165, R166, R176, R177: logic, broadcasts, indices, permutations and zips, with their predicate as write mask. VBCAST reads a W-engine register or element 0 of a
vector; VPERM takes its index modulo n or gives 0 for an index of n or more; VIOTA writes the element's number, and takes R37's fallback under a floating-point type, as VIOTA.rank does. -/
def Claims.VectorMoves : Prop :=
  (∀ op ∈ Claims.vMoves, ∀ (s : State) (k : BitVec 4) (y : BitVec 3) (d a b p : BitVec 4), let q := op.1 k y d a b p
    s.vecCan k q.2 (some d) 1 → Claims.masked s q.1 k q.2 d p (anyBits y) (op.2 (anyBits y) (s.vecArgs q.2)) 0 id) ∧
  (∀ (s : State) (k : BitVec 4) (y : BitVec 3) (d a p : BitVec 4), s.vecCan k [] (some d) 1 →
    Claims.masked s (.vbcast k y d a p) k [] d p (anyBits y) (fun _ => (s.wreg a).toNat % 2 ^ anyBits y) 0 id) ∧
  (∀ (s : State) (k : BitVec 4) (y : BitVec 3) (d p : BitVec 4) (w : Nat), intBits y = some w → s.vecCan k [] (some d) 1 →
    Claims.masked s (.viota k y d p) k [] d p w (fun j => j % 2 ^ w) 0 (fun u => u.warnIf (y = 7) 3)) ∧
  (∀ (s : State) (k : BitVec 4) (y : BitVec 3) (d p : BitVec 4), intBits y = none → Claims.fallback s (.viota k y d p) k [] (some d) 1 ∧ Claims.fallback s (.viotaRank k y d p) k [] (some d) 1)

/-- A syllable that writes every element of d completes with the elements `f`; an entry pushed for vq has a mask of all ones (R156). -/
def Claims.whole (s : State) (i : Instr) (k : BitVec 4) (srcs : List (BitVec 4)) (d : BitVec 4) (w : Nat) (f : Nat → Nat) (tail : State → State) : Prop :=
  ∃ v : VecVal, exec i s = .next (s.vecDone k srcs (fun u => tail (u.putVec d v (BitVec.allOnes 512)))) ∧ ∀ j < 4096 / w, vget v.toNat w j = f j

/-- R162, R166, R175, R178, R156: the instructions that write every element. VSEL takes x where active and y elsewhere; VIOTA.rank counts the active elements below; VSLIDEUP and VSLIDEDN shift by
amt4 or 2^amt4 elements through the two vectors joined; VCOMPRESS packs the active elements, VEXPAND spreads packed elements to the active positions, with 0 elsewhere; under .keep
the other elements keep their value and an entry for vq masks only the bytes written. -/
def Claims.VectorWhole : Prop :=
  (∀ (s : State) (k : BitVec 4) (y : BitVec 3) (d a b p : BitVec 4), s.vecCan k [a, b] (some d) 1 → let l := s.vecArgs [a, b]; let w := anyBits y
    Claims.whole s (.vsel k y d a b p) k [a, b] d w (fun j => if elemActive (s.pred p) w j then vget (vopd l 0) w j else vget (vopd l 1) w j) id) ∧
  (∀ (s : State) (k : BitVec 4) (y : BitVec 3) (d p : BitVec 4) (w : Nat), intBits y = some w → s.vecCan k [] (some d) 1 →
    Claims.whole s (.viotaRank k y d p) k [] d w (fun j => Claims.below (s.pred p) w j % 2 ^ w) (fun u => u.warnIf (y = 7) 3)) ∧
  (∀ (s : State) (k : BitVec 4) (y : BitVec 3) (d a b t : BitVec 4) (c : BitVec 1), s.vecCan k [a, b] (some d) 1 → let l := s.vecArgs [a, b]; let w := anyBits y; let n := 4096 / w
    let m := if c = 1 then 2 ^ t.toNat else t.toNat
    Claims.whole s (.vslideup k y d a b t c) k [a, b] d w (fun j => if m ≤ j then vget (vopd l 0) w (j - m) else if m ≤ j + n then vget (vopd l 1) w (j + n - m) else 0) id ∧
    Claims.whole s (.vslidedn k y d a b t c) k [a, b] d w (fun j => if j + m < n then vget (vopd l 0) w (j + m) else if j + m < 2 * n then vget (vopd l 1) w (j + m - n) else 0) id) ∧
  (∀ (s : State) (k : BitVec 4) (y : BitVec 3) (d a p : BitVec 4) (e : BitVec 1), s.vecCan k [a] (some d) 1 → let w := anyBits y; let n := 4096 / w; let pr := s.pred p
    let x := fun j => vget (vopd (s.vecArgs [a]) 0) w j
    let rest := fun j => if e = 1 then vget (s.oldVec d).toNat w j else 0
    (∃ (v : VecVal) (mask : PredVal), exec (.vcompress k y d a p e) s = .next (s.vecDone k [a] (fun u => u.putVec d v mask)) ∧
      (∀ j < n, elemActive pr w j = true → vget v.toNat w (Claims.below pr w j) = x j) ∧
      (∀ j < n, Claims.below pr w n ≤ j → vget v.toNat w j = rest j) ∧
      ∀ b < 512, mask.getLsbD b = (e != 1 || decide (b / (w / 8) < Claims.below pr w n))) ∧
    (∃ (v : VecVal) (mask : PredVal), exec (.vexpand k y d a p e) s = .next (s.vecDone k [a] (fun u => u.putVec d v mask)) ∧
      (∀ j < n, vget v.toNat w j = if elemActive pr w j then x (Claims.below pr w j) else rest j) ∧
      ∀ b < 512, mask.getLsbD b = (e != 1 || elemActive pr w (b / (w / 8)))))

/-- R148, R173: the integer reductions of a list of elements of `w` bits. -/
def Claims.intReduce (w : Nat) (op : Nat) (l : List Nat) : Nat :=
  let lo := fun (a b : Int) => if b < a then b else a
  let hi := fun (a b : Int) => if a < b then b else a
  let S := Claims.sInt w
  match op with
  | 0 => l.foldl (· + ·) 0 % 2 ^ w
  | 1 => Claims.trunc w ((l.map S).foldl lo (2 ^ (w - 1) - 1))
  | 2 => Claims.trunc w ((l.map S).foldl hi (-2 ^ (w - 1)))
  | 3 => l.foldl min (2 ^ w - 1)
  | 4 => l.foldl max 0
  | 5 => l.foldl (· &&& ·) (2 ^ w - 1)
  | 6 => l.foldl (· ||| ·) 0
  | _ => l.foldl (· ^^^ ·) 0

/-- The active elements of a vector in ascending order. -/
def Claims.actives (p : PredVal) (w v : Nat) (n : Nat) : List Nat := ((List.range n).filter (elemActive p w)).map (vget v w)

/-- R148, R149, R173, R174: the integer reductions. VRED writes the reduction of the active elements to element 0 and 0 elsewhere; VGRED that of each group of G = min(2^g, n)
elements, to all its elements or packed; VSCAN the running reductions, inclusive or exclusive. They set no flag. -/
def Claims.IntegerReductions : Prop :=
  ∀ (s : State) (k : BitVec 4) (y : BitVec 3) (d a o p : BitVec 4) (c z : BitVec 1) (w : Nat), intBits y = some w → o.toNat ≤ 7 → s.vecCan k [a] (some d) 1 →
    let x := vopd (s.vecArgs [a]) 0
    let n := 4096 / w
    let T := fun (u : State) => u.warnIf (y = 7) 3
    Claims.whole s (.vred k y d a o p z) k [a] d w (fun j => if j = 0 then Claims.intReduce w o.toNat (Claims.actives (s.pred p) w x n) else 0) T ∧
    (∀ g : BitVec 4, 1 ≤ g.toNat → g.toNat ≤ 9 → let G := min (2 ^ g.toNat) n
      let grp := fun j => Claims.intReduce w o.toNat ((List.range G).map (fun i => vget x w (j * G + i)))
      Claims.whole s (.vgred k y d a o g c z) k [a] d w (fun j => if c = 0 then grp (j / G) else if j < n / G then grp j else 0) T) ∧
    Claims.whole s (.vscan k y d a o p c z) k [a] d w (fun j => Claims.intReduce w o.toNat (Claims.actives (s.pred p) w x (if c = 1 then j else j + 1))) T

/-- R141, R142, R148, R149, R173, R174: the floating-point reductions (SUM, MIN, MAX, AMAX): VRED and VGRED are the pairwise tree of R148 over the active elements or over each group, with
RN at every node (`RedOp.tree`), VSCAN the running sequence (`scanOut`); their flags are ORed in; they draw nothing. An operation that the type's class does not have takes R37's fallback. -/
def Claims.FloatReductions : Prop :=
  (∀ (s : State) (k : BitVec 4) (y : BitVec 3) (d a o p e : BitVec 4) (c z : BitVec 1), (∃ g, fltOf y = some g ∧ fltRed g o.toNat (z = 1) = none) ∨ (fltOf y = none ∧ 8 ≤ o.toNat) →
    Claims.fallback s (.vred k y d a o p z) k [a] (some d) 1 ∧ Claims.fallback s (.vgred k y d a o e c z) k [a] (some d) 1 ∧ Claims.fallback s (.vscan k y d a o p c z) k [a] (some d) 1) ∧
  ∀ (s : State) (k : BitVec 4) (y : BitVec 3) (d a o p : BitVec 4) (c z : BitVec 1) (g : Fmt) (op : RedOp), fltOf y = some g → fltRed g o.toNat (z = 1) = some op →
    s.vecCan k [a] (some d) 1 →
    let x := vopd (s.vecArgs [a]) 0
    let n := 4096 / g.width
    let t := op.tree (positions x g.width (s.pred p))
    let sc := scanOut op (c = 1) op.empty (positions x g.width (s.pred p))
    Claims.whole s (.vred k y d a o p z) k [a] d g.width (fun j => if j = 0 then t.1 % 2 ^ g.width else 0) (fun u => u.orFlags t.2) ∧
    (∀ e : BitVec 4, 1 ≤ e.toNat → e.toNat ≤ 9 → let G := min (2 ^ e.toNat) n
      let grp := fun j => op.tree ((List.range G).map (fun i => some (vget x g.width (j * G + i))))
      Claims.whole s (.vgred k y d a o e c z) k [a] d g.width (fun j => if c = 0 then (grp (j / G)).1 % 2 ^ g.width else if j < n / G then (grp j).1 % 2 ^ g.width else 0)
        (fun u => u.orFlags (Claims.flags (n / G) (fun _ => true) (fun j => (grp j).2)))) ∧
    Claims.whole s (.vscan k y d a o p c z) k [a] d g.width (fun j => sc.1.getD j 0 % 2 ^ g.width) (fun u => u.orFlags sc.2)

/-- R148: the tree of positions: with no position present its root is absent; two adjacent nodes that are both present join, and one that is alone passes on. -/
def Claims.PairwiseTree : Prop :=
  ∀ (j : Nat → Nat → Nat × Flags) (a b c e : Nat),
    (∀ n, (treeRoot j 16 (List.replicate n none)).1 = none) ∧
    (treeRoot j 16 [some a, some b]).1 = some (j a b).1 ∧ (treeRoot j 16 [some a, none]).1 = some a ∧ (treeRoot j 16 [none, some b]).1 = some b ∧
    (treeRoot j 16 [some a, some b, some c, some e]).1 = some (j (j a b).1 (j c e).1).1 ∧ (treeRoot j 16 [some a, some b, some c]).1 = some (j (j a b).1 c).1 ∧
    (treeRoot j 16 [none, some b, some c, some e]).1 = some (j b (j c e).1).1

/-- R137, R138, R170, R171: VCVT converts n = 4096 / max(sb, db) elements in ascending order: a narrowing one writes part p of vd and leaves the other parts, a widening one reads part p. Under SR
each element draws once where the pair of formats draws. Pushed to vq, the entry's mask covers exactly the bytes written. -/
def Claims.VectorConvert : Prop :=
  ∀ (s : State) (k f sf d a p : BitVec 4) (m : BitVec 1), f ≠ 15 → sf ≠ 15 → s.vecCan k [a] (some d) 1 →
    let dst := CFmt.ofCode f.toNat
    let src := CFmt.ofCode sf.toNat
    let db := dst.bits
    let sb := src.bits
    let n := 4096 / max sb db
    let md := RM.ofCode s.thr.csr.rmode.toNat
    let draws := md = .sr ∧ convDraws dst src = true
    let seed := fun (j : Nat) => if draws then Claims.drawn (j + 1) s.thr.csr.srseed else s.thr.csr.srseed
    let e := fun j => convert dst src (m = 1) md (seed j).toNat (vget (vopd (s.vecArgs [a]) 0) sb (if sb < db then p.toNat * n + j else j))
    (db < sb → p.toNat < sb / db → ∃ (v : VecVal) (mask : PredVal), exec (.vcvt k f sf d a p m) s =
        .next (s.vecDone k [a] (fun u => ((u.putVec d v mask).setSeed (seed (n - 1))).orFlags (Claims.flags n (fun _ => true) (fun j => (e j).2)))) ∧
      (∀ j < 4096 / db, vget v.toNat db j = if p.toNat * n ≤ j ∧ j < (p.toNat + 1) * n then (e (j - p.toNat * n)).1 % 2 ^ db else vget (s.oldVec d).toNat db j) ∧
      ∀ b < 512, mask.getLsbD b = decide (p.toNat * (n * db / 8) ≤ b ∧ b < (p.toNat + 1) * (n * db / 8))) ∧
    (sb ≤ db → ∃ v : VecVal, exec (.vcvt k f sf d a p m) s =
        .next (s.vecDone k [a] (fun u => ((u.putVec d v (BitVec.allOnes 512)).setSeed (seed (n - 1))).orFlags (Claims.flags n (fun _ => true) (fun j => (e j).2)))) ∧
      ∀ j < n, vget v.toNat db j = (e j).1 % 2 ^ db)

/-- R133, R134, R172: VQUANT makes one block of two vectors of FP32 (256 codes, then the scale in bytes 256 to 259, the rest 0); VDEQUANT makes two vectors of FP32 of a block, the lower first
(that order, seen where VVIEW makes the two overlap, is the model's choice, log entry 152). Any type but f32 takes R37's fallback. -/
def Claims.BlockFormats : Prop :=
  ∀ (s : State) (k d a : BitVec 4) (q : BitVec 1),
    (∀ y : BitVec 3, y ≠ 4 → Claims.fallback s (.vquant k y d a q) k (pairOf a) (some d) 1 ∧ Claims.fallback s (.vdequant k y d a q) k [a] (some d) 2) ∧
    (s.vecCan k (pairOf a) (some d) 1 →
      let l := s.vecArgs (pairOf a)
      let xs := (List.range 256).map (fun j => if j < 128 then vget (vopd l 0) 32 j else vget (vopd l 1) 32 (j - 128))
      let r := quantBlock (q = 1) (RM.ofCode s.thr.csr.rmode.toNat) s.thr.csr.srseed xs
      ∃ v : VecVal, exec (.vquant k 4 d a q) s = .next (s.vecDone k (pairOf a) (fun u => ((u.putVec d v (BitVec.allOnes 512)).setSeed r.2.2.1).orFlags r.2.2.2)) ∧
        (∀ j < 256, vget v.toNat 8 j = r.1.getD j 0 % 2 ^ 8) ∧ v.toNat / 2 ^ 2048 = r.2.1 % 2 ^ 2048) ∧
    (s.vecCan k [a] (some d) 2 →
      let b := vopd (s.vecArgs [a]) 0
      let e := fun j => dequantOne (q = 1) (fp32.decode (vget b 32 64)) (vget b 8 j)
      ∃ v w : VecVal, exec (.vdequant k 4 d a q) s = .next (s.vecDone k [a] (fun u => ((u.putVec d v (BitVec.allOnes 512)).putVec (if d = 15 then 15 else d + 1) w
          (BitVec.allOnes 512)).orFlags (Claims.flags 256 (fun _ => true) (fun j => (e j).2)))) ∧
        ∀ j < 128, vget v.toNat 32 j = (e j).1 % 2 ^ 32 ∧ vget w.toNat 32 j = (e (j + 128)).1 % 2 ^ 32)

/-! ## Predicates -/

/-- R193: PLOGIC's functions of two bits. -/
def Claims.plogic (f : BitVec 3) (a b : Bool) : Bool :=
  match f.toNat with | 0 => a && b | 1 => a || b | 2 => xor a b | 3 => a && !b | 4 => a || !b | 5 => !(a && b) | 6 => !(a || b) | _ => !(xor a b)

/-- R192 to R196: the predicate instructions. PLOGIC works bit by bit; PSET sets the bits of a run of elements; PCNT counts the elements active in both predicates and PFIRST gives the first or
the last of them, n where there is none; VMOVW moves 512 bits of a vector (b8) to or from a predicate, or element 0 to a W-engine register, and takes R37's fallback under another type. A write to p0 is discarded. -/
def Obligations.Predicates : Prop :=
  ∀ (s : State) (k : BitVec 4), s.vecCan k [] none 0 → ∀ (y : BitVec 3) (d a b p : BitVec 4), let w := anyBits y; let n := 4096 / w
    (∀ f : BitVec 3, ∃ v : PredVal, exec (.plogic k f d a b) s = .next (s.vecDone k [] (fun u => u.setPred d v)) ∧
      ∀ i < 512, v.getLsbD i = Claims.plogic f ((s.pred a).getLsbD i) ((s.pred b).getLsbD i)) ∧
    (∀ i8 : BitVec 8, ∃ v : PredVal, exec (.psetFirsti k y d i8) s = .next (s.vecDone k [] (fun u => u.setPred d v)) ∧ ∀ i < 512, v.getLsbD i = decide (i / (w / 8) < i8.toNat)) ∧
    (∃ v : PredVal, exec (.psetFirst k y d a) s = .next (s.vecDone k [] (fun u => u.setPred d v)) ∧ ∀ i < 512, v.getLsbD i = decide (i / (w / 8) < (s.wreg a).toNat)) ∧
    (∃ v : PredVal, exec (.psetRange k y d a b) s = .next (s.vecDone k [] (fun u => u.setPred d v)) ∧
      ∀ i < 512, v.getLsbD i = decide ((s.wreg a).toNat ≤ i / (w / 8) ∧ i / (w / 8) < (s.wreg b).toNat)) ∧
    (let act := (List.range n).filter (fun i => elemActive (s.pred a) w i && elemActive (s.pred p) w i)
     exec (.pcnt k y d a p) s = .next (s.vecDone k [] (fun u => u.setWreg d act.length)) ∧ exec (.pfirst k y d a p) s = .next (s.vecDone k [] (fun u => u.setWreg d (act.head?.getD n))) ∧
     exec (.pfirstLast k y d a p) s = .next (s.vecDone k [] (fun u => u.setWreg d (act.getLast?.getD n)))) ∧
    (s.vecCan k [] (some d) 1 → ∃ v : VecVal, exec (.vmovwPtov k 0 d a b) s = .next (s.vecDone k [] (fun u => u.putVec d v (BitVec.allOnes 512))) ∧
      ∀ i < 4096, v.getLsbD i = if i / 512 = b.toNat % 8 then (s.pred a).getLsbD (i % 512) else (s.oldVec d).getLsbD i) ∧
    (s.vecCan k [a] none 0 → ∃ v : PredVal, exec (.vmovwVtop k 0 d a b) s = .next (s.vecDone k [a] (fun u => u.setPred d v)) ∧
      ∀ i < 512, v.getLsbD i = (vopd (s.vecArgs [a]) 0).testBit (512 * (b.toNat % 8) + i)) ∧
    (y ≠ 0 → Claims.fallback s (.vmovwPtov k y d a b) k [] (some d) 1 ∧ Claims.fallback s (.vmovwVtop k y d a b) k [a] none 0) ∧ (intBits y = none → Claims.fallback s (.vmovwVtow k y d a) k [a] none 0) ∧
    (∀ z, intBits y = some z → s.vecCan k [a] none 0 →
      exec (.vmovwVtow k y d a) s = .next (s.vecDone k [a] (fun u => (u.warnIf (y = 7) 3).setWreg d (vget (vopd (s.vecArgs [a]) 0) z 0)))) ∧
    (∀ (u : State) (v : PredVal), u.setPred 0 v = u ∧ u.pred 0 = BitVec.allOnes 512 ∧ (d ≠ 0 → (u.setPred d v).pred d = v ∧ ∀ e, e ≠ d → (u.setPred d v).pred e = u.pred e))

/-! ## Vector memory -/

/-- A syllable with token bits `k` of the engine `sl` can start: its token pops and the room for its pushes are there together, and a W syllable that pushes waits for no nest (R29, R298). -/
def Claims.canStart (s : State) (sl : Slot) (k : BitVec 4) : Prop := s.slot = sl ∧ tokReady s.thr.qs.tok sl k = true ∧ (sl = .w → (k[1] || k[0]) = true → s.thr.nest = none)

/-- What a syllable with token bits `k` leaves whose own effect is `f`: its pops, the effect, its pushes (R29). -/
def Claims.sylDone (s : State) (k : BitVec 4) (f : State → State) : State := ((f (s.popTokens k)).pushTokens k).setRes .done

/-- R180: the address modes. The address is the base register plus the displacement, or under mode 2 the head of qcl plus the displacement. -/
def Claims.vecAt (s : State) (b : BitVec 3) (m : BitVec 2) (D A : Word) : Prop := (m ≠ 2 ∧ A = s.X (b.setWidth 5) + D) ∨ (m = 2 ∧ ∃ h r, s.thr.qs.qcl = h :: r ∧ A = h + D)

/-- R180: what an access leaves of its address: mode 1 advances the base register by `n` bytes, mode 2 takes the entry of qcl. -/
def Claims.vecAfter (b : BitVec 3) (m : BitVec 2) (n : Nat) (s : State) : State :=
  if m = 1 then s.modThr (·.writeX s.slot (b.setWidth 5) (s.X (b.setWidth 5) + wofNat n)) else if m = 2 then s.modThr (fun x => { x with qs := { x.qs with qcl := x.qs.qcl.drop 1 } }) else s

/-- The address of a contiguous vector load, with its instruction and its alignment (R186). -/
def Claims.vecLoads (k v : BitVec 4) (b : BitVec 3) (m : BitVec 2) (d : BitVec 12) : List (Instr × Nat) := [(.vld k v b m d, 64), (.vldu k v b m d, 1)]

/-- R179 to R182, R186, R188, R189: VLD, VLDU and VLDB. From the thread's own scratchpad the 512 bytes, or the one element at every position, go to the register v through VVIEW or join
qlw; from any other place what the access gives does (`loadRuns`). A misaligned address traps before anything has moved; a missing token, entry or place in qlw holds the syllable.
SLDQ appends the sign- or zero-extended value of its w bytes to qlc. -/
def Claims.VectorLoads : Prop :=
  ∀ (s : State) (k v : BitVec 4) (b : BitVec 3) (m : BitVec 2), Claims.canStart s .l k →
    (∀ d : BitVec 12, ∀ q ∈ Claims.vecLoads k v b m d, ∀ A, Claims.vecAt s b m (64 * d.signExtend 64) A →
      (v ≠ 15 ∨ s.thr.qs.qlw.length < 16 →
        (∀ off, A = s.ownAddr off → off % q.2 = 0 → off + 512 ≤ 0x300000 → s.cleanOwn off 512 →
          exec q.1 s = .next (Claims.sylDone s k (fun u => Claims.vecAfter b m 512 (u.putLoad v (BitVec.ofNat 4096 (s.ownValue off 512)))))) ∧
        (∀ bs t, A.toNat % q.2 = 0 → ((s.setRes .done).popTokens k).loadRuns s.ct s.ch [(A, 512)] true = .ok (bs, t) →
          exec q.1 s = .next ((Claims.vecAfter b m 512 (t.putLoad v (BitVec.ofNat 4096 (leNat bs)))).pushTokens k)) ∧
        (A.toNat % q.2 ≠ 0 → s.thr.awaits .l = false → exec q.1 s = .next (s.traps { cause := 2, info := 0, addr := A }))) ∧
      (v = 15 → 16 ≤ s.thr.qs.qlw.length → exec q.1 s = .next (s.setRes .held))) ∧
    (∀ (w : BitVec 2) (d : BitVec 10) (A : Word), Claims.vecAt s b m (d.signExtend 64) A → let n := 2 ^ w.toNat
      (v ≠ 15 ∨ s.thr.qs.qlw.length < 16 →
        (∀ off, A = s.ownAddr off → off % n = 0 → off + n ≤ 0x300000 → s.cleanOwn off n → ∃ x : VecVal,
          exec (.vldb k v b m w d) s = .next (Claims.sylDone s k (fun u => Claims.vecAfter b m n (u.putLoad v x))) ∧ ∀ j < 512 / n, vget x.toNat (8 * n) j = s.ownValue off n) ∧
        (A.toNat % n ≠ 0 → s.thr.awaits .l = false → exec (.vldb k v b m w d) s = .next (s.traps { cause := 2, info := 0, addr := A })))) ∧
    (∀ (w : BitVec 2) (z : BitVec 1) (d : BitVec 9) (A : Word), Claims.vecAt s b m (d.signExtend 64) A → let n := 2 ^ w.toNat
      (s.thr.qs.qlc.length < 32 →
        (∀ off, A = s.ownAddr off → off % n = 0 → off + n ≤ 0x300000 → s.cleanOwn off n → ∃ x : Word,
          exec (.sldq k b m w z d) s = .next (Claims.sylDone s k (fun u => Claims.vecAfter b m n (u.modThr (fun y => { y with qs := { y.qs with qlc := y.qs.qlc ++ [x] } })))) ∧
          (z = 0 → x.toNat = s.ownValue off n) ∧ (z = 1 → x.toInt = Claims.sInt (8 * n) (s.ownValue off n))) ∧
        (A.toNat % n ≠ 0 → s.thr.awaits .l = false → exec (.sldq k b m w z d) s = .next (s.traps { cause := 2, info := 0, addr := A }))) ∧
      (32 ≤ s.thr.qs.qlc.length → exec (.sldq k b m w z d) s = .next (s.setRes .held)))

/-- R180, R181, R187: VLDS and VSTS make one access of w bytes for each of the 512 / w elements, at A + i · X(s); each address is checked for alignment before any byte moves. A load from the
thread's own scratchpad takes each element from its address; a store whose source holds no poison writes the elements whose first mask bit is 1, of two on the same bytes the higher-numbered last. -/
def Claims.StridedAccess : Prop :=
  ∀ (s : State) (k v : BitVec 4) (b r : BitVec 3) (w m : BitVec 2) (A : Word), Claims.vecAt s b m 0 A → let n := 2 ^ w.toNat
    let at_ := fun (i : Nat) => A + wofNat i * s.X (r.setWidth 5)
    (Claims.canStart s .l k → v ≠ 15 ∨ s.thr.qs.qlw.length < 16 →
      (∀ off : Nat → Nat, (∀ i < 512 / n, at_ i = s.ownAddr (off i) ∧ off i % n = 0 ∧ off i + n ≤ 0x300000 ∧ s.cleanOwn (off i) n) → ∃ x : VecVal,
        exec (.vlds k v b r w m) s = .next (Claims.sylDone s k (fun u => Claims.vecAfter b m n (u.putLoad v x))) ∧ ∀ i < 512 / n, vget x.toNat (8 * n) i = s.ownValue (off i) n) ∧
      (∀ i < 512 / n, (at_ i).toNat % n ≠ 0 → (∀ j < i, (at_ j).toNat % n = 0) → s.thr.awaits .l = false →
        exec (.vlds k v b r w m) s = .next (s.traps { cause := 2, info := 0, addr := at_ i }))) ∧
    (Claims.canStart s .s k → ∀ (x : VecVal) (mask : PredVal), s.storeSrc v = some (x, mask) → s.srcPoison v = none →
      (∀ off : Nat → Nat, s.thr.posting.contains .s = false → (∀ i < 512 / n, at_ i = s.ownAddr (off i) ∧ off i % n = 0 ∧ off i + n ≤ 0x300000 ∧ s.tile.touchesLive (off i) n = false) →
        ∃ t, exec (.vsts k v b r w m) s = .next t ∧ SameBytes s t (fun a => ∃ i < 512 / n, mask.getLsbD (i * n) = true ∧ ∃ j < n, a = .spad s.run.cur.tile (off i + j)) ∧
          (∀ i < 512 / n, mask.getLsbD (i * n) = true → (∀ i' < 512 / n, i < i' → off i' ≠ off i ∨ mask.getLsbD (i' * n) = false) → ∀ j < n,
            t.byteAt (.spad s.run.cur.tile (off i + j)) = BitVec.ofNat 8 (vget x.toNat 8 (i * n + j))) ∧
          t.thr = (Claims.sylDone s k (fun u => Claims.vecAfter b m n (u.popStore v))).thr) ∧
      (∀ i < 512 / n, (at_ i).toNat % n ≠ 0 → (∀ j < i, (at_ j).toNat % n = 0) → s.thr.awaits .s = false →
        exec (.vsts k v b r w m) s = .next (s.traps { cause := 2, info := 1, addr := at_ i })))

/-- The contiguous vector stores with their source and their alignment (R186): VSTU takes its data and mask from qws only. -/
def Claims.vecStores (k v : BitVec 4) (b : BitVec 3) (m : BitVec 2) (d : BitVec 12) : List (Instr × BitVec 4 × Nat) := [(.vst k v b m d, v, 64), (.vstu k b m d, 15, 1)]

/-- R156, R180 to R182, R184, R186: VST and VSTU. To the thread's own scratchpad, where no live barrier stands, the bytes whose mask bit is 1 are stored and no other byte changes; the
data are the register v, no unit of which is poisoned, with every byte, or the oldest entry of qws with its mask, which it takes. A misaligned address traps before anything has moved; without an entry it is held. -/
def Obligations.VectorStores : Prop :=
  ∀ (s : State) (k v : BitVec 4) (b : BitVec 3) (m : BitVec 2) (d : BitVec 12), Claims.canStart s .s k → ∀ q ∈ Claims.vecStores k v b m d, ∀ A, Claims.vecAt s b m (64 * d.signExtend 64) A →
    (∀ x mask, s.storeSrc q.2.1 = some (x, mask) → s.srcPoison q.2.1 = none →
      (∀ off, s.thr.posting.contains .s = false → A = s.ownAddr off → off % q.2.2 = 0 → off + 512 ≤ 0x300000 → s.tile.touchesLive off 512 = false →
        ∃ t, exec q.1 s = .next t ∧ SameBytes s t (fun a => ∃ j < 512, mask.getLsbD j = true ∧ a = .spad s.run.cur.tile (off + j)) ∧
          (∀ j < 512, mask.getLsbD j = true → t.byteAt (.spad s.run.cur.tile (off + j)) = BitVec.ofNat 8 (vget x.toNat 8 j)) ∧
          t.thr = (Claims.sylDone s k (fun u => Claims.vecAfter b m 512 (u.popStore q.2.1))).thr) ∧
      (A.toNat % q.2.2 ≠ 0 → s.thr.awaits .s = false → exec q.1 s = .next (s.traps { cause := 2, info := 1, addr := A }))) ∧
    (q.2.1 ≠ 15 → s.storeSrc q.2.1 = some (s.readVec v, BitVec.allOnes 512)) ∧ (q.2.1 = 15 → s.storeSrc q.2.1 = s.thr.qs.qws.head?) ∧
    (s.storeSrc q.2.1 = none → exec q.1 s = .next (s.setRes .held))

/-! ## Copy commands and window rings -/

/-- The address operand of a copy command (R222, R230): a register, or with q the oldest entry of qcl, which acceptance takes. -/
def Claims.copyAt (s : State) (a : BitVec 3) (q : BitVec 1) (A : Word) : Prop := (q = 0 ∧ A = s.X (a.setWidth 5)) ∨ (q = 1 ∧ ∃ r, s.thr.qs.qcl = A :: r)

/-- The registers after an acceptance under inc (R230, R231): d and, unless the address came from qcl, a advance by the length; `wide` keeps the upper 16 bits of d. -/
def Claims.copyNext (s : State) (d a : BitVec 3) (len : Nat) (inc q : BitVec 1) (wide : Bool) (x : Thread) : Thread :=
  let D := (s.X (d.setWidth 5)).toNat
  if inc = 0 then x
  else
    let y := x.writeX s.slot (d.setWidth 5) (if wide then wofNat (D / 2 ^ 48 * 2 ^ 48 + (D + len) % 2 ^ 48) else wofNat (D + len))
    if q = 1 then y else y.writeX s.slot (a.setWidth 5) (s.X (a.setWidth 5) + wofNat len)

/-- What an accepted command leaves: its tokens, its qcl entry, its registers, and the command in flight under the thread's next number; one without bytes is done at once. No byte has moved. -/
def Claims.accepted (s : State) (k : BitVec 4) (q : BitVec 1) (c : Cmd) (regs : Thread → Thread) : State :=
  Claims.sylDone s k (fun u => u.modThr (fun x =>
    let y := regs (if q = 1 then { x with qs := { x.qs with qcl := x.qs.qcl.drop 1 } } else x)
    { y with cmds := if c.total = 0 then y.cmds else y.cmds ++ [{ c with id := y.nextCmd }], nextCmd := y.nextCmd + 1 }))

/-- A length operand without a remote barrier (R231). -/
def Claims.plainLen (N : Word) : Prop := N.toNat ≤ 0x1000000

/-- A barrier operand is aligned (R226): all ones, or a multiple of 16. -/
def Claims.barOk (B : Word) : Prop := B = BitVec.allOnes 64 ∨ B.toNat % 16 = 0

/-- R222 to R224, R226, R230 to R233, R235: the acceptance of a copy command. With its tokens, a free entry and legal operands it completes at once: the command joins those in flight with its
operands as read, the registers advance under inc, and no byte moves yet. A misaligned barrier traps as a misaligned access; a length above 0x100_0000 or a local operand outside its
range as an access violation; without a free entry or its qcl entry it is held. The local operand and the barrier are read by `localRange` and `barOperand`, which answer the offset
that a name of the own scratchpad stands for. The access kind 0 of these traps and the naming of a barrier operand are the model's deductions (log entries 91 and 39). -/
def Claims.CopyAcceptance : Prop :=
  ∀ (s : State) (k : BitVec 4) (d a n b : BitVec 3), let D := s.X (d.setWidth 5); let N := s.X (n.setWidth 5); let B := s.X (b.setWidth 5); let len := N.toNat % 2 ^ 32
    (∀ (i q : BitVec 1) (A : Word), Claims.canStart s .l k → Claims.copyAt s a q A → s.tile.hasEntry s.ch = true →
      (∀ off bar, Claims.barOk B → Claims.plainLen N → s.localRange D len { window := true } = .ok off → s.barOperand B = .ok bar →
        exec (.cpin k d a n b i q) s = .next (Claims.accepted s k q (s.newCmd .cpin (wofNat off) A N bar len) (Claims.copyNext s d a len i q false))) ∧
      (¬ Claims.barOk B → s.thr.awaits .l = false → exec (.cpin k d a n b i q) s = .next (s.traps { cause := 2, info := 0, addr := B })) ∧
      (∀ e, Claims.barOk B → Claims.plainLen N → s.localRange D len { window := true } = .error e → s.thr.awaits .l = false →
        exec (.cpin k d a n b i q) s = .next (s.traps { cause := 4, info := 0, addr := D })) ∧
      (Claims.barOk B → ¬ Claims.plainLen N → s.thr.awaits .l = false → exec (.cpin k d a n b i q) s = .next (s.traps { cause := 4, info := 0, addr := 0 }))) ∧
    (∀ (i q : BitVec 1), Claims.canStart s .l k → s.tile.hasEntry s.ch = false ∨ (q = 1 ∧ s.thr.qs.qcl = []) → exec (.cpin k d a n b i q) s = .next (s.setRes .held)) ∧
    (let A := s.X (a.setWidth 5)
     ∀ i : BitVec 1, Claims.canStart s .s k → s.tile.hasEntry s.ch = true → Claims.barOk B →
      (∀ off bar, Claims.plainLen N → s.localRange A len { window := true } = .ok off → s.barOperand B = .ok bar →
        exec (.cpout k d a n b i) s = .next (Claims.accepted s k 0 (s.newCmd .cpout D (wofNat off) N bar len) (Claims.copyNext s d a len i 0 false))) ∧
      (∀ src dst bar p, Claims.plainLen N → s.localRange A len { window := true } = .ok src → s.localRange D len { window := true, alias_ := true } = .ok dst →
        s.cplocDst D dst len false = .ok p → s.barOperand B = .ok bar →
        exec (.cploc k d a n b i) s =
          .next (Claims.accepted s k 0 { s.newCmd .cploc (wofNat dst) (wofNat src) N bar len with peer := p.1, req := p.2 } (Claims.copyNext s d a len i 0 false))) ∧
      (∀ src bar e r, Claims.plainLen N → s.localRange A len { window := true } = .ok src → s.shadow s.ct = false →
        s.winAsk (s.ctxOf s.ct) (D.toNat / 2 ^ 48) = none →
        s.remoteCheck (s.ctxOf s.ct) (D.toNat / 2 ^ 48) (D.toNat % 2 ^ 48) len 1 true = some (e, r) → e.kind ≠ 3 → s.barOperand B = .ok bar →
        exec (.cprem k d a n b i) s =
          .next (Claims.accepted s k 0 { s.newCmd .cprem D (wofNat src) N bar len with peer := e.peer, req := some r } (Claims.copyNext s d a len i 0 true))) ∧
      (¬ Claims.plainLen N → N.toNat < 2 ^ 32 → s.thr.awaits .s = false → exec (.cpout k d a n b i) s = .next (s.traps { cause := 4, info := 0, addr := 0 }) ∧
        exec (.cploc k d a n b i) s = .next (s.traps { cause := 4, info := 0, addr := 0 }) ∧ exec (.cprem k d a n b i) s = .next (s.traps { cause := 4, info := 0, addr := 0 }))) ∧
    (∀ x off m, 1 ≤ m → off + m ≤ 0x300000 → x = s.ownAddr off ∨ x = wofNat off → s.localRange x m { own := true } = .ok off ∧ s.localRange x m { window := true } = .ok off) ∧
    s.barOperand (BitVec.allOnes 64) = .ok (BitVec.allOnes 64) ∧
    ∀ off, off % 16 = 0 → off + 16 ≤ 0x300000 → s.tile.live off = true → s.barOperand (s.ownAddr off) = .ok (barAt s.ct off)

/-- R226, R232, R233: the acceptance of CPINB, GATHER and SCATTER. CPINB's operands name the B-stratum place, the columns and the pitch; GATHER and SCATTER read a descriptor of 32 bytes
(`readDesc`). Accepted, the command joins those in flight; no byte moves. While a syllable of the tile waits for a remap point CPINB is held. -/
def Claims.BlockCommands : Prop :=
  ∀ (s : State) (k : BitVec 4) (d a n b : BitVec 3), s.tile.hasEntry s.ch = true →
    let D := s.X (d.setWidth 5); let N := s.X (n.setWidth 5); let B := s.X (b.setWidth 5)
    let row := D.toNat % 2 ^ 14; let col := D.toNat / 2 ^ 14 % 2 ^ 8; let K := N.toNat % 2 ^ 16; let C := N.toNat / 2 ^ 16 % 2 ^ 8 + 1; let code := N.toNat / 2 ^ 24 % 2 ^ 8
    let pitch := N.toNat / 2 ^ 32; let wb := 2 ^ code
    let legal := D.toNat < 2 ^ 22 ∧ code ≤ 2 ∧ 1 ≤ K ∧ K ≤ 16384 ∧ row + K * wb ≤ 16384 ∧ col + C ≤ s.tile.geom.cols.length
    (∀ (p q : BitVec 1) (A : Word), Claims.canStart s .l k → Claims.copyAt s a q A → Claims.barOk B → s.tile.remapWaits = false →
      (∀ src bar, legal → s.barOperand B = .ok bar → (p = 0 → src = A) → (p = 1 → ∃ off, s.localRange A ((K - 1) * pitch + C * wb) {} = .ok off ∧ src = wofNat off) →
        exec (.cpinb k d a n b p q) s =
          .next (Claims.accepted s k q { s.newCmd .cpinb D src N bar (K * C * wb) with local_ := p = 1, cols := (s.tile.geom.cols.drop col).take C } id)) ∧
      (¬ legal → s.thr.awaits .l = false → exec (.cpinb k d a n b p q) s = .next (s.traps { cause := 4, info := 0, addr := D }))) ∧
    (∀ (p q : BitVec 1), s.tile.remapWaits = true → exec (.cpinb k d a n b p q) s = .next (s.setRes .held)) ∧
    (∀ (p : BitVec 2) (q : BitVec 1) (A : Word) ds off bar, Claims.canStart s .l k → Claims.copyAt s a q A → Claims.barOk B → s.readDesc A = .ok ds → s.barOperand B = .ok bar →
      let total := ds.2.getD 1 0 * ds.2.getD 4 0
      s.localRange D total {} = .ok off →
      exec (.gather k d a b p q) s = .next (Claims.accepted s k q { s.newCmd .gather (wofNat off) (wofNat ds.1) 0 bar total with pol := p = 1, cols := ds.2 } id)) ∧
    (∀ ds off bar, Claims.canStart s .s k → Claims.barOk B → s.readDesc D = .ok ds → s.barOperand B = .ok bar →
      let total := ds.2.getD 1 0 * ds.2.getD 4 0
      s.localRange (s.X (a.setWidth 5)) total {} = .ok off →
      exec (.scatter k d a b) s = .next (Claims.accepted s k 0 { s.newCmd .scatter (wofNat ds.1) (wofNat off) 0 bar total with cols := ds.2 } id)) ∧
    (∀ x off, x = s.ownAddr off → off % 16 = 0 → off + 32 ≤ 0x300000 →
      let v := s.ownValue
      v (off + 8) 8 % 4 = 0 → v (off + 16) 4 ≤ 2 ^ 20 → v (off + 28) 2 % 2 = 0 → 2 ≤ v (off + 28) 2 → v (off + 28) 2 ≤ 256 → v (off + 30) 2 = 0 →
      s.readDesc x = .ok (v off 8, [v (off + 8) 8, v (off + 16) 4, v (off + 20) 4, v (off + 24) 4, v (off + 28) 2]))

/-- PREF's line at one address (R238): the superblock of a WB page is fetched, any other address does nothing. -/
def Claims.prefAt (s : State) (a : Word) : State :=
  if 2 ^ 57 ≤ a.toNat ∨ s.isLocal s.ct a = true then s
  else match s.walk (s.ctxOf s.ct) a.toNat .load with
    | .ok (.mem loc 0) => s.prefetch s.ct (loc / 256)
    | _ => s

/-- The superblock that a new one evicts from the acting tile's L1: the oldest of its set, when the set's twelve ways are taken (R207; log entry 9). -/
def Claims.evicted (s : State) (b : Nat) : List Nat :=
  let same := s.tile.l1.blocks.filter (fun x => x % 128 == b % 128)
  if s.tile.l1.blocks.contains b ∨ same.length < 12 then [] else same.take 1

/-- The byte of memory at a location. -/
def Claims.locSpot (loc : Nat) : Spot := if loc < hostLoc then .hbm loc else .host (loc - hostLoc)

/-- What a write to a protected atom writes besides: an undo record of the log, and the atom's bit of the map (R419, R420). -/
def Claims.logged (s : State) (m : Spot) : Prop :=
  s.grp.covers = true ∧ ((∃ i < 64 * s.grp.logCap, m = .hbm (s.grp.logBase + 0x10000 + i)) ∨ ∃ off < s.grp.imageSize, m = .hbm (bitmapBase + off / 256))

/-- R214, R215, R236 to R239: WRSET installs the ring of its descriptor and starts the rows of its lookahead; WRADV moves a ring's head on by the rows that have landed and starts those that
newly fall inside the lookahead, and is held, without any effect, while its tokens or the first of those rows are not there; PREF fetches the superblocks
of WB pages that its addresses name into the L1 and does nothing else: of memory only the dirty bytes of a superblock that one evicts change. WFLUSH completes once no line of its windows is held back and,
with ack, every posted write before it is acknowledged. What a WRADV and a WFLUSH that wait have behind them ([rows left, head], [1] and [2, number]) is the model's own record (log entry 38). -/
def Obligations.RingsAndHints : Prop :=
  ∀ (s : State) (k : BitVec 4),
    (∀ (a : BitVec 3) (r : BitVec 2) (g : Ring), Claims.canStart s .l k → s.readRing (s.X (a.setWidth 5)) = .ok g →
      (s.thr.cmds.any (fun c => c.kind == .ringRow && c.ringNo == r.toFin) = false →
        exec (.wrset k a r) s =
          .next (((((s.setRes .done).popTokens k).modThr (fun x => { x with rings := x.rings.set r.toFin g })).startRows r.toFin 0).pushTokens k)) ∧
      (s.thr.cmds.any (fun c => c.kind == .ringRow && c.ringNo == r.toFin) = true → exec (.wrset k a r) s = .next (s.setRes .held))) ∧
    (∀ x off, x = s.ownAddr off → off % 16 = 0 → off + 32 ≤ 0x300000 →
      let v := s.ownValue
      let bar := v (off + 24) 4; let len := 64 * (v (off + 28) 2 + 1); let n := v (off + 30) 1 + 1; let l := v (off + 31) 1 + 1
      bar % 16 = 0 → bar + 16 ≤ 0x300000 → s.tile.live bar = true → v (off + 20) 4 % 64 = 0 → len ≤ 65536 → l ≤ n → v (off + 20) 4 + n * len ≤ 0x300000 →
      s.readRing x = .ok ⟨true, wofNat (v off 8), wofNat (v (off + 8) 8), v (off + 16) 4, v (off + 20) 4, bar, len, n, l, 0, 0, []⟩) ∧
    (∀ (n : BitVec 10) (r : BitVec 2), let g := s.thr.rings[r.toFin]
      (g.valid = true → Claims.canStart s .l k → s.prog = [] → 1 ≤ n.toNat → n.toNat ≤ g.l → g.next ≤ g.head + g.l → s.thr.fetching r.toFin g.head (g.head + n.toNat) = false →
        exec (.wradv k n r) s = .next (Claims.sylDone ((((s.setRes .done).startRows r.toFin (g.head + n.toNat)).setHead r.toFin (g.head + n.toNat)).setProg []) k id)) ∧
      (g.valid = true → Claims.canStart s .l k → s.prog = [] → 1 ≤ n.toNat → g.next ≤ g.head + g.l → s.thr.fetching r.toFin g.head (g.head + min n.toNat g.l) = true →
        exec (.wradv k n r) s = .next (s.setRes .held)) ∧
      (g.valid = true → Claims.canStart s .l k → s.prog = [] → g.next ≤ g.head + g.l → let w := (s.setRes .done).advance r.toFin (n.toNat + 1) n.toNat g.head
        (w.2.1 = 0 → exec (.wradv k n r) s = .next (Claims.sylDone ((w.1.setHead r.toFin w.2.2).setProg []) k id)) ∧
        (w.2.1 ≠ 0 → w.2.1 ≠ n.toNat → exec (.wradv k n r) s = .next ((w.1.setProg [w.2.1, w.2.2]).setRes .held))) ∧
      (∀ m h, g.valid = true → Claims.canStart s .l k → s.prog = [m, h] → let w := (s.setRes .done).advance r.toFin (n.toNat + 1) m h
        (w.2.1 = 0 → exec (.wradv k n r) s = .next (Claims.sylDone ((w.1.setHead r.toFin w.2.2).setProg []) k id)) ∧
        (w.2.1 ≠ 0 → exec (.wradv k n r) s = .next ((w.1.setProg [w.2.1, w.2.2]).setRes .held))) ∧
      (g.valid = false → Claims.canStart s .l k → s.thr.awaits .l = false → exec (.wradv k n r) s = .next (s.traps { cause := 4, info := 0, addr := 0 })) ∧
      (tokReady s.thr.qs.tok s.slot k = false → exec (.wradv k n r) s = .next (s.setRes .held))) ∧
    (∀ (b : BitVec 3) (c : BitVec 4) (m : BitVec 2) (d : BitVec 9), Claims.canStart s .l k → 
      let w := (List.range (c.toNat + 1)).foldl (fun x i => Claims.prefAt x (s.X (b.setWidth 5) + 256 * d.signExtend 64 + wofNat (256 * i))) ((s.setRes .done).popTokens k)
      exec (.pref k b c m d) s =
        .next ((if m = 1 then w.modThr (·.writeX w.slot (b.setWidth 5) (w.thr.readX w.slot (b.setWidth 5) + wofNat (256 * (c.toNat + 1)))) else w).pushTokens k)) ∧
    (∀ b : Nat, let u := s.prefetch s.ct b; let gone := Claims.evicted s b
      (∀ t h, u.threadAt t h = s.threadAt t h) ∧ u.ctxs = s.ctxs ∧ u.edge = s.edge ∧
      SameBytes s u (fun a => (∃ o, a = .line s.run.cur.tile o ∧ (o / 256 = b ∨ o / 256 ∈ gone)) ∨ (∃ x ∈ s.tile.l1.dirty, x / 256 ∈ gone ∧ a = Claims.locSpot x) ∨ Claims.logged s a) ∧
      (s.grp.covers = false → ∀ l, l / 4 = b → u.tile.l1.valid.contains l = true)) ∧
    (∀ (w : BitVec 6) (l c : BitVec 1), let ws := if l = 1 then List.finRange 64 else [w.toFin]
      let lines := ws.any (fun i => !s.thr.win[i].lines.isEmpty); let flits := ws.any (fun i => !s.thr.win[i].flits.isEmpty)
      Claims.canStart s .s k →
      (s.prog = [] → lines = false → c = 0 ∨ flits = false → exec (.wflush k w l c) s = .next (Claims.sylDone s k id)) ∧
      (s.prog = [] → lines = true → ∃ t, exec (.wflush k w l c) s = .next t ∧ t.run.res = .held ∧ t.prog = (if s.thr.eS.head.isSome then [1] else []) ∧ ∀ i ∈ ws, ∀ e ∈ t.thr.win[i].lines, e.send = true) ∧
      (s.prog = [] → lines = false → c = 1 → flits = true → ∃ n, exec (.wflush k w l c) s = .next ((s.setProg [2, n]).setRes .held) ∧ ∀ i ∈ ws, ∀ e ∈ s.thr.win[i].flits, e.num ≤ n) ∧
      (s.prog = [1] → ws.any (fun i => s.thr.win[i].lines.any (·.send)) = false → c = 0 ∨ flits = false → exec (.wflush k w l c) s = .next (Claims.sylDone (s.setProg []) k id)) ∧
      (∀ n, s.prog = [2, n] → (∀ i ∈ ws, ∀ e ∈ s.thr.win[i].flits, n < e.num) → exec (.wflush k w l c) s = .next (Claims.sylDone (s.setProg []) k id)) ∧
      (∀ n, s.prog = [2, n] → (∃ i ∈ ws, ∃ e ∈ s.thr.win[i].flits, e.num ≤ n) → exec (.wflush k w l c) s = .next (s.setRes .held)))

/-! ## Barriers, atomics, fences, the shuffle engine, segments and regions -/

/-- R244, R247: one update of a barrier. With nothing pending left (arr and sec both 0) the phase advances by one modulo 16 and arr is loaded from the new reload; the notifying thread's UICAUSE
bit is set. Otherwise the counts change, modulo their widths. Nothing else of the tile changes but UICAUSE bits and the barrier's 16 bytes. -/
def Claims.BarrierUpdate : Prop :=
  ∀ (x : Tile) (off a e l d : Nat), let g := x.bar off; let y := x.barUpdate off a e l d
    let reload := (g.reload + 2 ^ 20 - d % 2 ^ 20) % 2 ^ 20
    let arr := (g.arr + 2 ^ 20 - a % 2 ^ 20) % 2 ^ 20
    let sec := (((g.sec : Int) + e - l) % 2 ^ 40).toNat
    (a + e + l + d = 0 → y = x) ∧
    (a + e + l + d ≠ 0 → arr = 0 → sec = 0 → y.bar off = { g with phase := (g.phase + 1) % 16, arr := reload, sec := 0, reload := reload } ∧
      (g.notify = true → ∀ h : Fin 4, ∀ i, (x.th[h]).tbFind off = some i → tbNotify (x.th[h]).csr.tbreg[i] = true →
        (y.th[h]).csr.uicause = wset (x.th[h]).csr.uicause i.val) ∧ (g.notify = false → y.th = x.th)) ∧
    (a + e + l + d ≠ 0 → arr ≠ 0 ∨ sec ≠ 0 → y = x.setBar off { g with arr := arr, sec := sec, reload := reload } ∧ y.bar off = { g with arr := arr, sec := sec, reload := reload }) ∧
    y.tags = x.tags ∧ y.spad.poison = x.spad.poison ∧ ∀ b, b < off ∨ off + 16 ≤ b → y.spad.mem.byte b = x.spad.mem.byte b

/-- R244 to R250: the barrier instructions at a granule of the own scratchpad: what each leaves of the barrier, its tag and the thread's registration, and d. A second arrival in one phase
and a wait in the phase named are held. The cases that R248 lists raise the access violation, and a misaligned address its trap; neither changes anything. -/
def Claims.BarrierInstructions : Prop :=
  ∀ (s : State) (d a b : BitVec 5) (off : Nat), s.slot = .c → s.X a = s.ownAddr off → off + 16 ≤ 0x300000 → s.thr.awaits .c = false →
    let x := s.tile; let g := x.bar off; let v := s.X b
    let viol := fun i => exec i s = .next (s.traps { cause := 4, info := 0, addr := s.X a })
    (off % 16 = 0 →
      (∀ n : BitVec 1,
        (∀ i, s.thr.tbFree = some i → x.live off = false → v.toNat < 2 ^ 20 →
          exec (.tbinit d a b n) s = .next (((s.modTile (fun y => { y.setBar off ⟨0, v.toNat, n == 1, false, false, 0, v.toNat⟩ with tags := insNat off y.tags })).modThr
            (fun y => { y with csr := { y.csr with tbreg := y.csr.tbreg.set i (tbEntry off (n == 1) false 0) } })).regDone [] d (wofNat i.val))) ∧
        (s.thr.tbFree = none ∨ x.live off = true ∨ 2 ^ 20 ≤ v.toNat → viol (.tbinit d a b n))) ∧
      (∀ i, x.live off = true → s.thr.tbFree = some i → s.thr.tbFind off = none →
        exec (.tbjoin d a) s = .next ((s.modThr (fun y => { y with csr := { y.csr with tbreg := y.csr.tbreg.set i (tbEntry off false false 0) } })).regDone [] d (wofNat i.val))) ∧
      (x.live off = false ∨ s.thr.tbFree = none ∨ s.thr.tbFind off ≠ none → viol (.tbjoin d a)) ∧
      (∀ i, x.live off = true → s.thr.tbFind off = some i → v.toNat < 2 ^ 39 → g.tooMany v = false → let r := s.thr.csr.tbreg[i]
        (g.arr ≠ 0 → tbArrived r = false ∨ tbPhase r ≠ g.phase →
          exec (.tbarrive d a b) s = .next (((s.modThr (fun y => { y with csr := { y.csr with tbreg := y.csr.tbreg.set i (tbEntry off (tbNotify r) true g.phase) } })).modTile
            (·.barUpdate off 1 v.toNat 0 0)).regDone [] d (wofNat g.phase))) ∧
        (g.arr = 0 → tbArrived r = false ∨ tbPhase r ≠ g.phase →
          exec (.tbarrive d a b) s = .next ((s.modTile (fun y => (y.setBar off { g with sticky := true }).barUpdate off 0 v.toNat 0 0)).regDone [] d (wofNat g.phase))) ∧
        (tbArrived r = true → tbPhase r = g.phase → exec (.tbarrive d a b) s = .next (s.setRes .held))) ∧
      (x.live off = false ∨ s.thr.tbFind off = none ∨ 2 ^ 39 ≤ v.toNat → viol (.tbarrive d a b)) ∧
      (∀ i, x.live off = true → s.thr.tbFind off = some i → g.tooMany v = true → tbArrived s.thr.csr.tbreg[i] = false ∨ tbPhase s.thr.csr.tbreg[i] ≠ g.phase → viol (.tbarrive d a b)) ∧
      (x.live off = true → g.tooMany v = false → exec (.tbexpect a b) s = .next ((s.modTile (·.barUpdate off 0 v.toNat 0 0)).setRes .done)) ∧
      (x.live off = false ∨ g.tooMany v = true → viol (.tbexpect a b)) ∧
      (x.live off = true → g.phase ≠ v.toNat % 16 → exec (.tbwait d a b) s = .next (s.regDone [] d (wofNat (s.ownValue off 8)))) ∧
      (x.live off = true → g.phase = v.toNat % 16 → exec (.tbwait d a b) s = .next (s.setRes .held)) ∧
      (x.live off = true → exec (.tbpoll d a 0) s = .next (s.regDone [] d (wofNat (s.ownValue off 8))) ∧ exec (.tbpoll d a 1) s = .next (s.regDone [] d (wofNat (s.ownValue (off + 8) 8)))) ∧
      (∀ i, x.live off = true → s.thr.tbFind off = some i → let r := s.thr.csr.tbreg[i]; let arrived := tbArrived r = true ∧ tbPhase r = g.phase
        ∃ t, exec (.tbdrop a) s = .next t ∧ t = (s.modTile (fun _ => t.tile)).setRes .done ∧ t.thr.csr.tbreg[i] = 0 ∧
          t.tile.spad = ((x.setBar off { g with notify := g.notify && !tbNotify r }).barUpdate off (if arrived then 0 else 1) 0 0 1).spad ∧
          t.tile.live off = (List.finRange 4).any (fun h => (t.tile.th[h]).tbFind off != none)) ∧
      (x.live off = false → viol (.tbwait d a b) ∧ viol (.tbpoll d a 0) ∧ viol (.tbpoll d a 1) ∧ viol (.tbdrop a)) ∧ (s.thr.tbFind off = none → viol (.tbdrop a))) ∧
    (off % 16 ≠ 0 → ∀ i ∈ [Instr.tbinit d a b 0, .tbinit d a b 1, .tbjoin d a, .tbarrive d a b, .tbexpect a b, .tbwait d a b, .tbdrop a, .tbpoll d a 0, .tbpoll d a 1],
      exec i s = .next (s.traps { cause := 2, info := 0, addr := s.X a }))

/-- The shape of an atomic: it modifies what it reads, it only reads, or it only stores (R276). -/
inductive Claims.AmKind where
  | modify | read | store

/-- R152, R254: the atomics: the instruction for its fields, its shape, how many words of `w` bits its atom has, and the new value of the atom (given its old one, the operand
and the comparand). -/
def Claims.atomics : List ((BitVec 2 → BitVec 3 → BitVec 5 → BitVec 5 → BitVec 5 → BitVec 2 → BitVec 1 → Instr) × Claims.AmKind × Nat × (Nat → Nat → Nat → Nat → Nat)) :=
  let S := Claims.sInt
  [(.amadd, .modify, 1, fun w m v _ => (m + v) % 2 ^ w), (.ammin, .modify, 1, fun w m v _ => if S w (v % 2 ^ w) < S w m then v % 2 ^ w else m),
   (.amminn, .modify, 1, fun w m v _ => min m (v % 2 ^ w)), (.ammax, .modify, 1, fun w m v _ => if S w (v % 2 ^ w) < S w m then m else v % 2 ^ w),
   (.ammaxn, .modify, 1, fun w m v _ => max m (v % 2 ^ w)), (.amand, .modify, 1, fun w m v _ => m &&& v % 2 ^ w), (.amor, .modify, 1, fun w m v _ => m ||| v % 2 ^ w),
   (.amxor, .modify, 1, fun w m v _ => m ^^^ v % 2 ^ w), (.amswap, .modify, 1, fun w _ v _ => v % 2 ^ w),
   (.amcas, .modify, 1, fun w m v c => if m = c % 2 ^ w then v % 2 ^ w else m),
   (.amfaddc, .modify, 2, fun w m v _ => let p := pairAdd (if w = 64 then fp64 else fp32) (m % 2 ^ w) (m / 2 ^ w) (v % 2 ^ w); p.1 % 2 ^ w + p.2 % 2 ^ w * 2 ^ w),
   (.amldc, .read, 2, fun _ m _ _ => m), (.amld, .read, 1, fun _ m _ _ => m), (fun o z _ a b y r => .amst o z a b y r, .store, 1, fun w _ v _ => v % 2 ^ w)]

/-- What an atomic's ordering does before its access (R37, R276): acquire-release where a load is asked for release, else the release part. -/
def Claims.amFirst (t : Claims.AmKind) (o : BitVec 2) (sc : BitVec 3) (s : State) : State :=
  if o.getLsbD 1 = false then s else match t with | .read => s.fenceAt true true sc | _ => s.releaseAt sc

/-- And after it, with WARN.ORD for an ordering that the atomic does not have and WARN.SCOPE for a local address at system scope. -/
def Claims.amLast (t : Claims.AmKind) (o : BitVec 2) (sc : BitVec 3) (near : Bool) (s : State) : State :=
  let u := if o.getLsbD 0 = false then s else match t with | .store => s.fenceAt true true sc | _ => s.acquireAt sc
  (u.warnIf (match t with | .modify => false | .read => o.getLsbD 1 | .store => o.getLsbD 0) 0).warnIf (near && sc = 7) 1

/-- The ordering has no part that waits for earlier engine syllables, or they have completed, or are frozen or behind this bundle (R276). -/
def Claims.amFree (s : State) (t : Claims.AmKind) (o : BitVec 2) : Prop :=
  (o.getLsbD 1 = false ∧ (match t with | .store => o.getLsbD 0 = false | _ => True)) ∨ s.active = true ∨ s.thr.flow.ctl = true ∨ s.thr.enginesIdle = true

/-- The destination of an atomic: the old value, its low word for a pair, or for an AMLDC of two doubles its two words in d and d + 1 (R254). -/
def Claims.amDest (op : Claims.AmKind × Nat) (d : BitVec 5) (w m : Nat) (s : State) : State :=
  match op.1, op.2 with
  | .store, _ => s
  | .read, 2 => if w = 64 then (s.W d (wofNat (m % 2 ^ w))).W (d + 1) (wofNat (m / 2 ^ w)) else s.W d (wofNat m)
  | _, _ => s.W d (wofNat (m % 2 ^ w))

/-- R37, R253 to R256, R276: the fourteen atomics of 32 and of 64 bits, in every ordering and scope. At a naturally aligned address that leads to a synchronisation SRAM the engine of that die replaces
the atom by the operation's value and d takes the old one; on an atom of HBM that is neither poisoned nor waits for a reconstruction likewise (AMLD and AMLDC write nothing; AMST reads nothing), once the tile's own L1 has given back what it holds of the
atom (the model's deduction, log entry 164); fetch does not see the new bytes at once (R80).
A misaligned address traps. A remote atomic sends its request once and is held; its answer completes it. A release that must wait for engine syllables waits before its bundle issues. -/
def Obligations.Atomics : Prop :=
  ∀ op ∈ Claims.atomics, ∀ (s : State) (o : BitVec 2) (sc : BitVec 3) (d a b : BitVec 5) (z : BitVec 2), s.slot = .c → let w := if z = 1 then 64 else 32; let n := w / 8 * op.2.2.1
    let A := s.X a; let f := op.2.2.2 w; let d' := match op.2.1 with | .store => 0 | _ => d
    let done := fun (t : State) (m : Nat) => Claims.amLast op.2.1 o sc (s.isLocal s.ct A) (Claims.amDest (op.2.1, op.2.2.1) d w m t)
    let first := Claims.amFirst op.2.1 o sc (s.setRes .done)
    (Claims.amFree s op.2.1 o → A.toNat % n = 0 → s.shadow s.ct = false →
      (∀ die off va, first.resolve s.ct s.ch A n .atomic = .ok [⟨.sync die off, va, n⟩] →
        let m := if die = 0 then first.mems.sync0 else first.mems.sync1
        let v := f (m.readN off n) (s.X b).toNat (s.X d').toNat
        exec (op.1 o sc d a b z 0) s =
          .next (done { first with mems := if die = 0 then { first.mems with sync0 := m.writeN off n v } else { first.mems with sync1 := m.writeN off n v } } (m.readN off n))) ∧
      (∀ loc k va, first.resolve s.ct s.ch A n .atomic = .ok [⟨.mem loc k, va, n⟩] →
        let here := first.evictOwn s.ct loc n
        let y := match op.2.1 with | .read => here | _ => here.markStale s.ct s.ch ⟨.mem loc k, va, n⟩
        y.needAsk loc n = none → y.hbmPoison loc n = [] →
        let m := y.hbmNat loc n
        exec (op.1 o sc d a b z 0) s = .next (done (match op.2.1 with | .read => y | _ => y.hbmWrite loc (leBytes n (f m (s.X b).toNat (s.X d').toNat))) m))) ∧
    (Claims.amFree s op.2.1 o → A.toNat % n ≠ 0 → s.thr.awaits .c = false → exec (op.1 o sc d a b z 0) s = .next (s.traps { cause := 2, info := 2, addr := A })) ∧
    (¬ Claims.amFree s op.2.1 o → exec (op.1 o sc d a b z 0) s = .next (s.setRes .waitIssue) ∧ exec (op.1 o sc d a b z 1) s = .next (s.setRes .waitIssue)) ∧
    (∀ e q, Claims.amFree s op.2.1 o → A.toNat % 2 ^ 48 % n = 0 → s.shadow s.ct = false → s.winAsk (s.ctxOf s.ct) (A.toNat / 2 ^ 48) = none →
      s.remoteCheck (s.ctxOf s.ct) (A.toNat / 2 ^ 48) (A.toNat % 2 ^ 48) n 2 false = some (e, q) → e.kind ≠ 2 →
      (s.thr.remotes.find? (fun r => r.stream == .c) = none →
        ∃ code nat, exec (op.1 o sc d a b z 1) s = .next ((first.sendRemote (BitVec.ofNat 20 e.peer) (.atomicReq q code nat (z = 1) (s.X b) (s.X d') s.origin) []).setRes .held)) ∧
      (∀ r lo hi, s.thr.remotes.find? (fun r => r.stream == .c) = some r → r.ans = .word 0 lo hi → ∃ u, exec (op.1 o sc d a b z 1) s = .next (Claims.amLast op.2.1 o sc false u) ∧
        (u.run.res = .done ∧ ((match op.2.1 with | .store => False | _ => d ≠ 0) → (op.2.2.1 = 1 ∨ w = 32) → u.X d = lo))))

/-- R37, R257, R258, R277, R278: FENCE waits for earlier engine syllables and then orders: at a scope of cluster or wider its release part cleans the tile's L1 and its acquire part flushes it; at a
scope of tile or wider the thread may fetch its own earlier stores; a relaxed FENCE acts as acquire-release with WARN.ORD. XFENCE waits for its earlier path as well, and cleans or flushes
where SCALAR/VECTOR stands on one side. That XFENCE's wait for its path too is one before its bundle issues is the model's deduction (log entry 43). Cleaning leaves no dirty byte in the L1, flushing leaves the L1 empty. -/
def Claims.Fences : Prop :=
  (∀ (s : State) (o : BitVec 2) (sc : BitVec 3), let free := s.active = true ∨ s.thr.flow.ctl = true ∨ s.thr.enginesIdle = true; let first := s.setRes .done
    (free → exec (.fence o sc) s = .next (if o = 0 then (first.fenceAt true true sc).setWarn 0 else first.fenceAt (o.getLsbD 1) (o.getLsbD 0) sc)) ∧
    (¬ free → exec (.fence o sc) s = .next (s.setRes .waitIssue)) ∧
    ∀ e l : BitVec 3, let sent := if e = 4 then first.sendAll else first
      (free → sent.thr.pathDone e.toNat = true → exec (.xfence o sc e l) s =
        .next (let u := if o = 0 then sent else sent.fenceAt (o.getLsbD 1) (o.getLsbD 0) sc
               let v := if e = 0 ∧ l ≠ 0 then u.cleanL1 s.ct else u
               if l = 0 ∧ e ≠ 0 then v.flushL1 s.ct else v)) ∧
      (free → sent.thr.pathDone e.toNat = false → exec (.xfence o sc e l) s = .next (sent.setRes .waitIssue)) ∧
      (¬ free → exec (.xfence o sc e l) s = .next (s.setRes .waitIssue))) ∧
  (∀ s : State, (∀ i : Fin 64, ∀ x ∈ (s.sendAll.thr.win[i]).lines, x.send = true) ∧ (s.thr.posted = true → s.thr.remotes = [] → (s.sendAll.thr.pathDone 4 = true))) ∧
  (∀ (s : State) (rel acq : Bool) (sc : BitVec 3), (sc = 0 → s.fenceAt rel acq sc = s) ∧ (sc = 1 → s.fenceAt rel acq sc = s.modThr (fun x => { x with fenced := s.mems.stores })) ∧
    (2 ≤ sc.toNat → acq = true → ((s.fenceAt rel acq sc).tileAt s.ct).l1 = ⟨[], [], Memory.empty, [], []⟩)) ∧
  ∀ (s : State) (t : Nat), t < 130 → ((s.flushL1 t).tileAt t).l1 = ⟨[], [], Memory.empty, [], []⟩ ∧
    ((∀ a ∈ (s.tileAt t).l1.dirty, a / 256 ∈ (s.tileAt t).l1.blocks) → ((s.cleanL1 t).tileAt t).l1.dirty = []) ∧ ((s.cleanL1 t).tileAt t).l1.valid = (s.tileAt t).l1.valid

/-- R259, R274, R280, R362: PHASE in a domain of the tile cleans the L1 and arrives, after earlier engine syllables and posted writes; it is then held until the counter of its instance has moved, and
completes with the L1 flushed and the counter in d. Before it arrives it waits, before its bundle issues, for earlier engine syllables and, its lines sent, for posted writes (log entry 43). A level without a domain is an access violation, and in a trap handler it is illegal. -/
def Claims.PhaseInstruction : Prop :=
  ∀ (s : State) (sc : BitVec 3) (d : BitVec 5), let p := s.phaseOf s.ct sc.toNat; let dom := wbit (s.tile.domid[Fin.ofNat 5 (sc.toNat - 2)]) 63
    (∀ l n, s.thr.flow.held = .phase l n → (p.count ≠ n → exec (.phase sc d) s = .next (((s.setRes .done).flushL1 s.ct).W d (wofNat p.count))) ∧
      (p.count = n → exec (.phase sc d) s = .next (s.setRes .held))) ∧
    (s.thr.flow.held = .no →
      (s.active = true → s.thr.awaits s.slot = false → exec (.phase sc d) s = .next (s.traps { cause := 1 })) ∧
      (s.active = false → dom = false → s.thr.awaits s.slot = false → exec (.phase sc d) s = .next (s.traps { cause := 4, info := 0, addr := 0 })) ∧
      (s.active = false → dom = true → s.thr.flow.ctl = true ∨ s.thr.enginesIdle = true → (∀ i : Fin 64, (s.thr.win[i]).lines = [] ∧ (s.thr.win[i]).flits = []) →
        ∃ t, exec (.phase sc d) s = .next t ∧ t.run.res = .held ∧ t.thr.flow.held = .phase sc.toNat p.count ∧ t.thr.regs = s.thr.regs) ∧
      (s.active = false → dom = true → s.thr.flow.ctl = false → s.thr.enginesIdle = false → exec (.phase sc d) s = .next (s.setRes .waitIssue)) ∧
      (s.active = false → dom = true → s.thr.flow.ctl = true ∨ s.thr.enginesIdle = true → (∃ i : Fin 64, (s.thr.win[i]).lines ≠ [] ∨ (s.thr.win[i]).flits ≠ []) →
        exec (.phase sc d) s = .next (s.sendAll.setRes .waitIssue)))

/-- Earlier engine syllables have completed, or are frozen or behind this bundle (R85, R257, R362). -/
def Claims.engFree (s : State) : Prop := s.active = true ∨ s.thr.flow.ctl = true ∨ s.thr.enginesIdle = true

/-- R409, R410, R412, R414: SEGBEGIN opens a segment with an empty count and its budget; SEGEND closes it, gives d the count and, where count or signature differ from the operands, leaves the signature trap
due at the next boundary; CROPEN opens a region with its handler and what an unwind restores, at most four deep, and d takes the depth; CRCLOSE closes the innermost one once every command and
shuffle program accepted in it is done. Opening a second segment or a fifth region, or closing where none is open, is illegal. All four wait for earlier engine syllables. -/
def Obligations.SegmentsAndRegions : Prop :=
  ∀ (s : State) (d a b : BitVec 5), let g := s.thr.seg; let ill := fun i => s.thr.awaits s.slot = false → exec i s = .next (s.traps { cause := 1 })
    (g.isOpen = true → ill (.segbegin a)) ∧ (g.isOpen = false → ill (.segend d a b)) ∧ (4 ≤ s.thr.crs.length → ill (.cropen d a)) ∧ (s.thr.crs = [] → ill (.crclose d)) ∧
    (Claims.engFree s → g.isOpen = false → (s.X a).toNat < 2 ^ 40 →
      exec (.segbegin a) s = .next ((s.modThr (fun x => { x with seg := ⟨true, 0, 0xFFFFFFFF, (s.X a).setWidth 40, s.X a ≠ 0, 0, x.seg.id + 1, [], false⟩ })).setRes .done)) ∧
    (Claims.engFree s → g.isOpen = false → 2 ^ 40 ≤ (s.X a).toNat → s.thr.awaits s.slot = false → exec (.segbegin a) s = .next (s.traps { cause := 4, info := 0, addr := s.X a })) ∧
    (Claims.engFree s → g.isOpen = true → ∃ bad, exec (.segend d a b) s = .next (((s.modThr (fun x => { x with seg := { x.seg with isOpen := false, bad := bad } })).W d (g.count.setWidth 64)).setRes .done) ∧
      (bad % 2 = 0 ↔ g.count.toNat = (s.X a).toNat % 2 ^ 40) ∧ (bad / 2 = 0 ↔ (g.sig ^^^ 0xFFFFFFFF).toNat = (s.X b).toNat % 2 ^ 32) ∧ bad < 4) ∧
    (Claims.engFree s → s.thr.crs.length < 4 → s.X a ≠ 0 → (s.X a).toNat % 16 = 0 → ∃ r : Region,
      exec (.cropen d a) s = .next (((s.modThr (fun x => { x with crs := r :: x.crs })).W d (wofNat (s.thr.crs.length + 1))).setRes .done) ∧ r.handler = s.X a ∧ r.tok = s.thr.qs.tok ∧
        r.depth = s.thr.flow.loops.length) ∧
    (Claims.engFree s → s.thr.crs.length < 4 → s.thr.awaits s.slot = false →
      ((s.X a).toNat % 16 ≠ 0 → exec (.cropen d a) s = .next (s.traps { cause := 2, info := 0, addr := s.X a })) ∧ (s.X a = 0 → exec (.cropen d a) s = .next (s.traps { cause := 4, info := 0, addr := 0 }))) ∧
    (∀ r rest, s.thr.crs = r :: rest →
      (Claims.engFree s → s.thr.regionBusy r = false → exec (.crclose d) s = .next (((s.modThr (fun x => { x with crs := rest })).W d (wofNat rest.length)).setRes .done)) ∧
      (¬ Claims.engFree s ∨ s.thr.regionBusy r = true → exec (.crclose d) s = .next (s.setRes .waitIssue))) ∧
    (¬ Claims.engFree s → (g.isOpen = false → exec (.segbegin a) s = .next (s.setRes .waitIssue)) ∧ (g.isOpen = true → exec (.segend d a b) s = .next (s.setRes .waitIssue)) ∧
      (s.thr.crs.length < 4 → exec (.cropen d a) s = .next (s.setRes .waitIssue))) ∧
    (g.isOpen = true → g.budget = true → g.left = 0 → s.thr.awaits .c = false → exec .segDeadline s =
      .next (((s.modThr (fun x => { x with seg := { x.seg with isOpen := false } })).deliver { cause := 9, slot := some .c }).setRes .trapped))

/-- R240, R242, R243: SHUF hands a program to the tile's shuffle engine, its barrier expecting one more sector; it is held while the thread has eight. A step of the first program that is END ends it and lands
its sector; one of a legal operation writes its elements, each the element of SRC that the step names, and the program's next step follows: TRANSPOSE moves an element of SRC, PERMUTE the one whose index IDX gives, CONVERT writes the
converted one. A bad step ends the program with SHUF recorded. -/
def Obligations.ShuffleEngine : Prop :=
  ∀ (s : State),
    (∀ (a b c : BitVec 5) (off : Nat) (bar : Word), s.slot = .c → s.X a = s.ownAddr off → off % 16 = 0 → off + 32 ≤ 0x300000 → Claims.barOk (s.X b) → s.barOperand (s.X b) = .ok bar →
      (s.thr.progs.length < 8 → ∃ t, exec (.shuf a b c) s = .next t ∧ t.run.res = .done ∧
        t.thr.progs = s.thr.progs ++ [⟨s.thr.nextCmd, off, bar, s.X c, 0, 0, false⟩] ∧ t.thr.nextCmd = s.thr.nextCmd + 1 ∧ t.thr.regs = s.thr.regs ∧
        (bar = BitVec.allOnes 64 → t = (s.modThr (fun _ => t.thr)).setRes .done) ∧
        (bar ≠ BitVec.allOnes 64 → t.tile.spad = (s.tile.barUpdate (barOff bar) 0 1 0 0).spad)) ∧
      (8 ≤ s.thr.progs.length → exec (.shuf a b c) s = .next (s.setRes .held))) ∧
    (∀ (a b c : BitVec 5), s.slot = .c → ¬ Claims.barOk (s.X b) → s.thr.awaits .c = false → exec (.shuf a b c) s = .next (s.traps { cause := 2, info := 0, addr := s.X b })) ∧
    (∀ p rest, s.thr.progs = p :: rest → p.stop = false → s.ctxHalted s.ct = false → let step := ShufStep.ofBytes (s.tile.spad.mem.read (p.addr + 32 * p.step) 32) p.par
      let inside := p.step < 64 ∧ p.addr + 32 * p.step + 32 ≤ 0x300000
      (inside → step.legal = true → step.op ≠ 0 → ∀ u f, s.shufRun s.ct s.ch step = some (u, f) →
        exec .shufStep s = .next (u.modThr (fun y => { y with progs := y.progs.map (fun q => if q.id = p.id then { q with step := q.step + 1, flags := q.flags ||| f } else q) }))) ∧
      (inside → step.legal = true → step.op = 0 → exec .shufStep s =
        .next (((s.modThr (fun x => { x with progs := x.progs.filter (·.id != p.id) })).orFlags p.flags).landBar s.ct s.ch p.bar 1 (wofNat (p.addr + 32 * p.step)))) ∧
      (¬ inside ∨ step.legal = false → ∃ t, exec .shufStep s = .next t ∧ (t.thr.progs = rest.filter (·.id != p.id)) ∧ wbit t.thr.csr.cperr 6 = true)) ∧
    (∀ x : ShufStep, x.op = 1 → x.fmt = 0 → x.rows = 1 → x.cols = 1 → ∀ so o, s.shufRange s.ct s.ch x.src 1 = some (true, so) → s.shufRange s.ct s.ch x.dst 1 = some (true, o) →
      s.tile.live o = false → ∃ u, s.shufRun s.ct s.ch x = some (u, 0) ∧ u.byteAt (.spad s.run.cur.tile o) = s.byteAt (.spad s.run.cur.tile so) ∧
        SameBytes s u (fun m => m = .spad s.run.cur.tile o)) ∧
    (∀ x : ShufStep, x.op = 2 → x.fmt = 0 → x.rows = 1 → x.cols = 1 → ∀ io so o, s.shufRange s.ct s.ch x.idx 2 = some (true, io) →
      let i := (s.byteAt (.spad s.run.cur.tile io)).toNat + 256 * (s.byteAt (.spad s.run.cur.tile (io + 1))).toNat
      s.shufRange s.ct s.ch x.src (i + 1) = some (true, so) → s.shufRange s.ct s.ch x.dst 1 = some (true, o) →
      s.tile.live o = false → ∃ u, s.shufRun s.ct s.ch x = some (u, 0) ∧ u.byteAt (.spad s.run.cur.tile o) = s.byteAt (.spad s.run.cur.tile (so + i)) ∧
        SameBytes s u (fun m => m = .spad s.run.cur.tile o)) ∧
    (∀ x : ShufStep, x.op = 3 → x.legal = true → x.rows = 1 → x.cols = 1 → let from_ := CFmt.ofCode (x.fmt % 16); let tgt := CFmt.ofCode (x.fmt / 16); let n := tgt.bits / 8
      from_.bits % 8 = 0 → tgt.bits % 8 = 0 → ∀ so o, s.shufRange s.ct s.ch x.src (from_.bits / 8) = some (true, so) → s.shufRange s.ct s.ch x.dst n = some (true, o) →
      (∀ j < n, s.tile.live (o + j) = false) →
      let v := convert tgt from_ (x.mode / 4 % 2 == 1) (RM.ofCode (x.mode % 4)) 0 (s.ownValue so (from_.bits / 8))
      ∃ u, s.shufRun s.ct s.ch x = some (u, v.2) ∧ (∀ j < n, u.byteAt (.spad s.run.cur.tile (o + j)) = BitVec.ofNat 8 (v.1 / 256 ^ j)) ∧
        SameBytes s u (fun m => ∃ j < n, m = .spad s.run.cur.tile (o + j)))

/-- The round word that a round instruction writes to d: a code above the round number (R404). -/
def Claims.roundDone (s : State) (d : BitVec 5) (r : Word) (code : Nat) : State := (s.W d (wofNat (r.toNat % 2 ^ 60 + code * 2 ^ 60))).setRes .done

/-- R404 to R408, R459: the round instructions of a thread of the group's context. While the group recovers they are held. With an outcome unreported they report it, once: the last round with 0 for commit, 1 for abort. Otherwise
RNDPREP in an open round whose deltas are acknowledged votes ready and completes with code 0 once the ready vote stands; RNDCOMMIT in an open round gives code 2; RNDABORT votes to abort and is held until the decision is
applied. That RNDPREP is held while a vote to abort stands is the model's choice (log entry 132), the round number beside code 3 its deduction (63), that a holder's thread is answered as one outside the group its choice
(168), and which instructions a shadow set may not run its deduction (167). A thread outside the group reads code 3 from all three and 0 from RNDSTAT, in a lost group code 4. RNDSTAT reads the round, its state and the log's use. -/
def Claims.RoundInstructions : Prop :=
  ∀ (s : State) (d : BitVec 5), let g := s.grp; let ours := s.ourThread = true ∧ g.role ≠ 2
    (s.shadow s.ct = true → s.thr.awaits s.slot = false → ∀ i ∈ [Instr.rndprep d, .rndcommit d, .rndabort d, .rndstat d 0, .rndstat d 1],
      exec i s = .next (s.traps { cause := 4, info := 0, addr := 0 })) ∧
    (s.shadow s.ct = false → ∀ i ∈ [Instr.rndprep d, .rndcommit d, .rndabort d],
      (s.ourThread = false ∨ g.st = .none ∨ g.role = 2 → exec i s = .next (Claims.roundDone s d g.round 3)) ∧
      (ours → g.st = .lost → exec i s = .next (Claims.roundDone s d g.round 4)) ∧
      (ours → g.st ≠ .none → g.st ≠ .lost → g.st ≠ .recovering → g.unrep = true →
        exec i s = .next (Claims.roundDone { s with grp := { g with unrep := false } } d g.lastRound (if g.lastAbort then 1 else 0))) ∧
      (ours → g.st = .recovering → exec i s = .next (s.setRes .held))) ∧
    (s.shadow s.ct = false → ours → g.unrep = false →
      (g.st = .voted → g.asked = false → s.thr.flow.held = .prep g.round → exec (.rndprep d) s = .next (Claims.roundDone (s.modThr (fun x => { x with flow := { x.flow with held := .no } })) d g.round 0)) ∧
      (g.st = .preparing ∨ (g.st = .voted ∧ g.asked = true) → s.thr.flow.held = .prep g.round →
        exec (.rndprep d) s = .next ((s.modThr (fun x => { x with flow := { x.flow with held := .prep g.round } })).setRes .held)) ∧
      (g.st = .opened → s.thr.flow.held = .no → Claims.engFree s → s.tile.l1.dirty = [] → g.unacked ≠ [] →
        exec (.rndprep d) s = .next (({ s with grp := { g with st := .preparing } }.modThr (fun x => { x with flow := { x.flow with held := .prep g.round } })).setRes .held)) ∧
      (g.st = .preparing ∨ g.st = .voted ∨ g.st = .applying → s.thr.flow.held = .no → exec (.rndprep d) s = .next (Claims.roundDone s d g.round 2)) ∧
      (g.st = .opened → s.thr.flow.held = .no → exec (.rndcommit d) s = .next (Claims.roundDone s d g.round 2)) ∧
      (g.st = .preparing ∨ g.st = .voted ∨ g.st = .applying → s.thr.flow.held = .no →
        exec (.rndcommit d) s = .next ((s.modThr (fun x => { x with flow := { x.flow with held := .commit g.round } })).setRes .held)) ∧
      (g.st = .opened ∨ g.st = .preparing → s.thr.flow.held = .no → ∃ t, exec (.rndabort d) s = .next t ∧ t.grp.st = .voted ∧ t.grp.asked = true ∧ t.run.res = .held ∧ t.thr.flow.held = .decide g.round) ∧
      (g.st = .voted ∨ g.st = .applying → s.thr.flow.held = .no →
        exec (.rndabort d) s = .next ((s.modThr (fun x => { x with flow := { x.flow with held := .decide g.round } })).setRes .held)) ∧
      (∀ r, g.st = .opened → r ≠ g.round → ∀ q ∈ [(Instr.rndcommit d, Held.commit r), (.rndabort d, .decide r)], s.thr.flow.held = q.2 →
        exec q.1 s = .next (Claims.roundDone (s.modThr (fun x => { x with flow := { x.flow with held := .no } })) d g.lastRound (if g.lastAbort then 1 else 0)))) ∧
    (∀ w : BitVec 1, s.shadow s.ct = false → s.ourThread = false → exec (.rndstat d w) s = .next ((s.W d 0).setRes .done)) ∧
    (s.shadow s.ct = false → s.ourThread = true → exec (.rndstat d 0) s = .next ((s.W d (wofNat (g.round.toNat % 2 ^ 60 + g.st.code * 2 ^ 60 + if g.unrep then 2 ^ 63 else 0))).setRes .done) ∧
      ∃ v : Word, exec (.rndstat d 1) s = .next ((s.W d v).setRes .done) ∧ v.getLsbD 0 = g.logFull ∧ v.getLsbD 1 = g.lastAbort ∧ v.getLsbD 2 = g.recast ∧
        v.toNat / 2 ^ 4 % 2 ^ 7 = g.regions.length % 128 ∧ v.toNat / 2 ^ 16 % 2 ^ 24 = min g.used (2 ^ 24 - 1))

/-- R402, R403: PROT adds a region to the table in an open round, sends its contents and gives d the image size; it is held while the round is not open. UNPROT marks the region as going. An index in use, no length,
an overlap or an address out of range is an access violation, a misaligned base a misaligned access, a thread outside the group, or of a holder (log entry 168), an access violation; none changes anything. -/
def Claims.ProtectedRegions : Prop :=
  ∀ (s : State) (d a b : BitVec 5) (i : BitVec 6), let A := s.X a; let B := s.X b; let g := s.grp; let len := B.toNat % 2 ^ 23 * 2 ^ 16; let off := B.toNat / 2 ^ 23 % 2 ^ 23 * 2 ^ 16
    let ours := s.ourThread = true ∧ g.role ≠ 2 ∧ g.st ≠ .none ∧ g.st ≠ .lost
    let meets := fun (r : PRegion) => overlaps off len (specOff r.spec) (specLen r.spec) || overlaps A.toNat len r.base.toNat (specLen r.spec)
    let legal := len ≠ 0 ∧ B.toNat < 2 ^ 46 ∧ off + len ≤ 0x6000000000 ∧ A.toNat + len ≤ 2 ^ 57 ∧ ∀ r ∈ g.regions, r.index ≠ i.toNat ∧ meets r = false
    (¬ ours → s.thr.awaits s.slot = false → exec (.prot d a b i) s = .next (s.traps { cause := 4, info := 1, addr := A }) ∧ exec (.unprot i) s = .next (s.traps { cause := 4, info := 1, addr := 0 })) ∧
    (ours → A.toNat % 0x10000 ≠ 0 → s.thr.awaits s.slot = false → exec (.prot d a b i) s = .next (s.traps { cause := 2, info := 1, addr := A })) ∧
    (ours → A.toNat % 0x10000 = 0 → ¬ legal → s.thr.awaits s.slot = false → exec (.prot d a b i) s = .next (s.traps { cause := 4, info := 1, addr := A })) ∧
    (∀ pa, ours → A.toNat % 0x10000 = 0 → legal → s.regionPages A.toNat off (len / 0x10000) = .ok pa → let r : PRegion := ⟨i.toNat, A, pa, B, true, false⟩
      (g.st = .opened → let u := { s with grp := { g with regions := g.regions ++ [r] } }.sendRegion r false
        exec (.prot d a b i) s = .next ((u.W d (wofNat u.grp.imageSize)).setRes .done) ∧ u.grp.regions = g.regions ++ [r]) ∧
      (g.st ≠ .opened → exec (.prot d a b i) s = .next (s.setRes .held))) ∧
    (∀ r, ours → g.regions.find? (fun r => r.index == i.toNat) = some r →
      (g.st = .opened → ∃ t, exec (.unprot i) s = .next t ∧ t.grp.regions = g.regions.map (fun q => if q.index = i.toNat then { q with going := true } else q) ∧ t.thr = s.thr ∧ t.run.res = .done) ∧
      (g.st ≠ .opened → exec (.unprot i) s = .next (s.setRes .held))) ∧
    (ours → (∀ r ∈ g.regions, r.index ≠ i.toNat) → s.thr.awaits s.slot = false → exec (.unprot i) s = .next (s.traps { cause := 4, info := 1, addr := 0 }))

/-- R395, R398 to R400: the reduction instructions. RSLOT claims a free slot for the context, with its configuration and its tree entry, or gives the code of the first refusal (4 a bad configuration, 3 no tree,
1 busy, 2 over quota). RRED at a held slot contributes the bytes at X(b) to the current epoch, once (2 where the tree takes none of this module or it has contributed, 3 after the slot has sent).
RWAIT is held until the result is here, stores it at X(b), returns the slot to idle in the next epoch and gives the status word; a failed result stores nothing. RFREE gives up a held slot and
does nothing else. A slot the context does not hold gives 1 and 8. A register operand that is a bare local offset names
that byte of the local aperture (`fxAddr`). The order of RRED's and RWAIT's checks (alignment, then the slot, then the range) is the model's deduction (log entry 62), and so is which instructions a shadow set may
not run (167). -/
def Obligations.ReductionInstructions : Prop :=
  ∀ (s : State) (d a b : BitVec 5), let A := s.X a; let B := s.X b; let c := s.ctxOf s.ct
    (s.shadow s.ct = true → s.thr.awaits s.slot = false → ∀ i ∈ [Instr.rslot d a b, .rred d a b, .rwait d a b, .rfree a], exec i s = .next (s.traps { cause := 4, info := 0, addr := 0 })) ∧
    (s.shadow s.ct = false → let i := A.toNat; let x := s.rslotAt i; let tree := s.hbmNat (wbits s.fab.rtree 12 45 * 0x1000 + 8 * i) 8
     let gives := fun (code : Word) => exec (.rslot d a b) s = .next ((s.W d code).setRes .done)
     (256 ≤ i → s.thr.awaits s.slot = false → exec (.rslot d a b) s = .next (s.traps { cause := 4, info := 0, addr := A })) ∧
     (i < 256 → badConfig B = true → gives 4) ∧ (i < 256 → badConfig B = false → tree.testBit 30 = false → gives 3) ∧
     (i < 256 → badConfig B = false → tree.testBit 30 = true →
       (∀ o, x.holder = some o → o ≠ c ∨ x.dying = true ∨ x.st ≠ .idle → gives 1) ∧ (x.holder = none → s.quota c ≤ s.slotsHeld c → gives 2) ∧
       (x.holder = some c → x.dying = false → x.st = .idle → exec (.rslot d a b) s = .next (((s.setRslot i { x with cfg := B, tree := wofNat tree }).W d 0).setRes .done)) ∧
       (x.holder = none → s.slotsHeld c < s.quota c → x.kept = [] → x.keptR = [] →
         exec (.rslot d a b) s = .next (((s.setRslot i { RSlot.free with holder := some c, cfg := B, tree := wofNat tree }).W d 0).setRes .done)))) ∧
    (s.shadow s.ct = false → let i := A.toNat % 256; let x := s.rslotAt i; let n := 4 * (x.cfg.toNat / 2 ^ 6 % 2 ^ 4 + 1); let F := s.fxAddr B
     (B.toNat % 4 ≠ 0 → s.thr.awaits s.slot = false → exec (.rred d a b) s = .next (s.traps { cause := 2, info := 0, addr := F }) ∧ exec (.rwait d a b) s = .next (s.traps { cause := 2, info := 1, addr := F })) ∧
     (B.toNat % 4 = 0 → s.heldSlot i = false → exec (.rred d a b) s = .next ((s.W d 1).setRes .done) ∧ exec (.rwait d a b) s = .next ((s.W d 8).setRes .done)) ∧
     (s.heldSlot i = false → exec (.rfree a) s = .next (s.setRes .done)) ∧
     (s.heldSlot i = true → ∃ t, exec (.rfree a) s = .next t ∧ (t.rslotAt i).dying = true ∧ (t.rslotAt i).st = .idle ∧ (t.rslotAt i).own = none ∧ (t.rslotAt i).kids = [] ∧ t.thr = s.thr ∧
       (∀ j, j % 256 ≠ i → t.rslotAt j = s.rslotAt j) ∧ SameBytes s t (fun _ => False)) ∧
     (∀ off, B.toNat % 4 = 0 → s.heldSlot i = true → F = s.ownAddr off → off + n ≤ 0x300000 → s.cleanOwn off n → x.st = .idle ∨ x.st = .opened ∧ s.fab.now < x.first + cfgDeadline x.cfg →
       (treeLocal x.tree = false ∨ x.own.isSome = true → exec (.rred d a b) s = .next ((s.W d 2).setRes .done)) ∧
       (treeLocal x.tree = true → x.own = none → (treeChildren x.tree).any (fun p => !x.kids.any (fun k => k.1 == p)) = true → cfgSkip x.cfg = false → ∃ e : Contribution,
         exec (.rred d a b) s = .next (((s.setRslot i { x with st := .opened, own := some e, first := if x.st = .idle then s.fab.now else x.first }).W d 0).setRes .done) ∧
         e.epoch = x.epoch ∧ leNat e.data = s.ownValue off n ∧ e.isPart = false ∧ e.failed = false)) ∧
     (∀ off, B.toNat % 4 = 0 → s.heldSlot i = true → F = s.ownAddr off → off + n ≤ 0x300000 → s.cleanOwn off n → let u := (s.setRes .done).nodeDue i
       treeLocal (u.rslotAt i).tree = true → (u.rslotAt i).own = none → (u.rslotAt i).st = .sent ∨ (u.rslotAt i).st = .done → exec (.rred d a b) s = .next ((u.countLate 1).W d 3)) ∧
     (B.toNat % 4 = 0 → s.heldSlot i = true → x.st ≠ .done ∨ x.result = none → exec (.rwait d a b) s = .next (s.setRes .held)) ∧
     (∀ e, B.toNat % 4 = 0 → s.heldSlot i = true → x.st = .done → x.result = some e → e.failed = true → exec (.rwait d a b) s = .next (((s.collect i).W d (x.status e)).setRes .done)) ∧
     (∀ e off, B.toNat % 4 = 0 → s.heldSlot i = true → x.st = .done → x.result = some e → e.failed = false → 1 ≤ e.data.length → F = s.ownAddr off → off + e.data.length ≤ 0x300000 →
       s.tile.touchesLive off e.data.length = false → s.thr.posting.contains s.slot = false → x.later = [] → ∃ t, exec (.rwait d a b) s = .next t ∧
         (∀ j (h : j < e.data.length), t.byteAt (.spad s.run.cur.tile (off + j)) = e.data[j]) ∧ SameBytes s t (fun m => ∃ j < e.data.length, m = .spad s.run.cur.tile (off + j)) ∧
         (t.rslotAt i).st = .idle ∧ (t.rslotAt i).epoch = x.epoch + 1 ∧ (t.rslotAt i).own = none ∧ t.thr = (s.W d (x.status e)).thr) ∧
     (∀ e, x.status e = wofNat ((if e.isPart then 1 else 0) + (if e.nanSeen then 2 else 0) + (if e.late then 4 else 0) + (if e.failed then 8 else 0) + x.miss.toNat * 2 ^ 8 + (if x.lmiss then 2 ^ 32 else 0))))

/-- R391 to R393: WINBIND binds a window of the thread to an entry of KIND 2 and gives d the old binding, WINBIND.unbind clears it; both wait for earlier engine syllables and until the window's lines have left and
its posted writes and remote loads are answered. LAUNCH sends the 120 bytes at X(b) to the peer and is held; the reply's code, with the sequence number for code 0, goes to d, and 4 without a reply.
An operand that names no such entry is an access violation; that its fault address is 0 is the model's deduction (log entry 98). -/
def Obligations.WindowsAndLaunch : Prop :=
  ∀ (s : State) (d a b : BitVec 5) (w : BitVec 6), let x := s.thr.win[w.toFin]; let quiet := x.lines = [] ∧ x.flits = [] ∧ s.thr.remotes = []
    (¬ Claims.engFree s → exec (.winbind d a w) s = .next (s.setRes .waitIssue) ∧ exec (.winbindUnbind d w) s = .next (s.setRes .waitIssue)) ∧
    (Claims.engFree s → quiet →
      exec (.winbindUnbind d w) s = .next (((s.modThr (fun y => { y with win := y.win.set w.toFin { x with handle := 0, bound := false } })).W d x.bind).setRes .done) ∧
      (∀ e, s.winAsk (s.ctxOf s.ct) ((s.X a).toNat % 2 ^ 16) = none → s.winEntry (s.ctxOf s.ct) ((s.X a).toNat % 2 ^ 16) = some e →
        (e.kind = 2 → exec (.winbind d a w) s =
          .next (((s.modThr (fun y => { y with win := y.win.set w.toFin { x with handle := (s.X a).setWidth 16, bound := true } })).W d x.bind).setRes .done)) ∧
        (e.kind ≠ 2 → s.thr.awaits s.slot = false → exec (.winbind d a w) s = .next (s.traps { cause := 4, info := 0, addr := 0 }))) ∧
      (s.winAsk (s.ctxOf s.ct) ((s.X a).toNat % 2 ^ 16) = none → s.winEntry (s.ctxOf s.ct) ((s.X a).toNat % 2 ^ 16) = none → s.thr.awaits s.slot = false → exec (.winbind d a w) s = .next (s.traps { cause := 4, info := 0, addr := 0 }))) ∧
    (Claims.engFree s → x.lines ≠ [] → ∀ i ∈ [Instr.winbind d a w, .winbindUnbind d w], ∃ t, exec i s = .next t ∧ t.run.res = .held ∧ ∀ l ∈ (t.thr.win[w.toFin]).lines, l.send = true) ∧
    (Claims.engFree s → x.lines = [] → x.flits ≠ [] ∨ s.thr.remotes ≠ [] → exec (.winbind d a w) s = .next (s.setRes .held) ∧ exec (.winbindUnbind d w) s = .next (s.setRes .held)) ∧
    (let A := s.X a; let B := s.X b; let ent := s.remoteCheck (s.ctxOf s.ct) (A.toNat % 2 ^ 16) 0 0 3 true
     (s.thr.flow.held ≠ .launch → 2 ^ 26 ≤ A.toNat ∨ s.shadow s.ct = true ∨ (s.winAsk (s.ctxOf s.ct) (A.toNat % 2 ^ 16) = none ∧ ent = none) → s.thr.awaits s.slot = false → exec (.launch d a b) s = .next (s.traps { cause := 4, info := 0, addr := 0 })) ∧
     (∀ e q off, s.thr.flow.held ≠ .launch → A.toNat < 2 ^ 26 → s.shadow s.ct = false → s.winAsk (s.ctxOf s.ct) (A.toNat % 2 ^ 16) = none → ent = some (e, q) → e.kind = 1 → Claims.engFree s → (∀ i : Fin 64, (s.thr.win[i]).lines = [] ∧ (s.thr.win[i]).flits = []) →
       s.fxAddr B = s.ownAddr off → off % 8 = 0 → off + 120 ≤ 0x300000 → s.cleanOwn off 120 → ∃ bs,
         exec (.launch d a b) s = .next (((s.sendRemote (BitVec.ofNat 20 e.peer) (.launch (BitVec.ofNat 10 (A.toNat / 2 ^ 16)) (BitVec.ofNat 32 e.key) (s.ctxAt s.tile.ctx).record.key bs s.origin) []).modThr
           (fun y => { y with flow := { y.flow with held := .launch } })).setRes .held) ∧ bs.length = 120 ∧ leNat bs = s.ownValue off 120) ∧
     (s.thr.flow.held = .launch → let got := fun (v : Nat) => exec (.launch d a b) s = .next (((s.dropRemotes.modThr (fun y => { y with flow := { y.flow with held := .no } })).W d (wofNat v)).setRes .done)
       (s.myAnswer = .waiting → exec (.launch d a b) s = .next (s.setRes .held)) ∧ (∀ code seq z, s.myAnswer = .word code seq z → got (code % 16 + if code = 0 then seq.toNat % 2 ^ 48 * 2 ^ 16 else 0)) ∧
       (s.myAnswer = .failed → got 4)))

/-! ## The array -/

/-- The blocks that a run of `n` + 1 names, from `L` (R319). -/
def Claims.run (L n : BitVec 6) : List Nat := (List.range (n.toNat + 1)).map (· + L.toNat)

/-- A block that the acting thread may use as it stands: it lies inside the shape and is resident, in the tile's context, pinned or the thread's own (R314). -/
def Claims.mine (s : State) (L : Nat) : Prop :=
  s.tile.geom.inside L = true ∧ (s.tile.ent L).resident = true ∧ (s.tile.ent L).ctx.toNat = s.tile.ctx ∧ ((s.tile.ent L).pin = true ∨ (s.tile.ent L).thread.toNat = s.ch)

/-- An array syllable can start: its tokens, no nest or chunk of the tile runs (R298, R336), and the tile has an array (R289). -/
def Claims.arrayCan (s : State) (k : BitVec 4) : Prop := Claims.canStart s .w k ∧ s.arrayFree = true ∧ s.noArray = false

/-- The bytes of the acting thread's register window from an offset, little-endian (R153). -/
def Claims.window (s : State) (off : Nat) : Nat → Nat
  | 0 => 0
  | n + 1 => (s.byteAt (.regs s.run.cur.tile (s.ch * 0x20000 + off))).toNat + 256 * Claims.window s (off + 1) n

/-- Two logical blocks do not stand in one physical block (R312, R314). -/
def Claims.apart (s : State) (L M : Nat) : Prop := ¬ (L % 16 = M % 16 ∧ (s.tile.ent L).slot = (s.tile.ent M).slot)

/-- The byte of memory where byte `i` of an image stands that is written in these pieces (R322). -/
def Claims.pieceSpot : List Piece → Nat → Option Spot
  | [], _ => none
  | p :: r, i => if i < p.n then (match p.place with | .mem loc _ => some (Claims.locSpot (loc + i)) | _ => none) else Claims.pieceSpot r (i - p.n)

/-- What bytes written past the L1s at a piece change besides themselves: no L1 keeps a superblock that holds some of them, and its dirty bytes reach memory (R322, R324). -/
def Claims.evictedBy (s : State) (p : Piece) (m : Spot) : Prop :=
  ∃ loc ty, p.place = .mem loc ty ∧ ∃ x, loc / 256 ≤ x / 256 ∧ x / 256 ≤ (loc + p.n - 1) / 256 ∧ ∃ u : Fin 130, m = .line u x ∨ (x ∈ (s.tileF u).l1.dirty ∧ m = Claims.locSpot x)

/-- R287, R305, R312 to R323: the accumulator instructions over blocks that the thread may use. ACZERO makes their words zero; ACRD and ACWR (with CVT 0) move a block between the array and the rows of AVIEW;
ACPIN pins with tag and home; ACFREE frees; ACSPILL leaves a block spilled once its image stands at its home, and changes no other byte but those of the L1 lines there; ACFILL pins a block with the words, format and tag of a valid image. Another context's block, another
thread's, and a position outside the shape raise the ownership fault with the block and the reason; a misaligned home or image address traps. A busy array holds the syllable, and on a tile without an array each array syllable faults. -/
def Obligations.AccumulatorInstructions : Prop :=
  ∀ (s : State) (k : BitVec 4) (n l : BitVec 6),
    (∀ x w : BitVec 3, ∀ i ∈ [Instr.aczero k n l, .acrd k n l, .acwr k n l, .acpin k x w n l, .acfree k n l, .acspill k n l, .acfill k w n l], Claims.canStart s .w k →
      (s.arrayFree = false → exec i s = .next (s.setRes .held)) ∧
      (s.arrayFree = true → s.noArray = true → s.thr.awaits .w = false → exec i s = .next (s.traps { cause := 6, info := l.toNat + 192 }))) ∧
    (Claims.arrayCan s k →
      ((∀ L ∈ Claims.run l n, Claims.mine s L) →
        exec (.aczero k n l) s = .next (Claims.sylDone s k (fun u => u.modTile (fun x => (Claims.run l n).foldl (fun y L => y.setBlock L (Array.replicate 4096 0)) x))) ∧
        exec (.acfree k n l) s = .next (Claims.sylDone s k (fun u => u.modTile (fun x => (Claims.run l n).foldl (fun y L => y.setEnt L OwnEnt.free) x))) ∧
        ∀ x w : BitVec 3, let H := s.X (x.setWidth 5); let X := s.X (w.setWidth 5)
          (H.toNat % 64 = 0 → exec (.acpin k x w n l) s = .next (Claims.sylDone s k (fun u => u.modTile (fun y => (Claims.run l n).foldl (fun (y : Tile) L =>
            y.setEnt L { y.ent L with st := .pinned, pin := true, tag := X.setWidth 16, home := if H = 0 then 0 else H + wofNat (16448 * (L - l.toNat)) }) y)))) ∧
          (H.toNat % 64 ≠ 0 → s.thr.awaits .w = false → exec (.acpin k x w n l) s = .next (s.traps { cause := 2, info := 0, addr := H }))) ∧
      (l.toNat + n.toNat ≤ 63 → (∀ L ∈ Claims.run l n, Claims.mine s L ∧ ∀ M ∈ Claims.run l n, L ≠ M → Claims.apart s L M) → let v := s.thr.csr.aview; let base := avBase v; let pitch := avPitch v
        let row := fun (L i : Nat) => base + pitch * (64 * (L - l.toNat) + i)
        (avCvt v = 0 → 256 ≤ pitch → row (l.toNat + n.toNat) 63 + 256 ≤ 0x20000 →
          (∃ t, exec (.acrd k n l) s = .next t ∧ (∀ L ∈ Claims.run l n, ∀ i < 64, ∀ j < 64, Claims.window t (row L i + 4 * j) 4 = (s.tile.block L).getD (64 * i + j) 0 % 2 ^ 32) ∧
            SameBytes s t (fun m => ∃ L ∈ Claims.run l n, ∃ i < 64, ∃ b < 256, m = .regs s.run.cur.tile (s.ch * 0x20000 + row L i + b)) ∧ t.tile.acc = s.tile.acc ∧
            t.thr = (Claims.sylDone s k id).thr) ∧
          ∃ t, exec (.acwr k n l) s = .next t ∧ (∀ L ∈ Claims.run l n, (∀ i < 64, ∀ j < 64, (t.tile.block L).getD (64 * i + j) 0 = Claims.window s (row L i + 4 * j) 4) ∧ t.tile.ent L = s.tile.ent L) ∧
            SameBytes s t (fun _ => False) ∧ t.thr = (Claims.sylDone s k id).thr) ∧
        (∀ ps : Nat → List Piece, (∀ L ∈ Claims.run l n, s.imagePieces s.tile.ctx (s.homeAddr s.ct L (s.seenTile s.ct)) = .ok (ps L)) → let at_ := fun (L i : Nat) => Claims.pieceSpot (ps L) i
          ∃ t, exec (.acspill k n l) s = .next t ∧ t.run.res = .done ∧ t.thr = (Claims.sylDone s k id).thr ∧
            (∀ L ∈ Claims.run l n, (t.tile.ent L).st = .spilled ∧ (t.tile.ent L).hold = false ∧ (t.tile.ent L).pin = (s.tile.ent L).pin) ∧
            SameBytes s t (fun m => (s.shadow s.ct = false ∧ ∃ L ∈ Claims.run l n, (∃ i < imageSize, at_ L i = some m) ∨ ∃ p ∈ ps L, Claims.evictedBy s p m) ∨ Claims.logged s m) ∧
            (s.shadow s.ct = false → s.grp.covers = false → (∀ L ∈ Claims.run l n, (s.tile.block L).size = 4096) →
              (∀ L ∈ Claims.run l n, ∀ L' ∈ Claims.run l n, ∀ i < imageSize, ∀ i' < imageSize, at_ L i ≠ none ∧ (at_ L i = at_ L' i' → L = L' ∧ i = i')) →
              ∀ L ∈ Claims.run l n, ∀ i < imageSize, ∀ m, at_ L i = some m → t.byteAt m = (imageOf s.tile (s.seenTile s.ct) L).getD i 0)) ∧
        ∀ (w : BitVec 3), let A := s.X (w.setWidth 5)
          (∀ b : Nat → List Byte, A.toNat % 64 = 0 → (∀ L ∈ Claims.run l n, s.readImage s.tile.ctx (A + wofNat (imageSize * (L - l.toNat))).toNat = .ok (b L) ∧ imageValid (b L) = true) →
            ∃ t, exec (.acfill k w n l) s = .next t ∧ t.thr = (Claims.sylDone s k id).thr ∧ SameBytes s t (fun _ => False) ∧
              ∀ L ∈ Claims.run l n, (t.tile.ent L).st = .pinned ∧ (t.tile.ent L).tag.toNat = leAt (b L) 8 2 ∧ (t.tile.ent L).home = A + wofNat (imageSize * (L - l.toNat)) ∧
                t.tile.block L = imageWords (b L)) ∧
          (A.toNat % 64 ≠ 0 → s.thr.awaits .w = false → exec (.acfill k w n l) s = .next (s.traps { cause := 2, info := 0, addr := A }))) ∧
      ((∀ L ∈ Claims.run l n, (s.tile.ent L).st = .spilled ∧ (s.tile.ent L).ctx.toNat = s.tile.ctx ∧ (s.tile.ent L).pin = true) → exec (.acspill k n l) s = .next (Claims.sylDone s k id)) ∧
      (n = 0 → s.thr.awaits .w = false → let L := l.toNat; let e := s.tile.ent L; let fault := fun (i : Instr) (reason octx : Nat) => exec i s = .next (s.traps { cause := 6, info := L + 64 * reason + 1024 * octx })
        (∀ i ∈ [Instr.aczero k n l, .acrd k n l, .acwr k n l, .acfree k n l, .acspill k n l],
          (s.tile.geom.inside L = true → e.st ≠ .free → e.ctx.toNat ≠ s.tile.ctx → fault i 1 e.ctx.toNat) ∧
          (s.tile.geom.inside L = true → e.st ≠ .free → e.ctx.toNat = s.tile.ctx → e.pin = false → e.thread.toNat ≠ s.ch → fault i 2 0)) ∧
        (s.tile.geom.inside L = false → fault (.aczero k n l) 3 0 ∧ fault (.acrd k n l) 3 0 ∧ fault (.acwr k n l) 3 0))) ∧
    (∀ (x : Tile) (L : Nat) (a : Array Nat), a.size = 4096 → (∀ i (h : i < a.size), a[i] < 2 ^ 32) → (x.setBlock L a).block L = a)

/-- How often a level's rectangle is drained over a whole nest of these levels: at each exit of a level whose action drains (R296). -/
def Claims.drains : List Level → Nat
  | [] => 0
  | l :: r => l.count * Claims.drains r + if 2 ≤ l.exit then 1 else 0

/-- The rows of AVIEW that a nest's drains write: 64 for every block of a rectangle, one drain after the other (R296). -/
def Claims.drainedRows (n : Nest) : Nat := 64 * (n.tab.rb * n.tab.cb) * (n.runs.map (fun r => Claims.drains r.levels)).sum

/-- R150, R294, R296 to R300, R303, R304: MGO and MGOG take their tokens, check the capture and latch it as the thread's nest, completing at once; views of formats that do not pair set WARN.TYPE and do nothing else; while
the array runs a nest they are held. The nest's completion leaves the thread without a nest and makes the token pushes; of memory it
changes the drained rows of the thread's own window alone, of the accumulators the blocks it names. An INT8 cell is its old word plus the sum of products, wrapped; an FMA cell of one step is
one fused operation. MOUTER adds the outer product of two half vectors to a block, each cell one fused operation; MVEC gives half a vector, each element the tree of a row's products. -/
def Obligations.MatrixInstructions : Prop :=
  ∀ (s : State) (k : BitVec 4),
    (∀ (x : BitVec 4) (w : BitVec 3) (z : BitVec 1) (g : Option (BitVec 6)), let i := match g with | none => Instr.mgo k x w z | some g => .mgog k x w g z
      let tab := s.capture; let view := s.thr.csr.tview[x.toFin]; let runs := nestRuns tab (s.X (w.setWidth 5)) view (g.map (·.toNat))
      s.slot = .w → tokReady s.thr.qs.tok .w k = true → s.arrayFree = true → s.noArray = false → s.tile.remapWaits = false →
      (fmtPair (tvFmt view) tab.bfmt = false → exec i s = .next (Claims.sylDone s k (·.setWarn 3))) ∧
      (fmtPair (tvFmt view) tab.bfmt = true → (∀ r ∈ runs, r.check tab g.isSome = .ok ()) → (∀ r ∈ runs, ∀ L ∈ r.names tab, Claims.mine s L) →
        exec i s = .next (((s.popTokens k).modThr (fun t => { t with nest := some ⟨tab, view, s.thr.csr.aview, s.X (w.setWidth 5), z == 1, g.map (·.toNat), k.setWidth 2, s.headSeg, false⟩ })).setRes .done))) ∧
    (∀ (x : BitVec 4) (w : BitVec 3) (z : BitVec 1) (g : BitVec 6), tokReady s.thr.qs.tok .w k = false ∨ s.arrayFree = false ∨ s.tile.remapWaits = true →
      exec (.mgo k x w z) s = .next (s.setRes .held) ∧ exec (.mgog k x w g z) s = .next (s.setRes .held)) ∧
    (∀ n, s.thr.nest = some n → (∀ L ∈ n.names, (s.tile.ent L).resident = true) → ∃ t, exec .nestComplete s = .next t ∧ t.thr.nest = none ∧
      t.thr.qs.tok = tokPush (tokPush s.thr.qs.tok n.toks[1] 3) n.toks[0] 1 ∧ t.thr.regs = s.thr.regs ∧ t.thr.flow = s.thr.flow ∧
      SameBytes s t (fun m => ∃ r < Claims.drainedRows n, ∃ j < 64 * cvtBytes (avCvt n.aview),
        m = .regs s.run.cur.tile (s.ch * 0x20000 + (avBase n.aview + avPitch n.aview * r + j) % 0x20000)) ∧
      ∀ L < 64, (∀ M ∈ n.names, M % 64 ≠ L ∧ Claims.apart s L M) → t.tile.block L = s.tile.block L ∧ t.tile.ent L = s.tile.ent L) ∧
    (∀ (fa fb : Fmt) (c a b : Nat), (cellStep .int8 fa fb 1 #[a] #[b] #[] #[] c).1 = Claims.trunc 32 ((c : Int) + sextInt a 8 * sextInt b 8) ∧
      cellStep .fma fa fb 1 #[a] #[b] #[] #[] c = ((fp32.result .rn 0 (exFma false (fa.decode a) (fb.decode b) (fp32.decode c))).1, (fp32.result .rn 0 (exFma false (fa.decode a) (fb.decode b) (fp32.decode c))).2)) ∧
    (∀ (l : BitVec 6) (a b : BitVec 4) (h j : BitVec 1), Claims.arrayCan s k → s.vecReady [a, b] none 1 = true → Claims.mine s l.toNat → let v := s.vecArgs [a, b]; let L := l.toNat
      let cell := fun (n : Nat) => fp32.result .rn 0 (exFma false (fp32.decode (vget (vopd v 0) 32 (64 * j.toNat + n / 64))) (fp32.decode (vget (vopd v 1) 32 (64 * h.toNat + n % 64)))
        (fp32.decode ((s.tile.block L).getD n 0)))
      (s.tile.block L).size = 4096 → ∃ t, exec (.mouter k 4 l a b h j) s = .next t ∧ (∀ n < 4096, (t.tile.block L).getD n 0 = (cell n).1 % 2 ^ 32) ∧ (t.tile.ent L).fmt = false ∧
        t.thr = (s.vecDone k [a, b] (fun u => u.orFlags (Claims.flags 4096 (fun _ => true) (fun n => (cell n).2)))).thr ∧ SameBytes s t (fun _ => False)) ∧
    (∀ (l : BitVec 6) (d b : BitVec 4) (h j : BitVec 1), Claims.arrayCan s k → s.vecReady [b] (some d) 1 = true → Claims.mine s l.toNat → let v := s.vecArgs [b]
      let row := fun (i : Nat) => rowTree ((List.range 64).map (fun c => (fp32.decode ((s.tile.block l.toNat).getD (64 * i + c) 0)).mul (fp32.decode (vget (vopd v 0) 32 (64 * h.toNat + c)))))
      ∃ (x : VecVal) (mask : PredVal), exec (.mvec k 4 l d b h j) s = .next (s.vecDone k [b] (fun u => (u.putVec d x mask).orFlags (Claims.flags 64 (fun _ => true) (fun i => (row i).2)))) ∧
        (∀ e < 128, vget x.toNat 32 e = if e / 64 = j.toNat then (row (e % 64)).1 % 2 ^ 32 else vget (s.oldVec d).toNat 32 e) ∧ ∀ q < 512, mask.getLsbD q = decide (q / 256 = j.toNat)) ∧
    (∀ (y : BitVec 3) (l : BitVec 6) (a b d : BitVec 4) (h j : BitVec 1), y ≠ 4 → s.arrayFree = true → s.noArray = false →
      (s.vecCan k [a, b] none 0 → exec (.mouter k y l a b h j) s = .next (s.vecDone k [a, b] (·.setWarn 3))) ∧
      (s.vecCan k [b] (some d) 1 → exec (.mvec k y l d b h j) s =
        .next (s.vecDone k [b] (fun u => (if d = 15 then u.modThr (fun z => { z with qs := { z.qs with qws := z.qs.qws ++ [(0, 0)] } }) else u).setWarn 3))))

/-- R330 to R336: a token step of one fast-weight row of one element: the state becomes β·(v − α·S·k)·k + α·S, each operation rounded once, and the output its product with q (with rf the old state's). -/
def Claims.tokenStep (rf : Bool) (alpha beta : FVal) (k q S v : Nat) : Nat × Nat :=
  let D := fp32.decode
  let R := fun (x : Ex) => (fp32.result .rn 0 x).1
  let u := R (exMul (D S) (D k))
  let e := R (exSub false (D v) (D (R (exMul alpha (D u)))))
  let w := R (exMul beta (D e))
  let S' := R (exFma false (D w) (D k) (D (R (exMul alpha (D S)))))
  (S', R (exMul (D (if rf then S else S')) (D q)))

/-- R306 to R310, R330 to R336: FWSTEP takes one token step of its set, and FWCHUNK C + 1 steps of every set of its mask, one step of one set in each turn, the set with the fewest steps behind it first (the model's
choice among the orders R335 allows); its counts stay with the syllable, which is checked again when it goes on; both need pinned blocks inside one bank, and a block that is not pinned
raises NOTPINNED. ASSAY gives the result word (the new faulty units and the weak ones, with the place and the kind of the first) and posts what it found, each new faulty unit for the in-field
map and all for the health records. MREMAP puts the first spare in the place of a mapped index and retires it, with GEN one higher; a retired index changes nothing; w takes GEOM
afterwards. MSHRINK at the smallest shape fails and changes nothing. A remap waits for the array and for CPINB. -/
def Obligations.FastWeightsAndShape : Prop :=
  ∀ (s : State) (k : BitVec 4),
    (∀ f : BitVec 2, Claims.arrayCan s k → let sets := [s.thr.csr.fwSet f.toFin]; let names := (sets.map FwSet.blocks).flatten
      ((∀ d ∈ sets, d.fits = true) → (∀ L ∈ names, Claims.mine s L ∧ (s.tile.ent L).st = .pinned) → exec (.fwstep k f) s = .next (Claims.sylDone s k (fun u => u.fwTokens sets 0))) ∧
      ((∃ d ∈ sets, d.fits = false) → s.thr.awaits .w = false → exec (.fwstep k f) s = .next (s.traps { cause := 4, info := 0, addr := 0 })) ∧
      (∀ L, (∀ d ∈ sets, d.fits = true) → names = [L] → Claims.mine s L → (s.tile.ent L).st ≠ .pinned → s.thr.awaits .w = false →
        exec (.fwstep k f) s = .next (s.traps { cause := 6, info := L % 64 + 64 * 5 }))) ∧
    (∀ (c : BitVec 6) (m : BitVec 4), let sets := ((List.finRange 4).filter (fun i => m[i])).map s.thr.csr.fwSet; let names := (sets.map FwSet.blocks).flatten
      let first := s.prog.length ≠ 4; let u := if first then s.popTokens k else s; let counts := if first then [0, 0, 0, 0] else s.prog
      s.slot = .w → (first → Claims.arrayCan s k) → (¬ first → s.chunkFree = true ∧ s.noArray = false) →
      ((∃ d ∈ sets, d.fits = false) → s.thr.awaits .w = false → exec (.fwchunk k c m) s = .next (s.traps { cause := 4, info := 0, addr := 0 })) ∧
      ((∀ d ∈ sets, d.fits = true) → names.Nodup → (∀ L ∈ names, Claims.mine s L ∧ (s.tile.ent L).st = .pinned) →
        (nextSet m counts (c.toNat + 1) = none → exec (.fwchunk k c m) s = .next (((u.setProg []).pushTokens k).setRes .done)) ∧
        ∀ f, nextSet m counts (c.toNat + 1) = some f → let v := u.fwTokens [s.thr.csr.fwSet (Fin.ofNat 4 f)] (counts.getD f 0); let after := counts.modify f (· + 1)
          (nextSet m after (c.toNat + 1) = none → exec (.fwchunk k c m) s = .next (((v.setProg []).pushTokens k).setRes .done)) ∧
          (nextSet m after (c.toNat + 1) ≠ none → exec (.fwchunk k c m) s = .next ((v.setProg after).setRes .held)))) ∧
    (∀ (m : BitVec 4) (counts : List Nat) (T f : Nat), let due := fun (i : Nat) => i < 4 ∧ m.getLsbD i = true ∧ counts.getD i 0 < T
      nextSet m counts T = some f ↔ due f ∧ ∀ i, due i → counts.getD f 0 < counts.getD i 0 ∨ counts.getD f 0 = counts.getD i 0 ∧ f ≤ i) ∧
    (∀ (rf : Bool) (alpha beta : FVal) (kk q S v : Nat), (fwRow rf alpha beta #[kk] #[q] #[S] v).1 = #[(Claims.tokenStep rf alpha beta kk q S v).1] ∧
      (fwRow rf alpha beta #[kk] #[q] #[S] v).2.1 = (Claims.tokenStep rf alpha beta kk q S v).2) ∧
    (∀ (w : BitVec 3) (f : BitVec 1) (g : BitVec 2), Claims.canStart s .w k → s.arrayFree = true → s.noArray = false → (g.toNat ≤ 1 → s.tile.noCpinb = true) →
      let hit := s.tile.defects.filter (fun d => d.target == g.toNat && s.tile.geom.tests d); let weak := hit.filter (·.weak); let new := hit.filter (fun d => !d.weak && !s.knownFault d)
      ∃ t, exec (.assay k w f g) s = .next t ∧ t.run.res = .done ∧
        t.X (w.setWidth 5) = BitVec.ofNat 64 (new.length % 2 ^ 16 + weak.length % 2 ^ 16 * 2 ^ 16 + match new with
          | [] => 0
          | d :: _ => (if g = 0 then (match d.kind with | 0 => d.index | 2 => d.row | _ => 0) else 0) * 2 ^ 32 + (if g = 0 ∧ d.kind = 0 then 0 else d.index) * 2 ^ 41 +
              (match d.kind with | 0 => 2 | 2 => 1 | _ => 3) * 2 ^ 50) ∧
        t.run.agenda = s.run.agenda ++ (new.map (fun d => (⟨.healthEvent, .health (BitVec.ofNat 8 s.ct) g (BitVec.ofNat 2 d.kind) (BitVec.ofNat 9 d.index) (BitVec.ofNat 9 d.row)⟩ : Event)) ++
          [⟨.healthEvent, .assayed (BitVec.ofNat 8 s.ct) g (hit.map (fun d => (d.kind, d.index, d.row, !d.weak)))⟩]) ∧
        (s.tile.defects = [] → t = Claims.sylDone s k (fun u => (u.modThr (·.writeX .w (w.setWidth 5) 0)).pushAgenda
        [⟨.healthEvent, .assayed (BitVec.ofNat 8 s.ct) (BitVec.ofNat 2 g.toNat) []⟩]))) ∧
    (∀ (w : BitVec 3) (f : BitVec 1) (g : BitVec 2), s.arrayFree = false ∨ g.toNat ≤ 1 ∧ s.noArray = false ∧ s.tile.noCpinb = false → Claims.canStart s .w k → exec (.assay k w f g) s = .next (s.setRes .held)) ∧
    (∀ (w : BitVec 3) (i : BitVec 9) (d sh : BitVec 1), Claims.canStart s .w k → s.arrayFree = false ∨ s.noArray = false ∧ s.tile.noCpinb = false →
      exec (.mremap k w i d sh) s = .next (s.setRes .held) ∧ exec (.mshrink k w i d) s = .next (s.setRes .held)) ∧
    (∀ (w : BitVec 3) (f : BitVec 1) (g : BitVec 2) (i : BitVec 9) (d sh : BitVec 1), ∀ j ∈ [Instr.assay k w f g, .mremap k w i d sh, .mshrink k w i d], Claims.canStart s .w k → s.arrayFree = true →
      s.noArray = true → s.thr.awaits .w = false → exec j s = .next (s.traps { cause := 6, info := 192 })) ∧
    (∀ (w : BitVec 3) (i : BitVec 9) (d sh : BitVec 1), Claims.arrayCan s k → s.tile.noCpinb = true → let g := s.tile.geom; let col := d == 1; let p := i.toNat
      ((g.ret col).contains p = true → exec (.mremap k w i d sh) s = .next (Claims.sylDone s k (fun u => u.modThr (·.writeX .w (w.setWidth 5) g.word)))) ∧
      (∀ n q r, (g.ret col).contains p = false → (g.map col).findIdx? (· == p) = some n → g.spares col = q :: r → ∃ t, exec (.mremap k w i d sh) s = .next t ∧
        t.tile.geom.map col = (g.map col).set n q ∧ (t.tile.geom.ret col).contains p = true ∧ t.tile.geom.gen = g.gen + 1 ∧ t.tile.geom.map (!col) = g.map (!col) ∧
        t.X (w.setWidth 5) = t.tile.geom.word ∧ t.run.res = .done) ∧
      (∀ n, (g.ret col).contains p = false → (g.map col).findIdx? (· == p) = some n → g.spares col = [] → sh = 0 →
        exec (.mremap k w i d sh) s = .next (Claims.sylDone s k (fun u => u.modThr (·.writeX .w (w.setWidth 5) (g.word ||| BitVec.ofNat 64 (2 ^ 63)))))) ∧
      ((g.map col).length ≤ 128 → exec (.mshrink k w i d) s = .next (Claims.sylDone s k (fun u => u.modThr (·.writeX .w (w.setWidth 5) (g.word ||| BitVec.ofNat 64 (2 ^ 63)))))) ∧
      (128 < (g.map col).length → (∀ L < 64, (s.tile.ent L).resident = false) → ∃ t, exec (.mshrink k w i d) s = .next t ∧ (t.tile.geom.map col).length = (g.map col).length - 16 ∧
        t.tile.geom.gen = g.gen + 1 ∧ t.X (w.setWidth 5) = t.tile.geom.word ∧ t.run.res = .done))

/-! ## The events -/

/-- R224, R225, R233, R235, R267, R365, R367, R378, R415: the events of the copy engine and of the streams. A sector of a CPLOC inside the own scratchpad moves its bytes, poison aside, and with its last sector the
command is gone; a sector for a peer leaves as one flit. A barrier signal is one landed sector at the barrier that stands, and waits where the tile belongs to a halted context or to a node that is being saved. An
answered tag no longer holds any command, and one answered with a failure aborts its commands with PAGE; an answered host page is present. A
stretch of 4,096 cycles of waiting on queues is the queue-deadlock trap. STEP acts on a halted context only. An array fault abandons the nest and is delivered to the W stream. -/
def Claims.EngineEvents : Prop :=
  ∀ s : State,
    (∀ c q so dof, s.run.input = .sector c.id q → s.thr.cmds.find? (·.id == c.id) = some c → s.maySector s.ct s.ch c q = true → c.kind = .cploc → c.req = none → c.total ≤ 256 → c.landed = [] →
      c.src = wofNat so → so + c.total ≤ 0x300000 → c.dst = wofNat dof → dof + c.total ≤ 0x300000 → s.gated s.ct = false → s.tile.touchesLive dof c.total = false → s.cleanOwn so c.total →
      c.bar = BitVec.allOnes 64 → wbit c.len 63 = false → ∃ t, exec .sectorLand s = .next t ∧ (∀ i < c.total, t.byteAt (.spad s.run.cur.tile (dof + i)) = s.byteAt (.spad s.run.cur.tile (so + i))) ∧
        SameBytes s t (fun m => ∃ i < c.total, m = .spad s.run.cur.tile (dof + i)) ∧ t.thr = { s.thr with cmds := s.thr.cmds.filter (·.id != c.id) }) ∧
    (∀ c q r so, s.run.input = .sector c.id q → s.thr.cmds.find? (·.id == c.id) = some c → s.maySector s.ct s.ch c q = true → c.kind ≠ .ringRow → c.req = some r → c.total ≤ 256 →
      c.src = wofNat so → so + c.total ≤ 0x300000 → s.gated s.ct = false → s.cleanOwn so c.total → ∃ (t : State) (d : List Byte), exec .sectorLand s = .next t ∧
        d.length = c.total ∧ (∀ i (hi : i < d.length), s.byteAt (.spad s.run.cur.tile (so + i)) = d[i]) ∧ SameBytes s t (fun _ => False) ∧
        t.fab.out = s.fab.out ++ [⟨24, s.modNum, BitVec.ofNat 20 c.peer, 0, none, s.fab.hold, .sector r d [] c.rb (c.who s.ct s.ch c.id) q⟩] ∧
        t.thr = { s.thr with cmds := s.thr.cmds.map (fun x => if x.id == c.id then { x with sent := x.sent ++ [q], since := s.run.cycle } else x) }) ∧
    (∀ c q, s.run.input = .sector c.id q → s.thr.cmds.find? (·.id == c.id) = some c → s.maySector s.ct s.ch c q = false → exec .sectorLand s = .next s) ∧
    (∀ q who c t, s.run.input = .signal q who → s.signalCtx q = some c → s.home c q.target.toNat = .tile t → s.gated t = false → s.holdKey c t = none → (s.tileAt t).live q.addr.toNat = true →
      exec .remoteBarrierSignal s = .next (s.updTile t (·.barUpdate q.addr.toNat 0 0 1 0))) ∧
    (∀ q c t, s.run.input = .signal q none → s.signalCtx q = some c → s.home c q.target.toNat = .tile t → s.gated t = false → s.holdKey c t = none → (s.tileAt t).live q.addr.toNat = false →
      exec .remoteBarrierSignal s = .next s) ∧
    (∀ q who c t k, s.run.input = .signal q who → s.signalCtx q = some c → s.home c q.target.toNat = .tile t → s.gated t = false → s.holdKey c t = some k →
      exec .remoteBarrierSignal s = .next { s with mems := { s.mems with heldIn := s.mems.heldIn ++ [⟨k, dieOf t, .signal q who none⟩] } }) ∧
    (∀ tag : BitVec 32, s.run.input = .response tag false → s.disp.fqPend.any (fun p => p.tag == tag.toNat && p.listed) = true → ∃ t, exec .fqresp s = .next t ∧
      t.disp.fqPend = s.disp.fqPend.filter (·.tag != tag.toNat) ∧ ∀ u < 130, ∀ h < 4, ∀ c ∈ (t.threadAt u h).cmds, c.wait ≠ some tag.toNat) ∧
    (∀ tag : BitVec 32, s.run.input = .response tag true → s.disp.fqPend.any (fun p => p.tag == tag.toNat && p.listed) = true → ∃ t, exec .fqresp s = .next t ∧
      t.disp.fqPend = s.disp.fqPend.filter (·.tag != tag.toNat) ∧ ∀ u < 130, ∀ h < 4, ∀ c ∈ (s.threadAt u h).cmds, c.wait = some tag.toNat → c.kind ≠ .ringRow →
        (∀ d ∈ (t.threadAt u h).cmds, d.id ≠ c.id) ∧ wbit (t.threadAt u h).csr.cperr 1 = true) ∧
    (∀ (tag : BitVec 32) (f : Bool), s.run.input = .response tag f → s.disp.fqPend.any (fun p => p.tag == tag.toNat && p.listed) = false → exec .fqresp s = .next s) ∧
    (∀ p : Word, s.run.input = .page p true → ∃ t, exec .pageRequestResponse s = .next t ∧ t.mems.hostGone = s.mems.hostGone.filter (· != p.toNat) ∧
      ∀ u < 130, ∀ h < 4, ∀ c ∈ (t.threadAt u h).cmds, c.wait ≠ some (pageTag p.toNat)) ∧
    (∀ d, s.dlWait s.ct s.ch = some d → s.thr.stuck ≠ 0 → s.thr.stuck + 4096 ≤ s.run.cycle + 1 → exec .queueDeadlock s =
      .next (((s.modThr (fun x => { x with stuck := 0 })).deliver { cause := 8, info := d, slot := some .c }).setRes .trapped)) ∧
    (s.dlWait s.ct s.ch = none ∨ s.thr.stuck = 0 ∨ s.run.cycle + 1 < s.thr.stuck + 4096 → exec .queueDeadlock s = .next s) ∧
    (∀ c st r, s.run.input = .step c st r → (s.ctxAt c.toNat).st ≠ .halted ∨ s.byRank c.toNat r.toNat = none → exec .stepThread s = .next (s.ctxError 1)) ∧
    (∀ c st r t h u, s.run.input = .step c st r → (s.ctxAt c.toNat).st = .halted → s.byRank c.toNat r.toNat = some (t, h) →
      let sl : Slot := if st = 0 then .c else if st = 1 then .l else if st = 2 then .w else .s
      let a : State := { s with run := { s.run with cur := ⟨Fin.ofNat 130 t, Fin.ofNat 4 h, .stream sl, 0⟩ } }
      (if sl = .c then a.stepBundle else a.stepEngine sl) = some u → exec .stepThread s = .next (({ u with run := { u.run with cur := s.run.cur } } : State).ctxError 0)) ∧
    (∀ n, s.run.input = .none → s.thr.nest = some n → s.thr.awaits .w = false → s.isFw = false → s.tile.twin = none → s.thr.crs = [] → s.thr.csr.tvec ≠ 0 → wbit s.thr.csr.tcause 13 = false → ∃ t, exec .arrayFault s = .next t ∧
      t.thr.nest = none ∧ wbits t.thr.csr.tcause 0 8 = 10 ∧ wbits t.thr.csr.tcause 8 2 = 2 ∧ wbits t.thr.csr.tcause 16 16 = 4 ∧ t.thr.flow.pc = s.thr.csr.tvec ∧ t.run.cur = s.run.cur)

/-- R92, R93: the commands of CLPM that are written to a cluster in the states listed: event, code, states. -/
def Claims.clpm : List (Instr × BitVec 4 × List (BitVec 4)) :=
  [(.clpmSave, 2, [2]), (.gateClk, 3, [4]), (.gateRail, 4, [5]), (.ungateRail, 5, [6]), (.ungateClk, 6, [5, 7]), (.clpmRestore, 7, [8]), (.clpmRelease, 8, [2, 4, 10])]

/-- R90 to R98: a CLPM command to a cluster is refused with 5 while another runs, 1 in a state that does not take it, 2 or 3 where QUIESCE finds launches enabled or SAVE no save area, and 6 for a code not assigned; the state is
judged before the command's own condition (DEDUCED, log entry 100); accepted it sets BUSY and clears ERROR. Its completion takes STATE on and clears BUSY; a rail cut loses the threads, the accumulators and the ownership table and keeps the memories. RELEASE cancels a QUIESCE. -/
def Claims.ClusterEvents : Prop :=
  ∀ (s : State) (cl : BitVec 3), let k := Fin.ofNat 8 cl.toNat; let x := s.clusters[k]
    let ends := fun (i : Instr) (f : Cluster → Prop) => ∃ t, exec i s = .next t ∧ f (t.clusters[k]) ∧ ∀ j, j ≠ k → t.clusters[j] = s.clusters[j]
    let refused := fun (i : Instr) (e : BitVec 4) => ends i (fun y => y = { x with error := e, raised := y.raised })
    (∀ bad : BitVec 3, s.run.input = .clusterCmd cl bad →
      (bad ≠ 0 → refused .clpmQuiesce 6) ∧ (bad = 0 → x.busy = true → refused .clpmQuiesce 5) ∧ (bad = 0 → x.busy = false → x.st ≠ 0 → refused .clpmQuiesce 1) ∧
      (bad = 0 → x.busy = false → x.st = 0 → s.disp.clen.getLsbD cl.toNat = true → refused .clpmQuiesce 2) ∧
      (bad = 0 → x.busy = false → x.st = 0 → s.disp.clen.getLsbD cl.toNat = false → ends .clpmQuiesce (fun y => y = { x with cmd := 1, busy := true, error := 0, since := s.run.cycle }))) ∧
    (s.run.input = .cluster cl →
      (∀ op ∈ Claims.clpm,
        (x.busy = true → (op.1 ≠ .clpmRelease ∨ x.cmd ≠ 1) → refused op.1 5) ∧ (x.busy = false → x.st ∉ op.2.2 → refused op.1 1) ∧
        (x.busy = false → x.st ∈ op.2.2 → (op.1 = .clpmSave → x.retbase ≠ 0) →
          ends op.1 (fun y => y = { x with cmd := op.2.1, busy := true, error := 0, since := s.run.cycle, gated := x.gated || op.1 == .gateClk, raised := y.raised }))) ∧
      (x.busy = false → x.st = 2 → x.retbase = 0 → refused .clpmSave 3) ∧ (x.busy = true → x.cmd = 1 → ends .clpmRelease (fun y => y = { x with cmd := 0, busy := false, error := 0 })) ∧
      ends .clpmWake (fun y => y = { x with wakereq := true }) ∧
      (x.busy = true → let completes := fun (st : BitVec 4) => ends .clpmCommandComplete (fun y => y.st = st ∧ y.busy = false ∧ y.cmd = 0)
        (x.cmd = 1 → s.clusterQuiet cl.toNat = true → completes 2) ∧ (x.cmd = 2 → completes 4) ∧ (x.cmd = 3 → completes 5) ∧ (x.cmd = 4 → completes 6) ∧ (x.cmd = 5 → completes 7) ∧
        (x.cmd = 6 → completes (if x.st = 5 then 4 else 8)) ∧ (x.cmd = 7 → completes 10) ∧ (x.cmd = 8 → x.parked = [] → completes 0) ∧
        (x.cmd = 8 → ∃ t, exec .clpmCommandComplete s = .next t ∧ (t.clusters[k]).st = 0 ∧ (t.clusters[k]).busy = false) ∧
        (x.cmd = 4 → ∃ t, exec .clpmCommandComplete s = .next t ∧ SameBytes s t (fun m => ∃ u o, m = .line u o ∧ u.val ∈ clusterTiles cl.toNat) ∧ (t.clusters[k]).pgood = false ∧
          ∀ u ∈ clusterTiles cl.toNat, (t.tileAt u).own = vrep 64 OwnEnt.free ∧ (t.tileAt u).acc = vrep 64 [] ∧ ∀ h < 4, (t.threadAt u h).flow = Flow.reset)) ∧
      (x.busy = true → x.cmd = 5 → x.since + 30000 ≤ s.run.cycle → ends .pgoodTimeout (fun y => y.st = 6 ∧ y.error = 4 ∧ y.busy = false)))

/-- Who may write what management ownership governs (R111). -/
def Claims.owner (s : State) (w : Writer) : Prop := w = .firmware ∨ (w = .host ∧ s.edge.owner = 0) ∨ (w = .firefly ∧ s.edge.owner = 1)

/-- R106 to R117, R123 to R126: the events at the module's edges: the timer and the doorbells set their wake bits; BAR0 writes go to the register behind their offset; ownership decides who writes, and what a non-owner writes is counted; firmware's request raises the minimum SVN
once READY is set, by the path of log entry 145 (the model's choice);
Firefly reads and writes 8 bytes (that DIE_DOWN is status 1 at every offset: the model's choice, log entry 146; status 2 and the report's layout: the model's choice, log entry 147); the link and the limits set their
bits; a throttle period moves the level by one; the alarms of a cycle are logged once with all their sensors and answered once; a host write goes to HBM from APBASE, from 0 where BAR2 has 1 TiB, and nothing goes past
0x88_0000_0000 (BAR2's size as an input: the model's choice, log entry 148). -/
def Claims.EdgeEvents : Prop :=
  ∀ s : State, let e := s.edge; let clears := fun (v : Word) => e.hosterr &&& (~~~v.setWidth 17 ||| (freshBits s.run.fresh 0x20).setWidth 17)
    (∀ d : BitVec 1, s.run.input = .die d → (s.svc[Fin.ofNat 2 d.toNat]).timerOn = false → (s.svc[Fin.ofNat 2 d.toNat]).fwtimer.toNat ≤ s.cycleCount → ∃ t, exec .fwtimerExpire s = .next t ∧
      (t.svc[Fin.ofNat 2 d.toNat]).wakepend = (s.svc[Fin.ofNat 2 d.toNat]).wakepend ||| 8 ∧ (t.svc[Fin.ofNat 2 d.toNat]).timerOn = true) ∧
    ((∀ v, s.run.input ≠ .svn v) → ∃ t, exec .fireflyMailbox s = .next t ∧ ∀ i : Fin 2, (t.svc[i]).wakepend = (s.svc[i]).wakepend ||| 4) ∧
    (∀ v, s.run.input = .svn v → (wbit e.bootStat 0 = false → exec .fireflyMailbox s = .next s) ∧
      (wbit e.bootStat 0 = true → ∃ t, exec .fireflyMailbox s = .next t ∧ t.edge.minSvn.toNat = max e.minSvn.toNat (min v.toNat e.svn.toNat))) ∧
    (∀ w, s.run.input = .writer w → (Claims.owner s w → ∃ t, exec .fwdoorbell s = .next t ∧ ∀ i : Fin 2, (t.svc[i]).wakepend = (s.svc[i]).wakepend ||| 2) ∧
      (¬ Claims.owner s w → ∃ t, exec .fwdoorbell s = .next t ∧ t.svc = s.svc ∧ t.edge.drops.toNat = min 255 (e.drops.toNat + 1))) ∧
    (∀ w v, s.run.input = .write w v →
      (Claims.owner s w → wbits v 0 2 ≤ 1 → ∃ t, exec .mgmtOwnerWrite s = .next t ∧ t.edge.owner.toNat = wbits v 0 2 ∧ t.edge.seized = (e.seized && (!wbit v 3 || wbit (freshBits s.run.fresh 0x8A0) 3)) ∧
        t.edge.drops = (if e.owner.toNat = wbits v 0 2 then e.drops else 0)) ∧
      (w = .firefly → e.owner = 0 → e.linkDown = true → wbits v 0 2 = 1 → ∃ t, exec .mgmtOwnerWrite s = .next t ∧ t.edge.owner = 1 ∧ t.edge.seized = true) ∧
      (¬ Claims.owner s w → (w ≠ .firefly ∨ e.linkDown = false ∨ wbits v 0 2 ≠ 1) → ∃ t, exec .mgmtOwnerWrite s = .next t ∧ t.edge.owner = e.owner ∧ t.edge.drops.toNat = min 255 (e.drops.toNat + 1)) ∧
      (Claims.owner s w → v = 0x5253 → exec .modrst s = .next (s.urgent .moduleReset .none)) ∧ (Claims.owner s w → v ≠ 0x5253 → exec .modrst s = .next (s.discard w)) ∧
      (¬ Claims.owner s w → ∃ t, exec .modrst s = .next t ∧ t.run.agenda = s.run.agenda ∧ t.edge.drops.toNat = min 255 (e.drops.toNat + 1))) ∧
    (∀ w off n v, s.run.input = .bar0 w off n v → n = 8 →
      (off = 0x10 → Claims.owner s w → exec .bar0MirrorWrite s = .next { s with edge := { e with apbase := BitVec.ofNat 10 (wbits v 30 10) } }) ∧
      (off = 0x08 → exec .bar0MirrorWrite s = .next (s.urgent .modrst (.write w v))) ∧ (off = 0x18 → exec .bar0MirrorWrite s = .next (s.urgent .fwdoorbell (.writer w))) ∧
      (off = 0x20 → exec .bar0MirrorWrite s = .next { s with edge := { e with hosterr := clears v } }) ∧
      (0x200000 ≤ off.toNat → off.toNat < 0x202000 → off.toNat % 8 = 0 → exec .bar0MirrorWrite s = .next (s.urgent .launchDoorbell (.doorbell (BitVec.ofNat 10 ((off.toNat - 0x200000) / 8)) w)))) ∧
    (∀ off, s.run.input = .offset off → ∃ t, exec .read64 s = .next t ∧ (e.dead = true → t.edge.ffStatus = 1 ∧ t.edge.ffReply = []) ∧
      (e.dead = false → t.edge.ffStatus = 0 ∧ t.edge.ffReply = leBytes 8 (if off.toNat % 8 = 0 then s.bar0Read off.toNat else BitVec.allOnes 64).toNat) ∧ SameBytes s t (fun _ => False)) ∧
    (∀ off v, s.run.input = .offVal off v → (e.dead = true → exec .write64 s = .next { s with edge := { e with ffStatus := 1, ffReply := [] } }) ∧
      (e.dead = false → off = 0x20 → exec .write64 s = .next { s with edge := { e with hosterr := clears v, ffStatus := 0, ffReply := [] } })) ∧
    (∀ n, s.run.input = .nonce n → (e.keysGone = true → exec .attestRequest s = .next { s with edge := { e with ffStatus := 2, ffReply := [] } }) ∧
      (e.keysGone = false → ∃ t, exec .attestRequest s = .next t ∧ t.edge.ffStatus = 0 ∧ t.edge.ffReply.take 104 = leBytes 64 e.m0.toNat ++ leBytes 8 e.bootStat.toNat ++ leBytes 32 n.toNat)) ∧
    exec .linkdown s = .next { s with edge := { e with linkDown := true } } ∧ exec .hostLinkRecovery s = .next { s with edge := { e with linkDown := false } } ∧
    exec .fireflyReset s = .next { s with edge := { e with ffStatus := 0, ffReply := [] } } ∧
    (∀ off data, s.run.input = .bar2 off data false → s.grp.covers = false → let a := (if e.bar2 = 10 then 0 else e.apbase.toNat * 2 ^ 30) + off.toNat
      a + data.length ≤ 0x8800000000 → off.toNat + data.length ≤ 2 ^ e.bar2.toNat * 2 ^ 30 → ∃ t, exec .hostBar2Write s = .next t ∧ (∀ i (h : i < data.length), t.byteAt (.hbm (a + i)) = data[i]) ∧
        SameBytes s t (fun m => ∃ i < data.length, m = .hbm (a + i)) ∧ t.tiles = s.tiles) ∧
    (∀ off data bad, s.run.input = .bar2 off data bad → 0x8800000000 ≤ (if e.bar2 = 10 then 0 else e.apbase.toNat * 2 ^ 30) + off.toNat →
      ∃ t, exec .hostBar2Write s = .next t ∧ SameBytes s t (fun _ => False)) ∧
    (∀ off n, s.run.input = .bar2Read off n → s.grp.covers = false → s.grp.held = [] → ∃ t, exec .hostBar2Write s = .next t ∧ t.edge.hostData.length = n.toNat ∧ (∀ i (h : i < t.edge.hostData.length),
      t.edge.hostData[i] = if i < e.bar2Take off.toNat n.toNat then s.byteAt (.hbm (e.bar2Base + off.toNat + i)) else 0xFF) ∧ SameBytes s t (fun _ => False)) ∧
    (∀ n : BitVec 4, s.run.input = .bar2Size n → n.toNat ≤ 10 → exec .hostBar2Write s = .next { s with edge := { e with bar2 := n } }) ∧
    (∀ w : BitVec 12, s.run.input = .watts w → ∃ t, exec .throttlePeriod s = .next t ∧ t.edge.pwrNow = w ∧
      (e.pwrCap.toNat < w.toNat → t.edge.level = min 8 (e.level + 1)) ∧ (w.toNat ≤ e.pwrCap.toNat → 100 * w.toNat < 95 * e.pwrCap.toNat → t.edge.level = e.level - 1) ∧
      (w.toNat ≤ e.pwrCap.toNat → 95 * e.pwrCap.toNat ≤ 100 * w.toNat → t.edge.level = e.level)) ∧
    (∃ t, exec .fastlim s = .next t ∧ t.edge.level = 8 ∧ t.edge.fastlim = true ∧ ∀ i : Fin 2, (t.svc[i]).wakepend = (s.svc[i]).wakepend ||| 64) ∧
    (∀ c : BitVec 8, s.run.input = .celsius c → (105 ≤ c.toNat → ∃ t, exec .thermlim s = .next t ∧ t.edge.level = 8 ∧ t.edge.thermlim = true ∧ t.edge.tmax = c) ∧
      (c.toNat < 105 → exec .thermlim s = .next s)) ∧
    (∀ m, s.run.input = .sensors m → m ≠ 0 → ∃ t, exec .securityAlarm s = .next t ∧ t.edge.logHead = e.logHead + 1 ∧ (e.dead = false → t.edge.alarmStat = e.alarmStat ||| s.fired m) ∧
      (e.alarmBusy = false → e.alarmCfg.toNat % 4 = 2 → t.edge.keysGone = true) ∧ (e.dead = false → e.alarmBusy = false → e.alarmCfg.toNat % 4 ≠ 0 →
        t.run.agenda = ⟨.moduleReset, .none⟩ :: s.run.agenda.filter (fun x => x.what != .securityAlarm) ∧ t.edge.alarmBusy = true) ∧
      (e.alarmBusy = true ∨ e.alarmCfg.toNat % 4 = 0 → t.run.agenda = s.run.agenda.filter (fun x => x.what != .securityAlarm) ∧ t.edge.keysGone = e.keysGone))

/-- R114, R116, R118 to R122: resets, the rails and the boot. A module reset keeps HBM, the MRAM, the owner, PWR_CAP, ALARM_CFG and M0 (that M0 stays: DEDUCED, log entry 104) and boots next, and leaves BAR2 at 10 (the
model's choice, log entry 148); a power-on reset starts with STBY up, the rails of each step rise together once every rail of the step before has reported power-good (bit 0 STBY, 1 and 2 SOC, 3 and 4 SRAM, 5 to 16 HBM, 17 to 24
CL), and after the last one the boot is next; a rail that does not report power-good, or 115 °C, cuts the main rails and STBY stays; without the main rails only the fuses, the MRAM and host memory remain, and what lost its bytes reads
as empty memory (log entry 5, the model's choice). The boot ROM loads BOOT_STAT; without a valid slot, or without keys, it leaves both service tiles halted, and reports each slot's reason also where the keys are gone (DEDUCED, log
entry 108); otherwise thread 0 of each runs at the entry of the slot with the higher SVN, then version. -/
def Claims.ResetEvents : Prop :=
  ∀ s : State, let e := s.edge
    (∃ t, exec .moduleReset s = .next t ∧ t.mems.hbm = s.mems.hbm ∧ t.mems.host = s.mems.host ∧ t.mems.sync0 = Memory.empty ∧ t.edge.owner = e.owner ∧ t.edge.pwrCap = e.pwrCap ∧ t.edge.alarmCfg = e.alarmCfg ∧
      t.edge.m0 = e.m0 ∧ t.disp = Disp.reset ∧ t.run.agenda.head? = some ⟨.bootRom, .none⟩ ∧ (∀ c : Fin 64, t.ctxs[c] = State.reset.ctxs[c]) ∧ ∀ u < 128, ∀ h < 4, (t.threadAt u h).flow.status = .absent) ∧
    (∃ t, exec .moduleReset s = .next t ∧ t.edge.bar2 = (if s.run.input = .flr then e.bar2 else 10) ∧ t.edge.linkDown = e.linkDown) ∧
    ((∀ r, s.run.input ≠ .rail r) → ∃ t, exec .powerOnReset s = .next t ∧ t.edge.dead = true ∧ t.edge.rails = 1 ∧ t.edge.rising = [1, 2] ∧ t.edge.linkDown = false ∧ t.mems.hbm.mem = Memory.empty ∧
      t.edge.minSvn = e.minSvn) ∧
    (∀ r : BitVec 5, s.run.input = .rail r → (e.rising.contains r = false → exec .powerOnReset s = .next s) ∧
      (e.rising.contains r = true → ∃ t, exec .powerOnReset s = .next t ∧ t.edge.rails = (e.rails ||| BitVec.ofNat 25 (2 ^ r.toNat)) ∧ t.mems.hbm = s.mems.hbm ∧
        (e.rising.erase r ≠ [] → t.edge.rising = e.rising.erase r ∧ t.edge.dead = e.dead ∧ t.run.agenda = s.run.agenda) ∧
        (e.rising.erase r = [] → railStep r.toNat < 5 → t.edge.rising = (stepRails (railStep r.toNat + 1)).map (BitVec.ofNat 5) ∧ t.edge.dead = e.dead ∧
          ∀ x ∈ t.edge.rising, ⟨.powerOnReset, .rail x⟩ ∈ t.run.agenda ∨ ⟨.railPgoodTimeout, .rail x⟩ ∈ t.run.agenda) ∧
        (e.rising.erase r = [] → railStep r.toNat = 5 → t.edge.rising = [] ∧ t.edge.dead = false ∧ t.run.agenda.head? = some ⟨.bootRom, .none⟩))) ∧
    (∃ t, exec .powerLoss s = .next t ∧ t.edge.dead = true ∧ t.edge.rails = 0 ∧ t.mems.hbm.mem = Memory.empty ∧ t.mems.mram = s.mems.mram ∧ t.mems.host = s.mems.host) ∧
    (∀ r, s.run.input = .rail r → (e.rising.contains r = false → exec .railPgoodTimeout s = .next s) ∧
      (e.rising.contains r = true → ∃ t, exec .railPgoodTimeout s = .next t ∧ t.edge.dead = true ∧ t.edge.rails = (e.rails &&& 1) ∧ t.edge.rising.filter (· != 0) = [] ∧ t.edge.logHead = e.logHead + 1 ∧
        t.edge.alarmCfg = e.alarmCfg)) ∧
    (∀ c : BitVec 8, s.run.input = .celsius c → (115 ≤ c.toNat → ∃ t, exec .thermalCut s = .next t ∧ t.edge.dead = true ∧ t.edge.rails = (e.rails &&& 1) ∧ t.edge.logHead = e.logHead + 1) ∧
      (c.toNat < 115 → exec .thermalCut s = .next s)) ∧
    (let a := s.readSlot false; let b := s.readSlot true
     (e.keysGone = true ∨ (a.reason ≠ 0 ∧ b.reason ≠ 0) → ∃ t, exec .bootRom s = .next t ∧ wbit t.edge.bootStat 2 = true ∧ wbit t.edge.bootStat 0 = false ∧ (t.tileAt 128).halted = true ∧ (t.tileAt 129).halted = true ∧
        wbits t.edge.bootStat 32 4 = a.reason ∧ wbits t.edge.bootStat 36 4 = b.reason) ∧
     (∀ x, e.keysGone = false → (x = a ∧ a.reason = 0 ∧ (b.reason ≠ 0 ∨ b.svn < a.svn ∨ (b.svn = a.svn ∧ b.version ≤ a.version)) ∨
          x = b ∧ b.reason = 0 ∧ (a.reason ≠ 0 ∨ a.svn < b.svn ∨ (a.svn = b.svn ∧ a.version < b.version))) → ∃ t, exec .bootRom s = .next t ∧
        t.edge.svn = BitVec.ofNat 32 x.svn ∧ ∀ u, u = 128 ∨ u = 129 → (t.tileAt u).halted = false ∧ (t.threadAt u 0).flow.status = .running ∧ (t.threadAt u 0).flow.pc = wofNat (0x20000000000 + x.entry) ∧
          ∀ i (h : i < x.payload.length), t.byteAt (.spad (Fin.ofNat 130 u) (x.load + i)) = x.payload[i]))

/-- R345 to R347, R393: host doorbells ring the ordinary queues that take no LAUNCH and firmware doorbells the recovery queues; a host doorbell of a recovery queue is counted in HOSTERR; a packet whose valid word is
HEAD + 1 is accepted and HEAD advances. A LAUNCH from a peer gets code 2 at a queue that is not enabled, 3 with a key that is not its context's (which in the cycle of its teardown still counts), 1 when the queue takes no LAUNCH or admits no such sender; otherwise its packet is
written into the slot and accepted and the reply carries code 0 with the sequence number. A request without a reply after 120,000 cycles fails. -/
def Claims.LaunchEvents : Prop :=
  ∀ s : State,
    (∀ (q : BitVec 10) (w : Writer), s.run.input = .doorbell q w →
      (w = .host → 1016 ≤ q.toNat → exec .launchDoorbell s = .next s.countHostErr) ∧
      (w = .firefly ∨ (w = .firmware ∧ q.toNat < 1016) ∨ (w = .host ∧ q.toNat < 1016 ∧ s.launchQueue q.toNat = none) ∨ (w = .firmware ∧ s.launchQueue q.toNat = none) → exec .launchDoorbell s = .next s) ∧
      (∀ x, s.launchQueue q.toNat = some x →
        (w = .host → q.toNat < 1016 → x.flags / 2 % 2 = 1 → exec .launchDoorbell s = .next s) ∧
        (w = .host ∧ q.toNat < 1016 ∧ x.flags / 2 % 2 = 0 ∨ w = .firmware ∧ 1016 ≤ q.toNat → let b := s.hbmBytes (x.base + 128 * (x.head % x.size)) 128
          (leAt b 0x78 8 ≠ (x.head + 1) % 2 ^ 64 → exec .launchDoorbell s = .next s) ∧
          (leAt b 0x78 8 = (x.head + 1) % 2 ^ 64 → ∃ t rest, exec .launchDoorbell s = .next t ∧ t.disp.packets = s.disp.packets ++ s.packetOf q.toNat x x.head b :: rest ∧
            t.tiles = s.tiles ∧ t.disp.nodes = s.disp.nodes)))) ∧
    (∀ (src : BitVec 20) (q : BitVec 10) (key sender : BitVec 32) (b : List Byte) (o : Origin), s.run.input = .packet src q key sender b o →
      let tells := fun (u : State) (code n : Nat) => exec .launchReceive s = .next (u.emit src (.launchReply o (BitVec.ofNat 4 code) (BitVec.ofNat 48 n)))
      (s.launchQueue q.toNat = none → tells s 2 0) ∧
      (∀ x, s.launchQueue q.toNat = some x → let c := s.ctxAt x.ctx; let known := x.ctx ≠ 0 ∧ x.ctx < 64 ∧ (c.st.resident = true ∨ c.down = s.run.cycle + 1) ∧ c.record.key = key
        let admitted := x.flags / 2 % 2 = 1 ∧ ∃ e ∈ x.acl, (e.testBit 20 = true ∨ e % 2 ^ 20 = src.toNat) ∧ (e / 2 ^ 32 = 0 ∨ e / 2 ^ 32 = sender.toNat)
        (¬ known → tells s 3 0) ∧ (known → ¬ admitted → tells s 1 0) ∧
        (known → admitted → tells ((s.hbmWrite (x.base + 128 * (x.head % x.size)) (b.take 120 ++ leBytes 8 (x.head + 1))).acceptQueue q.toNat) 0 x.head))) ∧
    (∀ o : Origin, s.run.input = .origin o → let rs := (s.threadAt o.tile.toNat o.thread.toNat).remotes
      ∀ i ∈ [Instr.launchReplyTimeout, .remoteLoadTimeout],
        ((∃ r ∈ rs, r.id = o.id ∧ r.since + 120000 ≤ s.run.cycle) → exec i s =
          .next (s.updThread o.tile.toNat o.thread.toNat (fun x => { x with remotes := x.remotes.map (fun r => if r.id = o.id ∧ r.ans = .waiting then { r with ans := .failed } else r) }))) ∧
        ((∀ r ∈ rs, r.id = o.id → s.run.cycle < r.since + 120000) → exec i s = .next s))

/-- A thread has nothing in flight and nothing to leave behind: no command, shuffle program, combining line, unacknowledged posted write, or request to a peer. -/
def Claims.still (x : Thread) : Prop :=
  x.cmds = [] ∧ x.progs = [] ∧ x.remotes = [] ∧ x.flow.held ≠ .launch ∧ x.posted = true ∧ x.posting = [] ∧ ∀ w : Fin 64, (x.win[w]).lines = []

/-- The node is saved: its frame is taken, its tiles are free. -/
def Claims.saved (t : State) (n : Node) (f : Nat) (coop : Bool) : Prop :=
  (∃ m, t.nodeAt n.id = some m ∧ m.phase = .saved ∧ m.frame = some f ∧ m.coop = coop ∧ m.tiles = [] ∧ m.shadow = [] ∧ m.req = none) ∧ ∀ u ∈ n.all, (t.tileAt u).node = none ∧ ∀ h < 4, (t.threadAt u h).flow.status = .absent

/-- R352 to R357, R368 to R372, R376: the dispatcher's events. A ready node, selected, starts on its tiles: four threads each, at the entry, with x1 the parameter and x2 its rank (R58; that thread h of
the tile of index m has rank 4 · m + h of the four that R351 gives it is the model's choice, log entry 176). A node whose threads
are done leaves its tiles, and its packet ends with its last node. A forced pre-emption after PWAIT and a cooperative one at a point save the node and free its tiles; a save that has lasted 2^20 cycles loses the context. With nothing
accepted the dispatcher does nothing. -/
def Claims.DispatchEvents : Prop :=
  ∀ s : State,
    (s.disp.packets = [] → s.disp.nodes = [] → exec .dispatchSelect s = .next s) ∧
    (∀ (n : Node) (p : Packet) (a : List Nat) (r : CtxRec), let c := n.pkt.ctx; let x := s.ctxAt c
      s.disp.nodes = [n] → s.disp.packets = [p] → p.id = n.pkt.id → p.plan = some [] → p.fail = none → p.ctx = c → 0 < c → c < 64 → n.phase = .ready → n.saved = [] → n.req = none → n.desc.xfers = [] →
      n.pkt.flags.getLsbD 0 = false → 1 ≤ n.desc.tiles → x.st = .idle → x.preempt = false → x.late = false → x.kept = [] → s.tileSets n s.busy = some (a, []) → s.readRecord c = some r →
      s.disp.cur[Fin.ofNat 8 (s.level n)] = c → n.desc.tiles ≤ s.disp.deficit[Fin.ofNat 64 c] → a.Nodup → (∀ u ∈ a, u < 128) →
      ∃ t, exec .dispatchSelect s = .next t ∧ (t.ctxAt c).st = .running ∧ (∀ m, t.nodeAt n.id = some m → m.phase = .running ∧ m.tiles = a) ∧
        ∀ m (hm : m < a.length), (t.tileAt a[m]).node = some n.id ∧ (t.tileAt a[m]).ctx = c ∧ ∀ h < 4, let y := t.threadAt a[m] h
          y.flow.status = .running ∧ y.flow.pc = n.desc.entry ∧ y.flow.rank = 4 * m + h ∧ y.regs.x[(1 : Fin 32)] = n.desc.paramAddr r.localBase ∧ y.regs.x[(2 : Fin 32)] = wofNat (4 * m + h)) ∧
    (∀ id : Nat, s.run.input = .node id →
      (s.nodeAt id = none → ∀ i ∈ [Instr.nodeComplete, .forcedPreempt, .cooperativePoint, .saveDeadline], exec i s = .next s) ∧
      (∀ n, s.nodeAt id = some n →
        (n.phase ≠ .running ∨ (n.abort = false ∧ s.nodeDrained n = false) → exec .nodeComplete s = .next s) ∧
        (n.phase = .running → n.abort = false → s.nodeDrained n = true → n.pkt.flags.getLsbD 0 = false → ∃ t, exec .nodeComplete s = .next t ∧ t.nodeAt id = none ∧
          (∀ u ∈ n.all, (t.tileAt u).node = none ∧ ∀ h < 4, (t.threadAt u h).flow.status = .absent) ∧
          (∀ p, s.disp.packets = [p] → p.id = n.pkt.id → p.fail = none → p.plan = some [] → s.disp.nodes = [n] → t.disp.packets = [])) ∧
        (n.phase = .running → n.coop = false → n.saving = none → n.frame = none →
          ((n.req = none ∨ s.freeFrame n.pkt.ctx = none ∨ 1016 ≤ n.pkt.queue ∨ (∃ r, n.req = some r ∧ (s.ctxAt n.pkt.ctx).late = false ∧ s.run.cycle < r + wbits s.disp.ctl 32 16 * 1024) → exec .forcedPreempt s = .next s) ∧
           (∀ r f, n.req = some r → s.freeFrame n.pkt.ctx = some f → n.pkt.queue < 1016 → (s.ctxAt n.pkt.ctx).late = true ∨ r + wbits s.disp.ctl 32 16 * 1024 ≤ s.run.cycle →
             (∀ u ∈ n.all, ∀ h < 4, Claims.still (s.threadAt u h)) → ∃ t, exec .forcedPreempt s = .next t ∧ Claims.saved t n f false) ∧
           (n.req = none ∨ s.freeFrame n.pkt.ctx = none ∨ 1016 ≤ n.pkt.queue ∨ s.atPoint n = false → exec .cooperativePoint s = .next s) ∧
           (∀ r f, n.req = some r → s.freeFrame n.pkt.ctx = some f → n.pkt.queue < 1016 → s.atPoint n = true → (∀ u ∈ n.all, ∀ h < 4, Claims.still (s.threadAt u h) ∧ (s.threadAt u h).leftover = false) →
             ∃ t, exec .cooperativePoint s = .next t ∧ Claims.saved t n f true))) ∧
        ((∀ c, n.saving = some c → s.run.cycle < c + 2 ^ 20) → exec .saveDeadline s = .next s) ∧
        (∀ c, n.saving = some c → c + 2 ^ 20 ≤ s.run.cycle → exec .saveDeadline s =
          .next (s.killCtx n.pkt.ctx { cause := 14, lost := true, node := some id, addr := 0, tile := 0, thread := 0, access := 0 }))))

/-- R343, R361, R363, R366, R375, R377: the commands to a context, the deathwatch and TLBINV. A command that the context's state does not take, CREATE on a resident one or with a bad record, is refused with its code in
DISP_CMD's error and changes nothing else. Contexts have 6-bit numbers and CREATE takes only one that is not
resident, so that at most 63 are resident before it, context 0 among them, and ERROR 2 (R343: 64 are resident) never comes. CREATE makes the context idle with its record; TEARDOWN and a kill free every block, node and packet of the context and leave it DEAD, or LOST; PREEMPT asks every placed node; HALT
stops its tiles and RESUME starts them; the deathwatch acts at its limit: with DWACT it asks every placed node, without it kills with cause 13. -/
def Claims.ContextEvents : Prop :=
  ∀ (s : State),
    (∀ c : BitVec 6, s.run.input = .ctx c → let k := c.toNat; let x := s.ctxAt k; let refused := fun (i : Instr) (e : BitVec 4) => exec i s = .next (s.ctxError e)
      (k = 0 ∨ (x.st ≠ .none ∧ x.st ≠ .dead) → refused .createCtx 1) ∧
      (∃ t, exec .createCtx s = .next t ∧ t.disp.error ≠ 2) ∧
      (k ≠ 0 → x.st = .none ∨ x.st = .dead →
        (s.readRecord k = none → refused .createCtx 3) ∧
        (∀ r, s.readRecord k = some r → ∃ t, exec .createCtx s = .next t ∧ (t.ctxAt k).st = .idle ∧ (t.ctxAt k).record = r ∧ t.disp.error = 0 ∧ t.tiles = s.tiles ∧ ∀ j < 64, j ≠ k → t.ctxAt j = s.ctxAt j)) ∧
      (x.kill = none → k = 0 ∨ x.st = .none ∨ x.st = .dead → refused .teardownCtx 1) ∧
      (∀ end_ : CState, (x.kill = none ∧ k ≠ 0 ∧ x.st ≠ .none ∧ x.st ≠ .dead ∧ end_ = .dead) ∨ (∃ y, x.kill = some y ∧ end_ = if y.lost then .lost else .dead) →
        ∃ t, exec .teardownCtx s = .next t ∧ (t.ctxAt k).st = end_ ∧ (t.ctxAt k).kill = none ∧ (∀ n ∈ t.disp.nodes, n.pkt.ctx ≠ k) ∧ (∀ p ∈ t.disp.packets, p.ctx ≠ k) ∧
          (∀ u < 128, ∀ e ∈ (t.tileAt u).own.toList, e.st = .free ∨ e.ctx ≠ c) ∧ (x.kill = none → t.disp.error = 0)) ∧
      (x.st ≠ .running → refused .preemptCtx 1) ∧
      (x.st = .running → ∃ t, exec .preemptCtx s = .next t ∧ (t.ctxAt k).preempt = true ∧ t.disp.error = 0 ∧ (∀ n ∈ t.disp.nodes, n.pkt.ctx = k → n.isPlaced = true → n.req.isSome = true) ∧ t.tiles = s.tiles ∧ t.mems = s.mems) ∧
      (x.st ≠ .running → x.st ≠ .preempted → x.brk = false → refused .haltCtx 1) ∧
      (x.st = .running ∨ x.st = .preempted → ∃ t, exec .haltCtx s = .next t ∧ (t.ctxAt k).st = .halted ∧ (t.ctxAt k).before = x.st ∧ t.disp.error = (if x.brk then s.disp.error else 0) ∧
        ∀ n ∈ s.disp.nodes, n.pkt.ctx = k → n.isPlaced = true → ∀ u ∈ n.all, (t.tileAt u).halted = true) ∧
      (x.st ≠ .halted → x.st ≠ .savedLate → refused .resumeCtx 1) ∧
      (x.st = .halted → ∃ t, exec .resumeCtx s = .next t ∧ t.disp.error = 0 ∧ (t.ctxAt k).st ≠ .halted ∧ ((∃ n ∈ s.disp.nodes, n.pkt.ctx = k ∧ n.isPlaced = true) → (t.ctxAt k).st = .running) ∧
        (x.before = .preempted → (∀ n ∈ s.disp.nodes, n.pkt.ctx ≠ k) → (t.ctxAt k).st = .preempted) ∧ ∀ n ∈ s.disp.nodes, n.pkt.ctx = k → n.isPlaced = true → n.saving = none → ∀ u ∈ n.all, (t.tileAt u).halted = false) ∧
      (x.st = .savedLate → ∃ t, exec .resumeCtx s = .next t ∧ (t.ctxAt k).st = .preempted ∧ (t.ctxAt k).late = false ∧ t.disp.error = 0) ∧
      (x.st ≠ .running ∨ x.dw < s.dwLimit k → exec .deathwatch s = .next s) ∧
      (x.st = .running → s.dwLimit k ≤ x.dw →
        (x.record.dwact = false → ∃ t, exec .deathwatch s = .next t ∧ (t.ctxAt k).kill = some { cause := 13, lost := false, node := none, addr := 0, tile := 0, thread := 0, access := 0 } ∧
          t.run.agenda = ⟨.teardownCtx, .ctx c⟩ :: s.run.agenda ∧ t.tiles = s.tiles) ∧
        (x.record.dwact = true → (s.freeFrame k ≠ none ∨ ∀ n ∈ s.disp.nodes, n.pkt.ctx ≠ k ∨ n.isPlaced = false ∨ n.frame.isSome = true) → ∃ t, exec .deathwatch s = .next t ∧ (t.ctxAt k).late = true ∧ (t.ctxAt k).dw = 0 ∧
          ∀ n ∈ t.disp.nodes, n.pkt.ctx = k → n.isPlaced = true → n.req.isSome = true))) ∧
    (∃ t, exec .tlbinv s = .next t ∧ t.disp = { s.disp with tlbBusy := true } ∧ t.run.agenda = s.run.agenda ++ [⟨.tlbinvDone, .none⟩] ∧ t.tiles = s.tiles ∧ t.mems = s.mems ∧ t.ctxs = s.ctxs) ∧
    exec .tlbinvDone s = .next { s with disp := { s.disp with tlbBusy := false } }

/-- The flits that a module takes for itself as an event of their own, and that event (R460). -/
def Claims.flitEvent (src : BitVec 20) (p : BitVec 5) : Flit → Option Event
  | .posted r m d o => some ⟨.postedWriteReceive, .posted src r m d o⟩
  | .postedAck o c => some ⟨.postedAck, .ack o c⟩
  | .loadReq r n m o => some ⟨.remoteLoadReceive, .load src r n m o⟩
  | .contribution c => some ⟨.reductionContribution, .contrib p c⟩
  | .result c => some ⟨.reductionResult, .result c⟩
  | .delta d => some ⟨.deltaReceive, .delta src d⟩
  | .deltaAck h d => some ⟨.deltaAck, .deltaAck h d⟩
  | .vote m r ok i => some ⟨.voteReceive, .vote m r ok i⟩
  | .decision r c n => some ⟨.decisionReceive, .decision r c n⟩
  | .heartbeat h => some ⟨.heartbeatReceive, .heartbeat src h⟩
  | .report r => some ⟨.recoveryReport, .report r⟩
  | .reconstruct t a => some ⟨.reconstructRequest, .reconstruct src t a⟩
  | _ => none

/-- R379 to R385, R457, R458, R460: the fabric's events. A flit that has made 64 hops or names no module of the system is discarded, one for this module is taken, any other is forwarded with one hop more; a full holding buffer leaves it at
its source (R377), and the streams of a rebuild for one unit become one where they meet (R437; where that is: log entry 159, the model's deduction). A bad CRC and a flit sent again are counted, saturating. FRAME_TICK starts a frame: the counter
advances, links that came up or went down count from now, and new flits are held for one frame after such a change. FAB_SWITCH keeps the switch for frame AT, or for the next frame with LATESW when AT has begun; as that frame starts,
FAB_SWITCH_APPLY puts the banks named into force, a later write over an earlier one. LINK_DOWN and FABRIC_LINK_UP set the link's bit; a running margin measurement of a link that fails ends with ERRS all ones. -/
def Claims.FabricEvents : Prop :=
  ∀ s : State, let x := s.fab
    (∀ p src dst hops f, s.run.input = .flit p src dst hops f →
      (64 ≤ hops.toNat ∨ s.systemSize ≤ dst.toNat → exec .flitReceive s = .next s) ∧
      (hops.toNat < 64 → dst.toNat < s.systemSize → dst ≠ s.modNum → (∀ es u d, f = .unitData es u d → ∀ y ∈ x.out, ∀ es' d', y.flit = .unitData es' u d' → y.dst ≠ dst ∨ es' &&& es ≠ 0) →
        exec .flitReceive s = .next { s with fab := { x with out := x.out ++ [⟨p.toNat, src, dst, hops.toNat + 1, none, false, f⟩] } }) ∧
      (∀ es u d l y r es' d', hops.toNat < 64 → dst.toNat < s.systemSize → dst ≠ s.modNum → f = .unitData es u d → x.out = l ++ y :: r → y.dst = dst → y.flit = .unitData es' u d' → es' &&& es = 0 →
        (∀ z ∈ l, ∀ es'' d'', z.flit = .unitData es'' u d'' → z.dst ≠ dst ∨ es'' &&& es ≠ 0) →
        exec .flitReceive s = .next { s with fab := { x with out := l ++ { y with flit := .unitData (es' ||| es) u (gfAdd d' d) } :: r } }) ∧
      (hops.toNat < 64 → dst.toNat < s.systemSize → dst = s.modNum → s.turnedAway f = true → exec .flitReceive s = .next (if src = s.modNum then s.emit src f else s)) ∧
      (∀ e, hops.toNat < 64 → dst.toNat < s.systemSize → dst = s.modNum → s.turnedAway f = false → Claims.flitEvent src p f = some e → exec .flitReceive s = .next { s with run := { s.run with agenda := e :: s.run.agenda } })) ∧
    (∀ (p : BitVec 5) (again : Bool), s.run.input = .linkError p again → let j : Fin 24 := Fin.ofNat 24 p.toNat; let v := s.margin.lmcrc[j]
      ∃ t, exec .flitReceive s = .next t ∧ t.fab = x ∧ t.mems = s.mems ∧ wbits t.margin.lmcrc[j] 0 32 = (if again then wbits v 0 32 else min (wbits v 0 32 + 1) (2 ^ 32 - 1)) ∧
        wbits t.margin.lmcrc[j] 32 32 = (if again then min (wbits v 32 32 + 1) (2 ^ 32 - 1) else wbits v 32 32)) ∧
    (∃ t, exec .frameTick s = .next t ∧ t.fab.frame = x.frame + 1 ∧ t.fab.slot = 0 ∧ t.fab.usable = x.up ∧ t.fab.up = x.up ∧ (t.fab.hold = true ↔ x.usable ≠ x.up) ∧
      (∀ u, exec .fabSwitchApply s = .next u → t.fab.split = u.fab.split ∧ t.fab.sched = u.fab.sched ∧ t.fab.switch = u.fab.switch) ∧
      (s.grp.st ≠ .none ∨ s.grp.busy = true → ⟨.heartbeatSend, .none⟩ ∈ t.run.agenda)) ∧
    (∀ v : Word, s.run.input = .word v → ∃ t u, exec .fabSwitch s = .next t ∧ t.fab = { x with switch := x.switch ++ [u], latesw := x.latesw || decide (wbits v 16 48 ≤ x.frame.toNat) } ∧ t.tiles = s.tiles ∧
      t.mems = s.mems ∧ wbits u 0 16 = wbits v 0 16 ∧ (x.frame.toNat < wbits v 16 48 → u = v) ∧ (wbits v 16 48 ≤ x.frame.toNat → wbits u 16 48 = (x.frame.toNat + 1) % 2 ^ 48)) ∧
    ((∀ v ∈ x.switch, x.frame.toNat + 1 < wbits v 16 48) → exec .fabSwitchApply s = .next s) ∧
    (∃ t, exec .fabSwitchApply s = .next t ∧ t = { s with fab := { x with switch := x.switch.filter (fun v => x.frame.toNat + 1 < wbits v 16 48), split := t.fab.split, sched := t.fab.sched } } ∧
      (∀ i < 64, 0 < i → t.fab.split.getLsbD i = x.split.getLsbD i ∧ t.fab.sched.getLsbD i = x.sched.getLsbD i) ∧
      ∀ l v r, x.switch = l ++ v :: r → wbits v 16 48 ≤ x.frame.toNat + 1 →
        ((∀ w ∈ r, wbits w 16 48 ≤ x.frame.toNat + 1 → wbit w 2 = false) → wbit v 2 = true → t.fab.split.getLsbD 0 = wbit v 0) ∧
        ((∀ w ∈ r, wbits w 16 48 ≤ x.frame.toNat + 1 → wbit w 3 = false) → wbit v 3 = true → t.fab.sched.getLsbD 0 = wbit v 1)) ∧
    (∀ p : BitVec 5, s.run.input = .port p → p.toNat < 24 → ∃ t, exec .linkDown s = .next t ∧ t.fab.usable = x.usable ∧
      (∀ i < 24, t.fab.up.getLsbD i = (x.up.getLsbD i && i != p.toNat) ∧ t.fab.failed.getLsbD i = (x.failed.getLsbD i || i == p.toNat)) ∧
      (let j : Fin 24 := Fin.ofNat 24 p.toNat; (s.margin.lmrun[j] = none → t.margin = s.margin) ∧ (s.margin.lmrun[j] ≠ none → t.margin.lmrun[j] = none ∧ t.margin.lmerr[j] = 0xFFFFFFFF))) ∧
    (∀ (p : BitVec 5) (l : BitVec 8), s.run.input = .lanes p l → p.toNat < 24 → let j : Fin 24 := Fin.ofNat 24 p.toNat; let v := s.margin.lmlane[j]
      let again := x.trained.getLsbD p.toNat
      ∃ t, exec .fabricLinkUp s = .next t ∧ (∀ i < 24, t.fab.up.getLsbD i = (x.up.getLsbD i || i == p.toNat) ∧ t.fab.trained.getLsbD i = (x.trained.getLsbD i || i == p.toNat)) ∧ wbits t.margin.lmlane[j] 0 8 = l.toNat ∧
        wbits t.margin.lmlane[j] 16 8 = min (wbits v 16 8 + if again then 1 else 0) 255 ∧
        ∀ i < 8, wbit t.margin.lmlane[j] (8 + i) = (wbit v (8 + i) || (again && wbit v i && !l.getLsbD i)))

/-- What becomes of the window that counted a posted flit when its fate comes: the flit is no longer counted; a failure sets its bit of WSTAT, counts, and keeps the first failing offset (R388). -/
def Claims.fate (x : Window) (f : PostedFlit) (code : Nat) (y : Window) : Prop :=
  y.flits = x.flits.filter (·.num != f.num) ∧ (code = 0 → y.wstat = x.wstat) ∧
  (code ≠ 0 → wbit y.wstat (min (code - 1) 5) = true ∧ wbits y.wstat 8 8 = min (wbits x.wstat 8 8 + 1) 255 ∧ (wbits x.wstat 0 6 = 0 → wbits y.wstat 16 24 = f.off % 2 ^ 24) ∧
    (wbits x.wstat 0 6 ≠ 0 → wbits y.wstat 16 24 = wbits x.wstat 16 24) ∧ ∀ i < 6, i ≠ min (code - 1) 5 → wbit y.wstat i = wbit x.wstat i)

/-- R386 to R389: the events of remote windows. After 256 cycles without a store the lines of a window are to be sent; the oldest line leaves once it is to be sent and the allowance admits it, and the stores that wait
go on; it is one posted flit counted until its fate comes back;
120,000 cycles without one is a failure with DOWN, and a failure sets UICAUSE.WERR. At its target a posted write stores the bytes of its mask and is acknowledged, and a remote load is answered with the bytes, and with the poison of those that the sender lacks; where the target refuses,
the acknowledgement carries the reason, and the load is answered by a refusal. What arrives for a halted context's tile or a tile that is
being saved waits (R374, R377); a load of a halted context's tile is answered at once where no write of its stream waits before it (DEDUCED, log entry 59). -/
def Claims.WindowEvents : Prop :=
  ∀ s : State,
    (∀ o : Origin, s.run.input = .origin o → let t := o.tile.toNat; let h := o.thread.toNat; let x := s.winAt t h o.id; let who := fun (u : State) => u.winAt t h o.id
      (256 ≤ x.idle → ∃ u, exec .combineTimeout s = .next u ∧ who u = { x with lines := x.lines.map (fun l => { l with send := true }) }) ∧ (x.idle < 256 → exec .combineTimeout s = .next s) ∧
      (x.departs = none → exec .lineDepart s = .next s) ∧
      (∀ l, x.departs = some l → let n := (s.threadAt t h).nextCmd
        ∃ u, exec .lineDepart s = .next u ∧ u.fab.out = s.fab.out ++ [⟨24, s.modNum, l.dst, 0, none, s.fab.hold, .posted l.req l.mask l.data ⟨BitVec.ofNat 8 t, BitVec.ofNat 2 h, 0, n⟩⟩] ∧
          who u = ({ x with lines := x.lines.drop 1, flits := x.flits ++ [⟨n, l.off, s.run.cycle, l.dst⟩] } : Window).pump x.pend ∧ (u.threadAt t h).nextCmd = n + 1) ∧
      ((∀ w < 64, ∀ f ∈ (s.winAt t h w).flits, f.num = o.id → s.run.cycle < f.since + 120000) → exec .postedTimeout s = .next s) ∧
      (∀ w < 64, ∀ f, (s.winAt t h w).flits.find? (·.num == o.id) = some f → f.since + 120000 ≤ s.run.cycle → (∀ v < 64, v ≠ w → ∀ g ∈ (s.winAt t h v).flits, g.num ≠ o.id) →
        ∃ u, exec .postedTimeout s = .next u ∧ Claims.fate (s.winAt t h w) f 4 (u.winAt t h w) ∧ wbit (u.threadAt t h).csr.uicause 16 = true)) ∧
    (∀ (o : Origin) (c : BitVec 4), s.run.input = .ack o c → let t := o.tile.toNat; let h := o.thread.toNat
      ((∀ w < 64, ∀ f ∈ (s.winAt t h w).flits, f.num ≠ o.id) → exec .postedAck s = .next s) ∧
      (∀ w < 64, ∀ f, (s.winAt t h w).flits.find? (·.num == o.id) = some f → (∀ v < 64, v ≠ w → ∀ g ∈ (s.winAt t h v).flits, g.num ≠ o.id) →
        ∃ u, exec .postedAck s = .next u ∧ Claims.fate (s.winAt t h w) f c.toNat (u.winAt t h w) ∧ (c ≠ 0 → wbit (u.threadAt t h).csr.uicause 16 = true) ∧
          (c = 0 → (u.threadAt t h).csr = (s.threadAt t h).csr) ∧ ∀ v < 64, v ≠ w → u.winAt t h v = s.winAt t h v)) ∧
    (∀ src r mask data o, s.run.input = .posted src r mask data o →
      (r.kind ≠ 0 → s.ctxByKey r.key = none → exec .postedWriteReceive s = .next (s.emit src (.postedAck o 1))) ∧
      (∀ c tl, r.kind = 2 → s.ctxByKey r.key = some c → s.home c r.target.toNat = .tile tl → s.gated tl = true → r.addr.toNat + 64 ≤ 0x300000 → exec .postedWriteReceive s = .next (s.emit src (.postedAck o 2))) ∧
      (∀ c, r.kind = 2 → s.ctxByKey r.key = some c → s.home c r.target.toNat = .gone → r.addr.toNat + 64 ≤ 0x300000 → exec .postedWriteReceive s = .next (s.emit src (.postedAck o 3))) ∧
      (∀ c tl, r.kind = 2 → s.ctxByKey r.key = some c → s.home c r.target.toNat = .tile tl → s.gated tl = false → s.holdKey c tl = none → r.addr.toNat + 64 ≤ 0x300000 → tl < 130 →
        (s.tileAt tl).touchesLive r.addr.toNat 64 = false → ∃ t, exec .postedWriteReceive s = .next t ∧ t.fab.out = s.fab.out ++ [⟨24, s.modNum, src, 0, none, s.fab.hold, .postedAck o 0⟩] ∧
          (∀ i < 64, mask.getLsbD i = true → t.byteAt (.spad (Fin.ofNat 130 tl) (r.addr.toNat + i)) = (data >>> (8 * i)).setWidth 8) ∧
          SameBytes s t (fun m => ∃ i < 64, mask.getLsbD i = true ∧ m = .spad (Fin.ofNat 130 tl) (r.addr.toNat + i))) ∧
      (∀ c tl k, r.kind = 2 → s.ctxByKey r.key = some c → s.home c r.target.toNat = .tile tl → s.gated tl = false → s.holdKey c tl = some k → k ≤ 64 ∨ src ≠ s.modNum → r.addr.toNat + 64 ≤ 0x300000 →
        exec .postedWriteReceive s = .next { s with mems := { s.mems with heldIn := s.mems.heldIn ++ [⟨k, dieOf tl, .flit (.posted r mask data o) src⟩] } })) ∧
    (∀ src r n lacks o, s.run.input = .load src r n lacks o →
      (r.kind ≠ 0 → s.ctxByKey r.key = none → exec .remoteLoadReceive s = .next (s.emit src (.loadReply o false false []))) ∧
      (∀ c tl, r.kind = 2 → s.ctxByKey r.key = some c → s.home c r.target.toNat = .tile tl → s.gated tl = false → n ≠ 0 → r.addr.toNat + n.toNat ≤ 0x300000 → tl < 130 →
        s.holdKey c tl = none ∨ (∃ k, s.holdKey c tl = some k ∧ k ≤ 64 ∧ s.behindHeld k src o = false) → ∃ ps bs,
        exec .remoteLoadReceive s = .next (s.emit src (.loadReply o true ps bs)) ∧ bs.length = n.toNat ∧
          (∀ i (h : i < bs.length), bs[i] = s.byteAt (.spad (Fin.ofNat 130 tl) (r.addr.toNat + i))) ∧
          (ps = true ↔ ∃ u ∈ (s.tileAt tl).spad.poison, ∃ i < n.toNat, lacks.getLsbD i = true ∧ (r.addr.toNat + i) / 32 = u)) ∧
      (∀ c tl k, r.kind = 2 → s.ctxByKey r.key = some c → s.home c r.target.toNat = .tile tl → s.gated tl = false → s.holdKey c tl = some k → 64 < k ∨ s.behindHeld k src o = true → r.addr.toNat + n.toNat ≤ 0x300000 →
        exec .remoteLoadReceive s = .next { s with mems := { s.mems with heldIn := s.mems.heldIn ++ [⟨k, dieOf tl, .flit (.loadReq r n lacks o) src⟩] } }))

/-- R396, R400, R444 to R446: the events of a reduction slot. What arrives at a slot that is being freed is dropped and counted; at one not held it is kept; at a held one a child's first contribution to the current epoch is added,
one to the next epoch waits, any other is dropped and counted. A node that is open leaves at its deadline with what it has: its partial goes up, or, at the root, it has the result. A
result that reaches a node which has sent, or whose deadline has come and which sends first (R445), is its result; the results that reach a slot not held are all kept. A child's contribution is taken whatever key it carries (DEDUCED, log
entry 60). A freed slot is free a frame later. -/
def Claims.ReductionEvents : Prop :=
  ∀ s : State, let late := fun (i : Instr) => ∃ t, exec i s = .next t ∧ t = { s with fab := { s.fab with rlate := t.fab.rlate } } ∧ t.fab.rlate.toNat = min (s.fab.rlate.toNat + 1) (2 ^ 32 - 1)
    (∀ (p : BitVec 5) c, s.run.input = .contrib p c → let i := c.slot.toNat; let x := s.rslotAt i
      (x.dying = true → late .reductionContribution) ∧
      (x.dying = false → x.holder = none → exec .reductionContribution s = .next (s.setRslot i { x with kept := x.kept.filter (fun k => k.1 != p.toNat) ++ [(p.toNat, c)] })) ∧
      (∀ k, x.dying = false → x.holder = some k → x.st = .idle ∨ x.st = .opened ∧ s.fab.now < x.first + cfgDeadline x.cfg →
        (¬ (p.toNat < 24 ∧ wbit x.tree p.toNat = true) → late .reductionContribution) ∧
        (p.toNat < 24 → wbit x.tree p.toNat = true → c.epoch = x.epoch → (∀ y ∈ x.kids, y.1 ≠ p.toNat) → treeLocal x.tree = true → x.own = none →
          exec .reductionContribution s = .next (s.setRslot i { x with st := .opened, kids := x.kids ++ [(p.toNat, c)], first := if x.st = .idle then s.fab.now else x.first })) ∧
        (p.toNat < 24 → wbit x.tree p.toNat = true → c.epoch = x.epoch → (∃ y ∈ x.kids, y.1 = p.toNat) → late .reductionContribution) ∧
        (p.toNat < 24 → wbit x.tree p.toNat = true → c.epoch = x.epoch + 1 → (∀ y ∈ x.later, y.1 ≠ p.toNat) → exec .reductionContribution s = .next (s.setRslot i { x with later := x.later ++ [(p.toNat, c)] })) ∧
        (p.toNat < 24 → wbit x.tree p.toNat = true → c.epoch ≠ x.epoch → c.epoch ≠ x.epoch + 1 → late .reductionContribution))) ∧
    (∀ j : BitVec 8, s.run.input = .rslot j → let i := j.toNat; let x := s.rslotAt i
      (x.st ≠ .opened ∨ s.fab.now < x.first + cfgDeadline x.cfg → exec .reductionDeadline s = .next s) ∧
      (x.st = .opened → x.first + cfgDeadline x.cfg ≤ s.fab.now → ∃ t, exec .reductionDeadline s = .next t ∧ (t.rslotAt i).lmiss = (treeLocal x.tree && x.own.isNone) ∧
        (∀ q < 24, (t.rslotAt i).miss.getLsbD q = (wbit x.tree q && !x.kids.any (fun k => k.1 == q))) ∧
        (24 ≤ treeParent x.tree → (t.rslotAt i).st = .done ∧ (t.rslotAt i).result = some (x.fold i (s.slotKey i))) ∧
        (treeParent x.tree < 24 → (t.rslotAt i).st = .sent ∧ ∃ f, t.fab.out = s.fab.out ++ [f] ∧ f.port = some (treeParent x.tree) ∧ f.flit = .contribution (x.fold i (s.slotKey i)))) ∧
      (x.dying = true → x.first ≤ s.fab.now → exec .rfreeFrameEnd s = .next (s.setRslot i RSlot.free)) ∧ (x.dying = false ∨ s.fab.now < x.first → exec .rfreeFrameEnd s = .next s)) ∧
    (∀ c, s.run.input = .result c → let i := c.slot.toNat; let x := s.rslotAt i
      (x.dying = true → late .reductionResult) ∧ (x.dying = false → x.holder = none → exec .reductionResult s = .next (s.setRslot i { x with keptR := x.keptR ++ [c] })) ∧
      (∀ k, x.dying = false → x.holder = some k →
        (x.st = .opened → x.first + cfgDeadline x.cfg ≤ s.fab.now → c.epoch = x.epoch → treeParent x.tree < 24 → ∃ t, exec .reductionResult s = .next t ∧ (t.rslotAt i).st = .done ∧ (t.rslotAt i).result = some c ∧
          ∃ f ∈ t.fab.out, f.port = some (treeParent x.tree) ∧ f.flit = .contribution (x.fold i (s.slotKey i))) ∧
        (x.st ≠ .opened ∨ s.fab.now < x.first + cfgDeadline x.cfg → c.epoch ≠ x.epoch ∨ x.st = .done → late .reductionResult) ∧
        (x.st ≠ .opened ∨ s.fab.now < x.first + cfgDeadline x.cfg → c.epoch = x.epoch → x.st ≠ .done → ∃ t, exec .reductionResult s = .next t ∧ (t.rslotAt i).st = .done ∧
          (x.st = .sent → (t.rslotAt i).result = some c) ∧ (x.st ≠ .sent → (t.rslotAt i).result = some { c with late := true } ∧ (t.rslotAt i).own = none))))

/-- Nothing waits for the coding group on this module: no held write or delta, no flit, no request of a peer. -/
def Claims.nothingHeld (s : State) : Prop := s.grp.held = [] ∧ s.grp.heldDelta = [] ∧ s.mems.heldIn = [] ∧ s.grp.wants = []

/-- A flit to each entry of a list, in order. -/
def Claims.told (s : State) (es : List Nat) (f : Flit) : State := es.foldl (fun (s : State) e => s.emit (s.grp.moduleOf e) f) s

/-- Where the record of an atom's stack counts what was found in it (R210): a poisoning at `off` 4, a correction or a repair at 6. Which record that is, is the model's choice (log entry 141). -/
def Claims.counts (a off : Nat) (m : Spot) : Prop := let st := stackOf (32 * a); ∃ j < 2, m = .mram (healthBase (128 + dieOfStack st) + 16 * (st % 6) + off + j)

/-- R210, R212, R213: repair on read. The rebuilt atom is written, its poison cleared and its request done; an attempt fails at its deadline; planishing poisons an uncorrectable atom that no region protects, leaves the bytes of a
correctable one, and counts either; in a protected region it asks the group for the atom, and the poisoning is reported only when that fails. A peer's request for
an atom is answered with its bytes, or with none while the module does not serve. -/
def Claims.RepairEvents : Prop :=
  ∀ s : State, let g := s.grp
    (∀ (a : Nat) (d : BitVec 256), s.run.input = .atomData a d → ((∀ x ∈ g.asks, x.atom ≠ a) → exec .repairOnRead s = .next s) ∧
      ((∃ x ∈ g.asks, x.atom = a) → Claims.nothingHeld s → ∃ t, exec .repairOnRead s = .next t ∧ t.grp.asks = g.asks.filter (fun x => x.atom != a) ∧ a ∉ t.mems.hbm.poison ∧
        (∀ i < 32, t.byteAt (.hbm (32 * a + i)) = (d >>> (8 * i)).setWidth 8) ∧ SameBytes s t (fun m => (∃ i < 32, m = .hbm (32 * a + i)) ∨ Claims.counts a 6 m))) ∧
    (∀ a : Nat, s.run.input = .atom a → (∀ x, g.asks.find? (fun x => x.atom == a && x.deadline != 0) = some x →
        (s.run.cycle < x.deadline → s.askHopeless a = false → g.serving = true → exec .repairTimeout s = .next s) ∧
        (x.deadline ≤ s.run.cycle → Claims.nothingHeld s → ∃ t, exec .repairTimeout s = .next t ∧ (∀ y ∈ t.grp.asks, y.atom = a → y.deadline = 0) ∧ SameBytes s t (Claims.counts a 4))) ∧
      (g.asks.find? (fun x => x.atom == a && x.deadline != 0) = none → exec .repairTimeout s = .next s)) ∧
    (∀ (a : Nat) (found : BitVec 2), s.run.input = .scrub a found → a ∉ s.mems.hbm.poison → (found = 0 → exec .planishVisit s = .next s) ∧
      (found = 1 → 32 * a < 0x9000000000 → exec .planishVisit s = .next (s.stackEvent a 6) ∧ SameBytes s (s.stackEvent a 6) (Claims.counts a 6)) ∧
      (2 ≤ found.toNat → 32 * a < 0x9000000000 → g.imageOff (32 * a) = none → ∃ t, exec .planishVisit s = .next t ∧ a ∈ t.mems.hbm.poison ∧ SameBytes s t (Claims.counts a 4)) ∧
      (2 ≤ found.toNat → 32 * a < 0x9000000000 → g.imageOff (32 * a) ≠ none → g.serving = true → g.recast = false → (∀ x ∈ g.asks, x.atom ≠ a) → ∃ t, exec .planishVisit s = .next t ∧ a ∈ t.mems.hbm.poison ∧
        (∃ x ∈ t.grp.asks, x.atom = a ∧ x.found = true) ∧ SameBytes s t (fun _ => False))) ∧
    (∀ (src : BitVec 20) (e : BitVec 5) (a : Nat), s.run.input = .reconstruct src e a → let tells := fun (u : State) d => exec .reconstructRequest s = .next (u.emit src (.reconstructed (BitVec.ofNat 5 g.own) a d))
      (g.serving = false → tells s none) ∧
      (∀ p, g.serving = true → g.recast = false → g.role = 2 → g.unacked = [] → p = g.parityBase + 32 * a → p / 32 ∉ s.mems.hbm.poison → ∃ d : BitVec 256, tells s (some d) ∧
        ∀ i < 32, (d >>> (8 * i)).setWidth 8 = s.byteAt (.hbm (p + i))))

/-- R404, R420, R427 to R433: deltas, votes and decisions. A holder applies a delta of the round and acknowledges it, and acknowledges one of an earlier round only. Deltas acknowledged leave the member's list. The root decides abort on the first vote against and
commit on the last vote for, two frames on. A decision is kept until its frame, by a joining module whatever its round; it is then applied, and the next event opens the round after it. A resolution commits a round up to the
one that some survivor committed, if any. A report is kept by a module that serves. -/
def Claims.RoundEvents : Prop :=
  ∀ s : State, let g := s.grp; let open_ := g.st = .opened ∨ g.st = .preparing ∨ g.st = .voted
    (∀ (src : BitVec 20) (d : Delta), s.run.input = .delta src d → let ack := fun (u : State) => exec .deltaReceive s = .next (u.emit src (.deltaAck (BitVec.ofNat 2 g.index) d))
      (g.role ≠ 2 ∨ g.st = .none ∨ g.st = .lost → exec .deltaReceive s = .next s) ∧
      (g.role = 2 → g.st ≠ .none → g.st ≠ .lost →
        (d.round.toNat < g.round.toNat → ack s) ∧
        (d.round = g.round → s.deltaWaits d = true → ∃ t, exec .deltaReceive s = .next t ∧ t.grp.heldDelta = g.heldDelta ++ [(src, d)] ∧ t.fab = s.fab ∧ t.mems = s.mems) ∧
        (d.round = g.round → s.deltaWaits d = false → g.recast = false → ack (s.applyDelta d)))) ∧
    (∀ (h : BitVec 2) (d : Delta), s.run.input = .deltaAck h d → g.st ≠ .preparing → g.asks = [] → g.wants = [] → exec .deltaAck s = .next { s with grp := { g with unacked := g.unacked.erase (h, d) } }) ∧
    (∀ (m : BitVec 4) (r : Word) (ready : Bool) (z : Word), s.run.input = .vote m r ready z → let frame := s.fab.frame + 2
      (g.root ≠ g.own ∨ r ≠ g.round ∨ g.decision ≠ none ∨ ¬ open_ → exec .voteReceive s = .next s) ∧
      (g.root = g.own → r = g.round → g.decision = none → open_ →
        (ready = false → ∃ t, exec .voteReceive s = .next t ∧ t.grp = { g with decision := some (g.round, false, frame, none) } ∧ t.mems = s.mems) ∧
        (ready = true → m ∉ g.votes → (∃ i < g.k, i ≠ m.toNat ∧ ∀ v ∈ g.votes, v.toNat ≠ i) → exec .voteReceive s = .next { s with grp := { g with votes := m :: g.votes } }) ∧
        (ready = true → m ∉ g.votes → (∀ i < g.k, i = m.toNat ∨ ∃ v ∈ g.votes, v.toNat = i) → ∃ t, exec .voteReceive s = .next t ∧
          t.grp = { g with votes := m :: g.votes, decision := some (g.round, true, frame, none) } ∧ t.mems = s.mems))) ∧
    (∀ (r : Word) (c : Bool) (f : BitVec 48), s.run.input = .decision r c f →
      (r = g.round → g.decision = none → open_ → exec .decisionReceive s = .next { s with grp := { g with decision := some (r, c, f, none) } }) ∧
      (g.busy = true → g.decision = none → exec .decisionReceive s = .next { s with grp := { g with decision := some (r, c, f, none) } }) ∧
      (g.decision ≠ none ∨ (g.busy = false ∧ (r ≠ g.round ∨ ¬ open_)) → exec .decisionReceive s = .next s)) ∧
    (g.decision = none → exec .decisionApply s = .next s) ∧
    (∀ r c f next, g.decision = some (r, c, f, next) →
      (s.fab.frame.toNat < f.toNat → exec .decisionApply s = .next s) ∧
      (f.toNat ≤ s.fab.frame.toNat → open_ → next = none → ∃ t, exec .decisionApply s = .next t ∧ t.grp.st = .applying ∧ t.grp.used = 0 ∧ t.grp.round = g.round ∧
        t.grp.regions = (g.regions.filter (fun x => if c then !x.going else !x.fresh)).map (fun x => { x with fresh := false, going := false }) ∧ t.run.agenda = s.run.agenda ++ [⟨.decisionApply, .none⟩]) ∧
      (f.toNat ≤ s.fab.frame.toNat → g.st = .applying → g.held = [] → g.heldDelta = [] → ∃ t, exec .decisionApply s = .next t ∧ t.grp.st = .opened ∧ t.grp.round = next.getD (g.round + 1) ∧ t.grp.lastRound = g.round ∧
        t.grp.decision = none ∧ t.grp.votes = [] ∧ (next = none → t.grp.lastAbort = !c) ∧ (next ≠ none → t.grp.unrep = true ∧ (t.grp.lastAbort = false ↔ c = true ∧ g.round.toNat ≤ r.toNat)) ∧ t.mems = s.mems)) ∧
    (∀ r : Report, s.run.input = .report r → (g.busy = false → g.serving = false → exec .recoveryReport s = .next s) ∧
      (g.busy = false → g.serving = true → ∃ t, exec .recoveryReport s = .next t ∧ t.grp.reports = g.reports.filter (fun x => x.entry != r.entry) ++ [r] ∧ t.mems = s.mems))

/-- The regions that the table of a shard's header `b` gives. -/
def Claims.shardTable (s : State) (b : List Byte) : List PRegion :=
  (List.range 64).filterMap (fun i => let spec := wofNat (leAt b (104 + 16 * i) 8)
    if wbits spec 0 23 = 0 then none else some (s.regionOf ⟨BitVec.ofNat 4 s.grp.index, BitVec.ofNat 6 i, wofNat (leAt b (96 + 16 * i) 8), spec, none, none⟩))

/-- R422, R423, R428, R435 to R443: the coding group's commands, heartbeats and losses. JOIN is refused with 3 in a group, 1 with a bad configuration, 2 with a bad placement (1 and 2 end an
earlier JOIN), and otherwise begins (a ROLE 3 module without the checks: DEDUCED, log entry 71); LEAVE ends in NONE without regions (what else it clears: DEDUCED, log entry 72); SOURCE and STOPSRC switch
the streaming of this module's data and tell the target. A recast unit is written with the XOR of its parts. EXPORT and RESTORE are refused with 6 where they may not start; selections that do not agree end RESTORE with 4 or 3, and a wrong digest with 5 (the codes and their order: DEDUCED, log entry 76);
a RESTORE that may start selects its shard and tells the other members, and ends with 0 once all agree: the regions of the shard's table stand, its image is written into their pages, and the holders are told; CANCEL ends an export with 1.
Heartbeats go to every other module once a frame and are noted; a module without one for four frames is lost, and one that is told of its own loss is lost itself. -/
def Claims.GroupEvents : Prop :=
  ∀ s : State, let g := s.grp; let err := fun (i : Instr) (e : BitVec 4) => exec i s = .next { s with grp := { g with cmdErr := e } }; let fails := fun (e : BitVec 4) => exec .joinGroup s = .next { s with grp := { g.cleared with cmdErr := e } }
    (g.st ≠ .none → err .joinGroup 3) ∧ (g.st = .none → g.role ≠ 3 → g.goodCfg s.modNum = false → fails 1) ∧
    (g.st = .none → g.role ≠ 3 → g.goodCfg s.modNum = true → g.placed = false → fails 2) ∧
    (g.st = .none → g.role = 3 ∨ (g.goodCfg s.modNum = true ∧ g.placed = true) → ∃ t, exec .joinGroup s = .next t ∧ t = { s with grp := t.grp } ∧ t.grp.busy = true ∧ t.grp.cfg = g.cfg ∧ t.grp.members = g.members ∧ t.grp.cmdErr = 0) ∧
    (∃ t, exec .leaveGroup s = .next t ∧ t.grp.st = .none ∧ t.grp.regions = [] ∧ t.grp.held = [] ∧ t.grp.used = 0 ∧ t.grp.cfg = g.cfg ∧ (g.expBusy ≠ 0 → t.grp.expRes = 1)) ∧
    (g.serving = false → err .startSource 3) ∧
    (g.serving = true → exec .startSource s = .next (({ s with grp := { g with rcActive := true, cmdErr := 0 } } : State).emit (BitVec.ofNat 20 (wbits g.rcCfg 32 20)) (.source (BitVec.ofNat 5 g.own) true))) ∧
    (g.rcActive = false → err .stopSource 0) ∧
    (g.rcActive = true → g.held = [] → g.heldDelta = [] → ∃ t, exec .stopSource s = .next t ∧ t.grp.rcActive = false ∧ t.mems = s.mems ∧
      t.fab.out = s.fab.out ++ [⟨24, s.modNum, BitVec.ofNat 20 (wbits g.rcCfg 32 20), 0, none, s.fab.hold, .source (BitVec.ofNat 5 g.own) false⟩]) ∧
    (∀ (u : BitVec 23) (parts : List (List Byte)), s.run.input = .unit u parts → (g.recast = false ∨ u.toNat ∉ g.pending → exec .recastUnit s = .next s) ∧
      (∀ a, g.recast = true → u.toNat ∈ g.pending → s.imageAt (u.toNat * 0x10000) = some a → Claims.nothingHeld s → let bytes := parts.foldl gfAdd (List.replicate 0x10000 0)
        ∃ t, exec .recastUnit s = .next t ∧ u.toNat ∈ t.grp.units ∧ (∀ i (h : i < bytes.length), t.byteAt (.hbm (a + i)) = bytes[i]) ∧ SameBytes s t (fun m => ∃ i < bytes.length, m = .hbm (a + i)))) ∧
    ((g.role ≠ 1 ∧ g.role ≠ 3) ∨ ¬ (g.st = .opened ∨ g.st = .preparing ∨ g.st = .voted) ∨ g.expBusy ≠ 0 → exec .exportShard s = .next { s with grp := { g with expRes := 6 } }) ∧
    (g.role = 1 ∨ g.role = 3 → g.st = .opened ∨ g.st = .preparing ∨ g.st = .voted → g.expBusy = 0 → let v : State := { s with grp := { g with expSlot := s.exportSlot, expWait := false } }
      (s.slotAsk = none → v.ctxWrite (v.grp.slotAddr s.exportSlot) [0, 0, 0, 0] = none → exec .exportShard s = .next { v with grp := { v.grp with expBusy := 0, expRes := 2 } }) ∧
      (∀ u, s.slotAsk = none → v.ctxWrite (v.grp.slotAddr s.exportSlot) [0, 0, 0, 0] = some u → exec .exportShard s = .next { u with grp := { u.grp with expBusy := 1, expRes := 0, expMiss := 0 } }) ∧
      (∀ a, s.slotAsk = some a → exec .exportShard s = .next { s.askFor false a with grp := { (s.askFor false a).grp with expBusy := 1, expRes := 0, expMiss := 0, expWait := true } })) ∧
    (∀ round, s.run.input = .restore round [] → (g.role ≠ 1 ∧ g.role ≠ 3) ∨ g.st ≠ .opened ∨ g.used ≠ 0 ∨ g.regions ≠ [] ∨ g.expBusy ≠ 0 → exec .restoreShard s = .next { s with grp := { g with expRes := 6 } }) ∧
    (∀ round, s.run.input = .restore round [] → g.role = 1 ∨ g.role = 3 → g.st = .opened → g.used = 0 → g.regions = [] → g.expBusy = 0 → let x := s.selectShard round.toNat; let good := (x.map (fun y => s.shardGood y.1)).getD true
      ∃ t, exec .restoreShard s = .next t ∧ t.grp.expBusy = 2 ∧ t.grp.expRes = 0 ∧ t.grp.selRound = round.toNat ∧ t.grp.sel = g.sel.filter (fun y => y.1 != g.index) ++ [(g.index, x.map (·.2), good)] ∧
        t.fab = (Claims.told s (g.peers.filter (· < 16)) (.selection (BitVec.ofNat 4 g.index) (x.map (·.2)) good)).fab ∧ t.mems = s.mems ∧ t.tiles = s.tiles) ∧
    (∀ round x xs, s.run.input = .restore round (x :: xs) → (g.expBusy ≠ 2 → exec .restoreShard s = .next s) ∧
      (g.expBusy = 2 → (∃ y ∈ x :: xs, y.2.1 = none) → ∃ t, exec .restoreShard s = .next t ∧ t.grp.expBusy = 0 ∧ t.grp.expRes = 4 ∧ t.mems = s.mems) ∧
      (g.expBusy = 2 → (∀ y ∈ x :: xs, y.2.1 ≠ none) → (∃ y ∈ xs, y.2.1 ≠ x.2.1) → ∃ t, exec .restoreShard s = .next t ∧ t.grp.expBusy = 0 ∧ t.grp.expRes = 3 ∧ t.mems = s.mems) ∧
      (∀ r, g.expBusy = 2 → (∀ y ∈ x :: xs, y.2.1 = some r) → (∃ y ∈ x :: xs, y.2.2 = false) → ∃ t, exec .restoreShard s = .next t ∧ t.grp.expBusy = 0 ∧ t.grp.expRes = 5 ∧ t.mems = s.mems) ∧
      (∀ r sl n b image, g.expBusy = 2 → (∀ y ∈ x :: xs, y.2.1 = some r ∧ y.2.2 = true) → s.selectShard r = some (sl, n) → s.header sl = some b → s.shardImage sl = some image →
        let v : State := { s with grp := { g with expSlot := sl } }; let rs := Claims.shardTable v b; let pages := rs.flatMap (·.pa)
        (v.header sl = some b → v.shardImage sl = some image → ∃ t, exec .restoreShard s = .next t ∧ t.grp.expBusy = 0 ∧ t.grp.expRes = 0 ∧ t.grp.expMiss = 0 ∧ t.grp.sel = [] ∧ t.grp.round = wofNat (r + 1) ∧ t.grp.regions = rs ∧
          t.grp.restoring = !g.liveHolders.isEmpty ∧
          (pages.Pairwise (fun p q => p.1 + 0x10000 ≤ q.1 ∨ q.1 + 0x10000 ≤ p.1) → ∀ p ∈ pages, ∀ i < 0x10000, ∀ h : p.2 + i < image.length, t.byteAt (.hbm (p.1 + i)) = image[p.2 + i]) ∧
          SameBytes s t (fun m => ∃ p ∈ pages, ∃ i < 0x10000, m = .hbm (p.1 + i)) ∧
          ∀ e ∈ g.liveHolders, ⟨24, s.modNum, g.moduleOf e, 0, none, s.fab.hold, .restored (BitVec.ofNat 4 g.index) (wofNat r)⟩ ∈ t.fab.out))) ∧
    (g.expBusy = 1 → exec .cancelExport s = .next { s with grp := { g with expBusy := 0, expRes := 1 } }) ∧ (g.expBusy ≠ 1 → exec .cancelExport s = .next s) ∧
    (g.st = .none → g.busy = false → exec .heartbeatSend s = .next s) ∧
    (s.unreplaced = true → exec .heartbeatSend s = .next { s with grp := { g.cleared with cmdErr := 1 } }) ∧
    (g.st ≠ .none ∨ g.busy = true → s.unreplaced = false → exec .heartbeatSend s = .next (Claims.told s g.peers (.heartbeat ⟨BitVec.ofNat 5 g.own, BitVec.ofNat 2 g.role, BitVec.ofNat 16 g.number, g.round, BitVec.ofNat 3 g.st.code, g.hash⟩))) ∧
    (∀ (src : BitVec 20) (h : Heartbeat), s.run.input = .heartbeat src h → let e := h.entry.toNat; let same := h.group.toNat = g.number ∧ h.cfgHash = g.hash
      (g.st = .none ∧ g.busy = false ∨ 20 ≤ e → exec .heartbeatReceive s = .next s) ∧
      (g.busy = true → e < 20 → ¬ same → ∃ t, exec .heartbeatReceive s = .next t ∧ t.grp.busy = false ∧ t.grp.st = .none ∧ t.grp.cmdErr = 4) ∧
      (g.busy = false → g.st ≠ .none → e < 20 → same → e ≠ g.own → g.valid e = true → g.isLost e = false → src = g.moduleOf e →
        exec .heartbeatReceive s = .next { s with grp := { g with heard := g.heard.set (Fin.ofNat 20 e) (s.fab.frame + 1) } })) ∧
    (∀ e : BitVec 5, s.run.input = .entry e → let h := g.heard[Fin.ofNat 20 e.toNat].toNat
      (g.serving = false ∨ e.toNat = g.own ∨ h = 0 ∨ s.fab.frame.toNat < h + 4 → exec .lossDeclare s = .next s) ∧
      (g.serving = true → g.busy = false → e.toNat ≠ g.own → h ≠ 0 → h + 4 ≤ s.fab.frame.toNat → ∃ t, exec .lossDeclare s = .next t ∧
        (e.toNat < 20 → g.valid e.toNat = true → g.isLost e.toNat = false → t.grp.isLost e.toNat = true ∧ (t.grp.st = .recovering ∨ t.grp.st = .lost) ∧ wbit ((t.svc[(0 : Fin 2)]).wakepend.setWidth 64) 5 = true)) ∧
      (g.st = .none → exec .lostNotice s = .next s) ∧ (g.st ≠ .none → e.toNat = g.own → ∃ t, exec .lostNotice s = .next t ∧ t.grp.st = .lost ∧ t.grp.lostSelf = true))

/-- R450 to R458: health records, Firefly's reads of them, and margins. A finding is appended to the tile's in-field map; Firefly reads the hallmark map, the in-field map and any block of the health area. A write to VMARG clamps the offset to the rail's limit and has no
effect under LOCK; CLAMPED stays only where 1 is written to it or the cycle has set it (R7, R8); SETTLED is then 1 on the rails that are at their offset; the end of a ramp sets it. A link measurement runs from its start for DWELL whole frames and then gives its counts; on a link that is down it ends at once with ERRS all ones. -/
def Claims.HealthEvents : Prop :=
  ∀ s : State,
    (∀ (tl : BitVec 8) (tg k : BitVec 2) (i r : BitVec 9), s.run.input = .health tl tg k i r → ∃ t, exec .healthEvent s = .next t ∧
      (∀ n, s.fieldCount tl.toNat = some n → n < 62 → t.mems.mram.read (fieldBase tl.toNat + 16 + 8 * n) 8 =
          fieldEntry tg.toNat k.toNat i.toNat r.toNat (s.tileAt tl.toNat).geom.gen.toNat s.edge.hours.toNat ∧ t.mems.mram.readN (fieldBase tl.toNat + 4) 2 = n + 1) ∧
      t.tiles = s.tiles ∧ t.mems.hbm = s.mems.hbm) ∧
    (∀ tl : BitVec 8, s.run.input = .tile tl →
      exec .ffReadHallmark s = .next { s with edge := { s.edge with ffStatus := 0, ffReply := hallmarkBytes (s.tileAt tl.toNat).hallmark } } ∧
      exec .ffReadInfield s = .next { s with edge := { s.edge with ffStatus := 0, ffReply := s.mems.mram.read (fieldBase tl.toNat) 512 } }) ∧
    (∀ (tl : BitVec 8) (o : BitVec 16) (n : BitVec 11), s.run.input = .block tl o n →
      exec .ffReadHealth s = .next { s with edge := { s.edge with ffStatus := 0, ffReply := s.mems.mram.read (0xB00000 + 0x10000 * tl.toNat + o.toNat) n.toNat } }) ∧
    (∀ (d : BitVec 5) (v : Word), s.run.input = .vmarg d v → d.toNat < 24 → let i : Fin 24 := Fin.ofNat 24 d.toNat; let o := s.margin.vmarg[i]; let lim : Int := wbits o 8 8; let x := (v.setWidth 8).toInt
      (s.margin.vmctl.getLsbD 1 = true → exec .vmargWrite s = .next s) ∧
      (s.margin.vmctl.getLsbD 1 = false → ∃ t, exec .vmargWrite s = .next t ∧ t = { s with margin := { s.margin with vmarg := t.margin.vmarg }, run := { s.run with fresh := t.run.fresh } } ∧
        ((t.margin.vmarg[i]).setWidth 8).toInt = max (-lim) (min lim x) ∧ wbits t.margin.vmarg[i] 8 8 = wbits o 8 8 ∧ (lim < x ∨ x < -lim → wbit t.margin.vmarg[i] 17 = true) ∧
        (-lim ≤ x → x ≤ lim → t.run.fresh = s.run.fresh ∧ wbit t.margin.vmarg[i] 17 = (wbit o 17 && (wbit v 17 || wbit (freshBits s.run.fresh (0x860 + d.toNat)) 17))) ∧
        ∀ j : Fin 24, wbit t.margin.vmarg[j] 16 = decide (t.margin.applied[j] = t.margin.target j))) ∧
    (∀ d : BitVec 5, s.run.input = .domain d → let i : Fin 24 := Fin.ofNat 24 d.toNat; ∃ t, exec .vmargSettled s = .next t ∧ t.margin.vmarg = s.margin.vmarg.set i (wset s.margin.vmarg[i] 16) ∧
      t.margin.applied = s.margin.applied.set i (s.margin.target i) ∧ t = { s with margin := t.margin }) ∧
    (∀ p : BitVec 5, s.run.input = .port p → p.toNat < 24 → let i : Fin 24 := Fin.ofNat 24 p.toNat; let m := s.margin
      (m.lmrun[i] ≠ none → exec .linkMarginStart s = .next s) ∧
      (m.lmrun[i] = none → s.fab.up.getLsbD p.toNat = false → exec .linkMarginStart s = .next { s with margin := { m with lmerr := m.lmerr.set i 0xFFFFFFFF } }) ∧
      (m.lmrun[i] = none → s.fab.up.getLsbD p.toNat = true → exec .linkMarginStart s =
        .next { s with margin := { m with lmrun := m.lmrun.set i (some ((m.lmctl[i]).setWidth 48, s.fab.frame.toNat + 1 + max 1 (wbits m.lmctl[i] 32 16))) } })) ∧
    (∀ (p : BitVec 5) (errs bits : BitVec 32), s.run.input = .margin p errs bits → let i : Fin 24 := Fin.ofNat 24 p.toNat; let m := s.margin
      (m.lmrun[i] = none → exec .linkMarginDone s = .next s) ∧
      (m.lmrun[i] ≠ none → exec .linkMarginDone s = .next { s with margin := { m with lmrun := m.lmrun.set i none, lmerr := m.lmerr.set i (bits ++ errs) } }))

/-! ## Frames, forms, reset, worked words -/

/-- R27, R60, R154, R158: the frames of the register and vector statements. What a register syllable leaves differs from the state before in the acting thread's record and the syllable's outcome alone, and in every byte of memory not at all; the registers differ at
most in field d of the acting stream. What a W syllable leaves that writes vector d differs in memory in the 512 bytes of that vector alone, in nothing where d is vq, and no other thread, context, cluster or edge register changes. -/
def Obligations.Frames : Prop :=
  (∀ (s : State) (srcs : List (BitVec 5)) (d : BitVec 5) (v : Word), let t := s.regDone srcs d v
    OnlyThread s t ∧ SameBytes s t (fun _ => False) ∧ t.thr.flow = s.thr.flow ∧ t.thr.qs = s.thr.qs ∧ t.thr.regs.p = s.thr.regs.p ∧
      (s.slot = .c → (∀ n : Fin 32, n.val ≠ d.toNat → t.thr.regs.x[n] = s.thr.regs.x[n]) ∧ t.thr.regs.la = s.thr.regs.la ∧ t.thr.regs.wa = s.thr.regs.wa ∧ t.thr.regs.sa = s.thr.regs.sa) ∧
      (s.slot ≠ .c → t.thr.regs.x = s.thr.regs.x)) ∧
  (∀ (s : State) (k : BitVec 4) (srcs : List (BitVec 4)) (d : BitVec 4) (v : VecVal) (m : PredVal), let t := s.vecDone k srcs (fun u => u.putVec d v m)
    SameBytes s t (fun a => d ≠ 15 ∧ ∃ j < 512, a = .regs s.run.cur.tile (s.vecOff d + j)) ∧
      (d ≠ 15 → ∀ j < 512, t.byteAt (.regs s.run.cur.tile (s.vecOff d + j)) = (v >>> (8 * j)).setWidth 8) ∧
      (∀ u h, u < 130 → h < 4 → ¬ (u = s.ct ∧ h = s.ch) → t.threadAt u h = s.threadAt u h) ∧ t.thr.regs = s.thr.regs ∧ t.thr.flow = s.thr.flow ∧ t.thr.csr = s.thr.csr ∧
      t.ctxs = s.ctxs ∧ t.clusters = s.clusters ∧ t.edge = s.edge ∧ t.mems = s.mems ∧ t.fab = s.fab ∧ t.grp = s.grp)

/-- R76, R77: a scalar store and a scalar load keep every memory of the module in its canonical form, so that equal memories are equal data. That unlisted bytes read 0 is the model's choice (log entry 5). -/
def Obligations.StoresKeepForm : Prop :=
  ∀ s t : State, s.memoriesWf →
    (∀ op ∈ Claims.stores, ∀ a b o, exec (op.1 a b o) s = .next t → t.memoriesWf) ∧ (∀ op ∈ Claims.loads, ∀ d b o, exec (op.1 d b o) s = .next t → t.memoriesWf)

/-- R22 to R33: worked words of the spec, bit by bit as its tables give them, decode to the instructions they stand for. -/
def Obligations.DecodesWords : Prop :=
  decode .c 0x08318001 = some (.addi 3 3 1) ∧ decode .c 0x20907FFD = some (.beq 9 0 0x7FFD) ∧ decode .c 0x60033890 = some (.csrc 0 6 0x890) ∧ decode .c 0xA0729800 = some (.tbinit 7 5 6 0) ∧
  decode .l 0x81081620 = some (.cpin 0 2 0 1 3 0 1) ∧ decode .l 0x809F0804 = some (.vldb 0 15 4 0 2 4) ∧ decode .s 0xA128C600 = some (.cploc 4 2 1 4 3 0) ∧ decode .w 0xC3111080 = some (.vfadd 8 4 4 4 2 0 0) ∧
  decode .w 0x856B5D16 = some (.vgred 0 2 13 7 4 5 1 0) ∧ decode .w 0x87000801 = some (.mgo 0 0 1 1) ∧ decode .c 0xB3880000 = some (.xfence 3 0 4 0) ∧ decode .c 0xEA93000B = some (.winbind 9 6 11)

/-- R9, R57, R94, R103, R106, R109, R111, R115, R118, R121, R263, R380, R453, R455: what a power-on reset leaves: the boot ROM is the next event; no thread is running, no context is known, every cluster is ACTIVE with its power good and admits work; the registers have the
values that their maps give; and every memory is in its canonical form, with nothing listed in HBM and the scratchpads. The model's choices, not the spec's: that memories read 0
(log entry 5), the registers, scratchpads and accumulators that the spec gives no reset value (log entry 1), the fields that hardware sets (log entry 4), and that the boot ROM is the first event of a run (log entry 12). -/
def Obligations.ResetState : Prop :=
  let r := State.reset
  r.run.agenda = [⟨.bootRom, .none⟩] ∧ r.memoriesWf ∧ r.run.inOrder ∧ r.mems.hbm = PMem.empty ∧
  (∀ t : Fin 130, (r.tileF t).halted = false ∧ (r.tileF t).node = none ∧ (r.tileF t).spad = PMem.empty ∧ (r.tileF t).acc = vrep 64 [] ∧
    (r.tileF t).localBase = (if 128 ≤ t.val then 0x200 else 0) ∧
    ∀ h : Fin 4, let x := (r.tileF t).th[h]
      x.flow.status = .absent ∧ x.qs.tok = 0x21084210 ∧ x.csr.warn = 0 ∧ x.csr.flags = 0 ∧ x.csr.rmode = 0 ∧ x.csr.srseed = 1 ∧ x.csr.tvec = 0 ∧ x.csr.uivec = 0 ∧ x.crs = [] ∧ x.cmds = []) ∧
  (∀ c : Fin 64, (r.ctxs[c]).st = .none) ∧ (∀ c : Fin 8, (r.clusters[c]).st = 0 ∧ (r.clusters[c]).busy = false ∧ (r.clusters[c]).pgood = true ∧ (r.clusters[c]).retbase = 0) ∧
  r.disp.clen = 0xFF ∧ r.disp.packets = [] ∧ r.disp.nodes = [] ∧ (∀ d : Fin 2, (r.svc[d]).fwtimer = BitVec.allOnes 64 ∧ (r.svc[d]).wakemask = 1 ∧ (r.svc[d]).fwtvec = 0) ∧
  r.edge.owner = 0 ∧ r.edge.pwrCap = 2700 ∧ r.edge.alarmCfg = 1 ∧ r.edge.apbase = 0 ∧ r.edge.hosterr = 0 ∧ r.fab.id = 0x100000 ∧ r.fab.portA = BitVec.allOnes 64 ∧ r.grp.st = .none ∧
  r.mems.mram.readN 0xAF0000 2 = 4

/-! ## The statements that stand in several parts -/

/-- R37, R66, R67, R68: Branches and jumps: when they are taken, where to, and what they link. -/
def Obligations.BranchesAndJumps : Prop := Claims.ConditionalBranches ∧ Claims.Jumps

/-- R37, R70, R71, R73: LOOP, LOOPI and LEXIT of the C stream, and the loop-end test. -/
def Obligations.ControlStreamLoops : Prop := Claims.ControlLoops ∧ Claims.LoopEndTest

/-- R37, R76 to R78, R78: Scalar stores: the bytes stored, every other byte, misalignment, live barriers, the engine slots. -/
def Obligations.ScalarStoreRules : Prop := Claims.ScalarStores ∧ Claims.BarrierStoreViolation

/-- R104, R359, R361, R362, R377: What entry into a trap handler saves and where it goes, and what happens where no handler takes the trap. -/
def Obligations.TrapEntry : Prop := Claims.UserTrapEntry ∧ Claims.FirmwareTrapEntry ∧ Claims.TrapKillsOrHalts

/-- R37, R87, R104, R359, R361, R362: TRAP and BREAK take their exceptions, and TRET restores what was saved. -/
def Obligations.TrapReturn : Prop := Claims.TrapAndBreak ∧ Claims.ReturnFromTrap ∧ Claims.SwapIsInvolution

/-- R37, R87, R107, R252, R462: User-level interrupts and UIRET; WFI, its wake, EXIT and the end of a thread. -/
def Obligations.InterruptsAndWaits : Prop := Claims.UserInterrupts ∧ Claims.WaitAndExit

/-- R18 to R20, R36, R66, R71, R74, R410: How syllables and bundles complete, and when a bundle traps or does not issue. -/
def Obligations.SyllablesAndBundles : Prop := Claims.EngineSyllableLeaves ∧ Claims.BundleEnds ∧ Claims.ReservedBundleTraps ∧ Claims.BundleIssues

/-- Every instruction answers a next state, and the machine goes on while it has power and events. -/
def Obligations.MachineGoesOn : Prop := Claims.NoInstructionStops ∧ Claims.StepGoesOn

/-- R156 to R158, R156, R162, R165, R166, R175, R176, R177, R178: Moves, broadcasts, permutations, zips, selection, slides, VCOMPRESS and VEXPAND. -/
def Obligations.VectorPlacement : Prop := Claims.VectorMoves ∧ Claims.VectorWhole

/-- R141, R142, R148, R149, R173, R174: VRED, VGRED and VSCAN in every type, and the pairwise tree. -/
def Obligations.Reductions : Prop := Claims.IntegerReductions ∧ Claims.FloatReductions ∧ Claims.PairwiseTree

/-- R133, R134, R137, R138, R170, R171, R172: VCVT, VQUANT and VDEQUANT. -/
def Obligations.Conversions : Prop := Claims.VectorConvert ∧ Claims.BlockFormats

/-- R179 to R182, R180, R181, R186, R187, R188, R189: Vector loads, broadcasts and strided accesses. -/
def Obligations.VectorLoading : Prop := Claims.VectorLoads ∧ Claims.StridedAccess

/-- R222 to R224, R226, R230 to R233, R232, R233, R235: The acceptance of copy commands, prefetches and block commands. -/
def Obligations.CopyCommands : Prop := Claims.CopyAcceptance ∧ Claims.BlockCommands

/-- R244, R244 to R250, R247: Transaction barriers: what an update does, and the barrier instructions. -/
def Obligations.Barriers : Prop := Claims.BarrierUpdate ∧ Claims.BarrierInstructions

/-- R37, R257, R258, R259, R274, R277, R278, R280, R362: XFENCE, the other fences and PHASE. -/
def Obligations.FencesAndPhases : Prop := Claims.Fences ∧ Claims.PhaseInstruction

/-- R402, R403, R404 to R408, R459: Rounds, PROT and UNPROT. -/
def Obligations.RoundsAndRegions : Prop := Claims.RoundInstructions ∧ Claims.ProtectedRegions

/-- R224, R225, R233, R235, R267, R365, R367, R378, R415: The events of the copy engine, of remote signals and of the streams. -/
def Obligations.EngineEvents : Prop := Claims.EngineEvents

/-- R90 to R98: The commands of CLPM and their completion. -/
def Obligations.ClusterEvents : Prop := Claims.ClusterEvents

/-- R106 to R117, R123 to R126: The events at the module edges: BAR0, ownership, Firefly, limits and alarms. -/
def Obligations.EdgeEvents : Prop := Claims.EdgeEvents

/-- R114, R116, R118 to R122: Resets, the rails and the boot ROM. -/
def Obligations.ResetEvents : Prop := Claims.ResetEvents

/-- R345 to R347, R352 to R357, R368 to R372, R376, R393: Launch queues, selection, completion, pre-emption and saves. -/
def Obligations.DispatcherEvents : Prop := Claims.LaunchEvents ∧ Claims.DispatchEvents

/-- R343, R361, R363, R366, R375, R377: The commands to a context, the deathwatch and TLBINV. -/
def Obligations.ContextEvents : Prop := Claims.ContextEvents

/-- R379 to R385, R386 to R389, R457, R458, R460: Flits, frames, links, posted writes and remote loads. -/
def Obligations.FabricAndWindowEvents : Prop := Claims.FabricEvents ∧ Claims.WindowEvents

/-- R396, R400, R444 to R446: The events of a reduction slot. -/
def Obligations.ReductionEvents : Prop := Claims.ReductionEvents

/-- R212, R213, R404, R420, R427 to R433: Repair on read, deltas, votes and decisions. -/
def Obligations.RepairAndRoundEvents : Prop := Claims.RepairEvents ∧ Claims.RoundEvents

/-- R422, R423, R428, R435 to R443: The coding group: joining, heartbeats, losses, recasting, export and restore. -/
def Obligations.GroupEvents : Prop := Claims.GroupEvents

/-- R450 to R458: Health records, their reads, and margins. -/
def Obligations.HealthEvents : Prop := Claims.HealthEvents
end

