-- ==== Sys2Proof/Laws/Memory.lean ====
section
/-! SUPPORT. The laws of a byte memory: a read gives what was written, other bytes stay, every operation keeps the canonical form. -/

namespace Sys2Proof.Machine

open Host (Cell)

/-! ## What one byte reads as -/

theorem cellsAt_append (l r : List Cell) (a : Nat) (h : ∀ c ∈ l, c.1 ≠ a) : cellsAt (l ++ r) a = cellsAt r a := by
  induction l with
  | nil => rfl
  | cons c l ih =>
    simp only [List.cons_append, cellsAt]
    rw [if_neg (h c (by simp)), ih (fun d hd => h d (by simp [hd]))]

theorem cellsAt_none (l : List Cell) (a : Nat) (h : ∀ c ∈ l, c.1 ≠ a) : cellsAt l a = 0 := by
  have := cellsAt_append l [] a h
  simpa [cellsAt] using this

theorem cellsAt_append_left (l r : List Cell) (a : Nat) (h : ∀ c ∈ r, c.1 ≠ a) : cellsAt (l ++ r) a = cellsAt l a := by
  induction l with
  | nil => simpa [cellsAt] using cellsAt_none r a h
  | cons c l ih => simp only [List.cons_append, cellsAt, ih]

theorem cellsAt_filter (l : List Cell) (p : Cell → Bool) (a : Nat) (h : ∀ c : Cell, c.1 = a → p c = true) : cellsAt (l.filter p) a = cellsAt l a := by
  induction l with
  | nil => rfl
  | cons c l ih =>
    by_cases hp : p c = true
    · simp only [List.filter_cons_of_pos hp, cellsAt, ih]
    · have : c.1 ≠ a := fun e => hp (h c e)
      simp only [List.filter_cons_of_neg hp, cellsAt, ih, if_neg this]

theorem cellsOf_addr (bs : List Byte) (a : Nat) : ∀ c ∈ cellsOf a bs, a ≤ c.1 ∧ c.1 < a + bs.length := by
  induction bs generalizing a with
  | nil => intro c h; simp [cellsOf] at h
  | cons b r ih =>
    intro c h
    simp only [cellsOf] at h
    split at h
    · have := ih (a + 1) c h; simp only [List.length_cons]; omega
    · rcases List.mem_cons.1 h with rfl | h
      · simp
      · have := ih (a + 1) c h; simp only [List.length_cons]; omega

theorem cellsOf_at (bs : List Byte) (a i : Nat) (h : i < bs.length) : cellsAt (cellsOf a bs) (a + i) = bs[i] := by
  induction bs generalizing a i with
  | nil => simp at h
  | cons b r ih =>
    cases i with
    | zero =>
      simp only [cellsOf, Nat.add_zero, List.getElem_cons_zero]
      split
      · rename_i e
        rw [cellsAt_none _ _ (fun c hc => by have := (cellsOf_addr r (a + 1) c hc).1; omega), e]
      · simp [cellsAt]
    | succ i =>
      have hi : i < r.length := by simpa using h
      have e : a + (i + 1) = a + 1 + i := by omega
      simp only [cellsOf, e, List.getElem_cons_succ]
      split
      · exact ih _ _ hi
      · simp only [cellsAt]; rw [if_neg (by omega)]; exact ih _ _ hi

/-- A byte inside the written range reads as written. -/
theorem Memory.byte_write_in (m : Memory) (a i : Nat) (bs : List Byte) (h : i < bs.length) : (m.write a bs).byte (a + i) = bs[i] := by
  simp only [Memory.byte, Memory.write]
  rw [cellsAt_append _ _ _ (fun c hc => by have := (List.mem_filter.1 hc).2; simp at this; omega),
    cellsAt_append_left _ _ _ (fun c hc => by have := (List.mem_filter.1 hc).2; simp at this; omega), cellsOf_at bs a i h]

/-- A byte outside the written range reads as before. -/
theorem Memory.byte_write_out (m : Memory) (a x : Nat) (bs : List Byte) (h : x < a ∨ a + bs.length ≤ x) : (m.write a bs).byte x = m.byte x := by
  simp only [Memory.byte, Memory.write]
  rcases h with h | h
  · rw [cellsAt_append_left _ _ _ (fun c hc => ?_), cellsAt_filter _ _ _ (fun c e => by simp; omega)]
    rcases List.mem_append.1 hc with hc | hc
    · have := (cellsOf_addr bs a c hc).1; omega
    · have := (List.mem_filter.1 hc).2; simp at this; omega
  · rw [cellsAt_append _ _ _ (fun c hc => by have := (List.mem_filter.1 hc).2; simp at this; omega),
      cellsAt_append _ _ _ (fun c hc => by have := (cellsOf_addr bs a c hc).2; omega), cellsAt_filter _ _ _ (fun c e => by simp; omega)]

/-- A read is made of its bytes. -/
theorem Memory.read_eq (m : Memory) (a n : Nat) : m.read a n = (List.range n).map (fun i => m.byte (a + i)) := by
  simp only [Memory.read, Memory.byte]
  apply List.map_congr_left
  intro i hi
  have := List.mem_range.1 hi
  exact cellsAt_filter _ _ _ (fun c e => by simp; omega)

@[simp] theorem Memory.length_read (m : Memory) (a n : Nat) : (m.read a n).length = n := by simp [Memory.read]

/-- What was written is read back. -/
theorem Memory.read_write (m : Memory) (a : Nat) (bs : List Byte) : (m.write a bs).read a bs.length = bs := by
  rw [Memory.read_eq]
  apply List.ext_getElem (by simp)
  intro i h1 h2
  simp only [List.getElem_map, List.getElem_range]
  exact m.byte_write_in a i bs h2

/-- A read beside the written range gives what it gave. -/
theorem Memory.read_write_out (m : Memory) (a x n : Nat) (bs : List Byte) (h : x + n ≤ a ∨ a + bs.length ≤ x) : (m.write a bs).read x n = m.read x n := by
  rw [Memory.read_eq, Memory.read_eq]
  apply List.map_congr_left
  intro i hi
  have := List.mem_range.1 hi
  exact m.byte_write_out a (x + i) bs (by omega)

/-! ## The canonical form -/

theorem cellsWf_iff (l : List Cell) : cellsWf l = true ↔ l.Pairwise (fun a b => a.1 < b.1) ∧ ∀ c ∈ l, c.2 ≠ 0 := by
  induction l with
  | nil => simp [cellsWf]
  | cons c r ih =>
    obtain ⟨k, b⟩ := c
    cases r with
    | nil => simp [cellsWf]
    | cons d r =>
      obtain ⟨k', b'⟩ := d
      simp only [cellsWf, Bool.and_eq_true, ih, bne_iff_ne, decide_eq_true_eq]
      constructor
      · rintro ⟨⟨hb, hk⟩, hp, hz⟩
        refine ⟨List.pairwise_cons.2 ⟨fun e he => ?_, hp⟩, ?_⟩
        · rcases List.mem_cons.1 he with rfl | he
          · exact hk
          · have := (List.pairwise_cons.1 hp).1 e he
            exact Nat.lt_trans hk this
        · intro e he
          rcases List.mem_cons.1 he with rfl | he
          · exact hb
          · exact hz e he
      · rintro ⟨hp, hz⟩
        have h1 := List.pairwise_cons.1 hp
        exact ⟨⟨hz (k, b) (by simp), h1.1 (k', b') (by simp)⟩, h1.2, fun e he => hz e (List.mem_cons_of_mem _ he)⟩

theorem cellsOf_wf (bs : List Byte) (a : Nat) : (cellsOf a bs).Pairwise (fun x y => x.1 < y.1) ∧ ∀ c ∈ cellsOf a bs, c.2 ≠ 0 := by
  induction bs generalizing a with
  | nil => simp [cellsOf]
  | cons b r ih =>
    have := ih (a + 1)
    simp only [cellsOf]
    split
    · exact this
    · rename_i hb
      refine ⟨List.pairwise_cons.2 ⟨fun e he => ?_, this.1⟩, ?_⟩
      · have := (cellsOf_addr r (a + 1) e he).1; simp only; omega
      · intro e he
        rcases List.mem_cons.1 he with rfl | he
        · exact hb
        · exact this.2 e he

/-- A write keeps the canonical form. -/
theorem Memory.wf_write (m : Memory) (a : Nat) (bs : List Byte) (h : m.wf = true) : (m.write a bs).wf = true := by
  obtain ⟨hp, hz⟩ := (cellsWf_iff _).1 h
  obtain ⟨cp, cz⟩ := cellsOf_wf bs a
  refine (cellsWf_iff _).2 ⟨?_, ?_⟩
  · refine List.pairwise_append.2 ⟨hp.filter _, List.pairwise_append.2 ⟨cp, hp.filter _, ?_⟩, ?_⟩
    · intro x hx y hy
      have := (cellsOf_addr bs a x hx).2
      have := (List.mem_filter.1 hy).2
      simp at this; omega
    · intro x hx y hy
      have hx' := (List.mem_filter.1 hx).2
      simp at hx'
      rcases List.mem_append.1 hy with hy | hy
      · have := (cellsOf_addr bs a y hy).1; omega
      · have := (List.mem_filter.1 hy).2; simp at this; omega
  · intro c hc
    rcases List.mem_append.1 hc with hc | hc
    · exact hz c (List.mem_filter.1 hc).1
    · rcases List.mem_append.1 hc with hc | hc
      · exact cz c hc
      · exact hz c (List.mem_filter.1 hc).1

theorem Memory.wf_put (m : Memory) (a : Nat) (v : Byte) (h : m.wf = true) : (m.put a v).wf = true := m.wf_write a [v] h

theorem Memory.wf_writeN (m : Memory) (a n v : Nat) (h : m.wf = true) : (m.writeN a n v).wf = true := m.wf_write a _ h

theorem Memory.wf_writeCells (cs : List Cell) (m : Memory) (h : m.wf = true) : (m.writeCells cs).wf = true := by
  induction cs generalizing m with
  | nil => exact h
  | cons c r ih => exact ih _ (m.wf_put c.1 c.2 h)

/-! ## Poison lists -/

theorem rising_iff (l : List Nat) : rising l = true ↔ l.Pairwise (· < ·) := by
  induction l with
  | nil => simp [rising]
  | cons a r ih =>
    cases r with
    | nil => simp [rising]
    | cons b r =>
      simp only [rising, Bool.and_eq_true, ih, decide_eq_true_eq]
      constructor
      · rintro ⟨hab, hp⟩
        refine List.pairwise_cons.2 ⟨fun e he => ?_, hp⟩
        rcases List.mem_cons.1 he with rfl | he
        · exact hab
        · exact Nat.lt_trans hab ((List.pairwise_cons.1 hp).1 e he)
      · intro hp
        exact ⟨(List.pairwise_cons.1 hp).1 b (by simp), (List.pairwise_cons.1 hp).2⟩

theorem mem_insNat (a x : Nat) (l : List Nat) : x ∈ insNat a l ↔ x = a ∨ x ∈ l := by
  induction l with
  | nil => simp [insNat]
  | cons b r ih =>
    simp only [insNat]
    split
    · simp
    · split
      · rename_i e; subst e; simp
      · simp only [List.mem_cons, ih]; exact or_left_comm

theorem insNat_rising (a : Nat) (l : List Nat) (h : l.Pairwise (· < ·)) : (insNat a l).Pairwise (· < ·) := by
  induction l with
  | nil => simp [insNat]
  | cons b r ih =>
    obtain ⟨hb, hr⟩ := List.pairwise_cons.1 h
    simp only [insNat]
    split
    · rename_i hab
      refine List.pairwise_cons.2 ⟨fun e he => ?_, h⟩
      rcases List.mem_cons.1 he with rfl | he
      · exact hab
      · exact Nat.lt_trans hab (hb e he)
    · split
      · exact h
      · refine List.pairwise_cons.2 ⟨fun e he => ?_, ih hr⟩
        rcases (mem_insNat a e r).1 he with rfl | he
        · omega
        · exact hb e he

theorem PMem.wf_iff (m : PMem) : m.wf = true ↔ m.mem.wf = true ∧ m.poison.Pairwise (· < ·) := by
  simp [PMem.wf, rising_iff]

/-- A write keeps the form of a memory with poison. -/
theorem PMem.wf_write (m : PMem) (a : Nat) (bs : List Byte) (h : m.wf = true) : (m.write a bs).wf = true := by
  obtain ⟨h1, h2⟩ := m.wf_iff.1 h
  refine (PMem.wf_iff _).2 ⟨m.mem.wf_write a bs h1, ?_⟩
  simp only [PMem.write]
  split
  · exact List.Pairwise.nil
  · exact h2.filter _

theorem PMem.wf_writeCells (m : PMem) (cs : List Cell) (h : m.wf = true) : (m.writeCells cs).wf = true := by
  obtain ⟨h1, h2⟩ := m.wf_iff.1 h
  refine (PMem.wf_iff _).2 ⟨Memory.wf_writeCells cs m.mem h1, ?_⟩
  simp only [PMem.writeCells]
  split
  · exact List.Pairwise.nil
  · exact h2.filter _

theorem PMem.wf_taint (m : PMem) (us : List Nat) (h : m.wf = true) : (m.taint us).wf = true := by
  obtain ⟨h1, h2⟩ := m.wf_iff.1 h
  refine (PMem.wf_iff _).2 ⟨h1, ?_⟩
  simp only [PMem.taint]
  induction us with
  | nil => exact h2
  | cons u r ih => exact insNat_rising u _ ih

end Sys2Proof.Machine
end

