-- ==== Sys2Proof/Laws/State.lean ====
section
/-! SUPPORT. The small lemmas of the state's updates: what each update leaves of each field, and what is read back where it wrote. -/

namespace Sys2Proof.Machine

variable (s : State) (t u h : Nat) (f g : Tile → Tile) (k j : Thread → Thread)

/-! ## Tiles and threads are read back -/

@[simp] theorem State.tileAt_updTile_same : (s.updTile t f).tileAt t = f (s.tileAt t) := by simp [State.tileAt, State.updTile]

theorem State.tileAt_updTile_other (ne : Fin.ofNat 130 u ≠ Fin.ofNat 130 t) : (s.updTile t f).tileAt u = s.tileAt u := by
  simp only [State.tileAt, State.updTile]
  exact Vector.getElem_set_ne _ _ (by simpa [Fin.ext_iff, eq_comm] using ne)

@[simp] theorem State.updTile_updTile : (s.updTile t f).updTile t g = s.updTile t (fun x => g (f x)) := by simp [State.tileAt, State.updTile]

@[simp] theorem State.updTile_id : s.updTile t id = s := by simp [State.updTile, State.tileAt]

@[simp] theorem State.thr_modThr : (s.modThr k).thr = k s.thr := by
  simp [State.thr, State.modThr, State.threadAt, State.updThread, State.tileAt, State.updTile, Tile.updTh, State.ct, State.ch]

@[simp] theorem State.modThr_modThr : (s.modThr k).modThr j = s.modThr (fun x => j (k x)) := by
  simp [State.modThr, State.updThread, State.ct, State.ch, State.updTile, State.tileAt, Tile.updTh]

@[simp] theorem State.tile_modTile : (s.modTile f).tile = f s.tile := by simp [State.tile, State.modTile, State.ct, State.tileAt, State.updTile]

@[simp] theorem State.modTile_modTile : (s.modTile f).modTile g = s.modTile (fun x => g (f x)) := by
  simp [State.modTile, State.ct, State.tileAt, State.updTile]

theorem Thread.set_self (x : Tile) (h : Nat) : x.updTh h (fun y => y) = x := by simp [Tile.updTh]

@[simp] theorem State.modThr_id : s.modThr (fun y => y) = s := by
  simp [State.modThr, State.updThread, Thread.set_self, State.updTile, State.tileAt]

/-! ## What an update leaves alone -/

@[simp] theorem State.updTile_ctxs : (s.updTile t f).ctxs = s.ctxs := rfl
@[simp] theorem State.updTile_disp : (s.updTile t f).disp = s.disp := rfl
@[simp] theorem State.updTile_clusters : (s.updTile t f).clusters = s.clusters := rfl
@[simp] theorem State.updTile_svc : (s.updTile t f).svc = s.svc := rfl
@[simp] theorem State.updTile_edge : (s.updTile t f).edge = s.edge := rfl
@[simp] theorem State.updTile_margin : (s.updTile t f).margin = s.margin := rfl
@[simp] theorem State.updTile_fab : (s.updTile t f).fab = s.fab := rfl
@[simp] theorem State.updTile_grp : (s.updTile t f).grp = s.grp := rfl
@[simp] theorem State.updTile_mems : (s.updTile t f).mems = s.mems := rfl
@[simp] theorem State.updTile_run : (s.updTile t f).run = s.run := rfl
@[simp] theorem State.updTile_ct : (s.updTile t f).ct = s.ct := rfl
@[simp] theorem State.updTile_ch : (s.updTile t f).ch = s.ch := rfl
@[simp] theorem State.updTile_slot : (s.updTile t f).slot = s.slot := rfl
@[simp] theorem State.updTile_isFw : (s.updTile t f).isFw = s.isFw := rfl

@[simp] theorem State.updThread_ctxs : (s.updThread t h k).ctxs = s.ctxs := rfl
@[simp] theorem State.updThread_disp : (s.updThread t h k).disp = s.disp := rfl
@[simp] theorem State.updThread_clusters : (s.updThread t h k).clusters = s.clusters := rfl
@[simp] theorem State.updThread_svc : (s.updThread t h k).svc = s.svc := rfl
@[simp] theorem State.updThread_edge : (s.updThread t h k).edge = s.edge := rfl
@[simp] theorem State.updThread_margin : (s.updThread t h k).margin = s.margin := rfl
@[simp] theorem State.updThread_fab : (s.updThread t h k).fab = s.fab := rfl
@[simp] theorem State.updThread_grp : (s.updThread t h k).grp = s.grp := rfl
@[simp] theorem State.updThread_mems : (s.updThread t h k).mems = s.mems := rfl
@[simp] theorem State.updThread_run : (s.updThread t h k).run = s.run := rfl
@[simp] theorem State.updThread_ct : (s.updThread t h k).ct = s.ct := rfl
@[simp] theorem State.updThread_ch : (s.updThread t h k).ch = s.ch := rfl
@[simp] theorem State.updThread_slot : (s.updThread t h k).slot = s.slot := rfl
@[simp] theorem State.updThread_isFw : (s.updThread t h k).isFw = s.isFw := rfl

@[simp] theorem State.modTile_ctxs : (s.modTile f).ctxs = s.ctxs := rfl
@[simp] theorem State.modTile_disp : (s.modTile f).disp = s.disp := rfl
@[simp] theorem State.modTile_clusters : (s.modTile f).clusters = s.clusters := rfl
@[simp] theorem State.modTile_svc : (s.modTile f).svc = s.svc := rfl
@[simp] theorem State.modTile_edge : (s.modTile f).edge = s.edge := rfl
@[simp] theorem State.modTile_margin : (s.modTile f).margin = s.margin := rfl
@[simp] theorem State.modTile_fab : (s.modTile f).fab = s.fab := rfl
@[simp] theorem State.modTile_grp : (s.modTile f).grp = s.grp := rfl
@[simp] theorem State.modTile_mems : (s.modTile f).mems = s.mems := rfl
@[simp] theorem State.modTile_run : (s.modTile f).run = s.run := rfl
@[simp] theorem State.modTile_ct : (s.modTile f).ct = s.ct := rfl
@[simp] theorem State.modTile_ch : (s.modTile f).ch = s.ch := rfl
@[simp] theorem State.modTile_slot : (s.modTile f).slot = s.slot := rfl
@[simp] theorem State.modTile_isFw : (s.modTile f).isFw = s.isFw := rfl

@[simp] theorem State.modThr_ctxs : (s.modThr k).ctxs = s.ctxs := rfl
@[simp] theorem State.modThr_disp : (s.modThr k).disp = s.disp := rfl
@[simp] theorem State.modThr_clusters : (s.modThr k).clusters = s.clusters := rfl
@[simp] theorem State.modThr_svc : (s.modThr k).svc = s.svc := rfl
@[simp] theorem State.modThr_edge : (s.modThr k).edge = s.edge := rfl
@[simp] theorem State.modThr_margin : (s.modThr k).margin = s.margin := rfl
@[simp] theorem State.modThr_fab : (s.modThr k).fab = s.fab := rfl
@[simp] theorem State.modThr_grp : (s.modThr k).grp = s.grp := rfl
@[simp] theorem State.modThr_mems : (s.modThr k).mems = s.mems := rfl
@[simp] theorem State.modThr_run : (s.modThr k).run = s.run := rfl
@[simp] theorem State.modThr_ct : (s.modThr k).ct = s.ct := rfl
@[simp] theorem State.modThr_ch : (s.modThr k).ch = s.ch := rfl
@[simp] theorem State.modThr_slot : (s.modThr k).slot = s.slot := rfl
@[simp] theorem State.modThr_isFw : (s.modThr k).isFw = s.isFw := rfl

variable (r : SylRes) (l : List Event) (i : Instr) (a : Input)

@[simp] theorem State.setRes_tiles : (s.setRes r).tiles = s.tiles := rfl
@[simp] theorem State.setRes_ctxs : (s.setRes r).ctxs = s.ctxs := rfl
@[simp] theorem State.setRes_disp : (s.setRes r).disp = s.disp := rfl
@[simp] theorem State.setRes_clusters : (s.setRes r).clusters = s.clusters := rfl
@[simp] theorem State.setRes_svc : (s.setRes r).svc = s.svc := rfl
@[simp] theorem State.setRes_edge : (s.setRes r).edge = s.edge := rfl
@[simp] theorem State.setRes_margin : (s.setRes r).margin = s.margin := rfl
@[simp] theorem State.setRes_fab : (s.setRes r).fab = s.fab := rfl
@[simp] theorem State.setRes_grp : (s.setRes r).grp = s.grp := rfl
@[simp] theorem State.setRes_mems : (s.setRes r).mems = s.mems := rfl
@[simp] theorem State.setRes_ct : (s.setRes r).ct = s.ct := rfl
@[simp] theorem State.setRes_ch : (s.setRes r).ch = s.ch := rfl
@[simp] theorem State.setRes_slot : (s.setRes r).slot = s.slot := rfl
@[simp] theorem State.setRes_isFw : (s.setRes r).isFw = s.isFw := rfl
@[simp] theorem State.setRes_tile : (s.setRes r).tile = s.tile := rfl
@[simp] theorem State.setRes_thr : (s.setRes r).thr = s.thr := rfl
@[simp] theorem State.setRes_run_cycle : (s.setRes r).run.cycle = s.run.cycle := rfl
@[simp] theorem State.setRes_run_cur : (s.setRes r).run.cur = s.run.cur := rfl
@[simp] theorem State.setRes_run_input : (s.setRes r).run.input = s.run.input := rfl
@[simp] theorem State.setRes_run_free : (s.setRes r).run.free = s.run.free := rfl
@[simp] theorem State.setRes_run_cycle0 : (s.setRes r).run.cycle0 = s.run.cycle0 := rfl

@[simp] theorem State.pushAgenda_tiles : (s.pushAgenda l).tiles = s.tiles := rfl
@[simp] theorem State.pushAgenda_ctxs : (s.pushAgenda l).ctxs = s.ctxs := rfl
@[simp] theorem State.pushAgenda_disp : (s.pushAgenda l).disp = s.disp := rfl
@[simp] theorem State.pushAgenda_clusters : (s.pushAgenda l).clusters = s.clusters := rfl
@[simp] theorem State.pushAgenda_svc : (s.pushAgenda l).svc = s.svc := rfl
@[simp] theorem State.pushAgenda_edge : (s.pushAgenda l).edge = s.edge := rfl
@[simp] theorem State.pushAgenda_margin : (s.pushAgenda l).margin = s.margin := rfl
@[simp] theorem State.pushAgenda_fab : (s.pushAgenda l).fab = s.fab := rfl
@[simp] theorem State.pushAgenda_grp : (s.pushAgenda l).grp = s.grp := rfl
@[simp] theorem State.pushAgenda_mems : (s.pushAgenda l).mems = s.mems := rfl
@[simp] theorem State.pushAgenda_ct : (s.pushAgenda l).ct = s.ct := rfl
@[simp] theorem State.pushAgenda_ch : (s.pushAgenda l).ch = s.ch := rfl
@[simp] theorem State.pushAgenda_slot : (s.pushAgenda l).slot = s.slot := rfl
@[simp] theorem State.pushAgenda_isFw : (s.pushAgenda l).isFw = s.isFw := rfl
@[simp] theorem State.pushAgenda_tile : (s.pushAgenda l).tile = s.tile := rfl
@[simp] theorem State.pushAgenda_thr : (s.pushAgenda l).thr = s.thr := rfl
@[simp] theorem State.pushAgenda_run_cycle : (s.pushAgenda l).run.cycle = s.run.cycle := rfl
@[simp] theorem State.pushAgenda_run_cur : (s.pushAgenda l).run.cur = s.run.cur := rfl
@[simp] theorem State.pushAgenda_run_input : (s.pushAgenda l).run.input = s.run.input := rfl
@[simp] theorem State.pushAgenda_run_free : (s.pushAgenda l).run.free = s.run.free := rfl
@[simp] theorem State.pushAgenda_run_cycle0 : (s.pushAgenda l).run.cycle0 = s.run.cycle0 := rfl

@[simp] theorem State.urgent_tiles : (s.urgent i a).tiles = s.tiles := rfl
@[simp] theorem State.urgent_ctxs : (s.urgent i a).ctxs = s.ctxs := rfl
@[simp] theorem State.urgent_disp : (s.urgent i a).disp = s.disp := rfl
@[simp] theorem State.urgent_clusters : (s.urgent i a).clusters = s.clusters := rfl
@[simp] theorem State.urgent_svc : (s.urgent i a).svc = s.svc := rfl
@[simp] theorem State.urgent_edge : (s.urgent i a).edge = s.edge := rfl
@[simp] theorem State.urgent_margin : (s.urgent i a).margin = s.margin := rfl
@[simp] theorem State.urgent_fab : (s.urgent i a).fab = s.fab := rfl
@[simp] theorem State.urgent_grp : (s.urgent i a).grp = s.grp := rfl
@[simp] theorem State.urgent_mems : (s.urgent i a).mems = s.mems := rfl
@[simp] theorem State.urgent_ct : (s.urgent i a).ct = s.ct := rfl
@[simp] theorem State.urgent_ch : (s.urgent i a).ch = s.ch := rfl
@[simp] theorem State.urgent_slot : (s.urgent i a).slot = s.slot := rfl
@[simp] theorem State.urgent_isFw : (s.urgent i a).isFw = s.isFw := rfl
@[simp] theorem State.urgent_tile : (s.urgent i a).tile = s.tile := rfl
@[simp] theorem State.urgent_thr : (s.urgent i a).thr = s.thr := rfl
@[simp] theorem State.urgent_run_cycle : (s.urgent i a).run.cycle = s.run.cycle := rfl
@[simp] theorem State.urgent_run_cur : (s.urgent i a).run.cur = s.run.cur := rfl
@[simp] theorem State.urgent_run_input : (s.urgent i a).run.input = s.run.input := rfl
@[simp] theorem State.urgent_run_free : (s.urgent i a).run.free = s.run.free := rfl
@[simp] theorem State.urgent_run_cycle0 : (s.urgent i a).run.cycle0 = s.run.cycle0 := rfl

@[simp] theorem State.setRes_run_res : (s.setRes r).run.res = r := rfl
@[simp] theorem State.setRes_run_agenda : (s.setRes r).run.agenda = s.run.agenda := rfl
@[simp] theorem State.setRes_setRes (r' : SylRes) : (s.setRes r).setRes r' = s.setRes r' := rfl
@[simp] theorem State.pushAgenda_run_agenda : (s.pushAgenda l).run.agenda = s.run.agenda ++ l := rfl
@[simp] theorem State.setRes_tileAt : (s.setRes r).tileAt t = s.tileAt t := rfl
@[simp] theorem State.setRes_threadAt : (s.setRes r).threadAt t h = s.threadAt t h := rfl
@[simp] theorem State.setRes_X (n : BitVec 5) : (s.setRes r).X n = s.X n := rfl
@[simp] theorem State.setRes_A (n : BitVec 3) : (s.setRes r).A n = s.A n := rfl
@[simp] theorem State.setRes_active : (s.setRes r).active = s.active := rfl

/-! ## Warnings -/

@[simp] theorem State.warnIf_false (b : Nat) : s.warnIf false b = s := rfl
@[simp] theorem State.warnIf_true (b : Nat) : s.warnIf true b = s.setWarn b := rfl

/-! ## Registers -/

variable (n m : BitVec 5) (v : Word)

@[simp] theorem Thread.readX_zero (x : Thread) : x.readX .c 0 = 0 := rfl

@[simp] theorem Thread.writeX_zero (x : Thread) : x.writeX .c 0 v = x := rfl

theorem Thread.readX_writeX_same (x : Thread) (nz : n ≠ 0) : (x.writeX .c n v).readX .c n = v := by
  simp only [Thread.readX, Thread.writeX, if_neg nz, if_true]; simp

theorem Thread.readX_writeX_other (x : Thread) (ne : m ≠ n) : (x.writeX .c n v).readX .c m = x.readX .c m := by
  have ht : n.toNat ≠ m.toNat := fun e => ne (BitVec.eq_of_toNat_eq e).symm
  by_cases nz : n = 0
  · simp only [Thread.writeX, if_pos nz, if_true]
  · simp only [Thread.readX, Thread.writeX, if_neg nz, if_true]
    split
    · rfl
    · exact Vector.getElem_set_ne _ _ ht

end Sys2Proof.Machine
end

