-- ==== Sys2Proof/Laws/Ops.lean ====
section
/-! SUPPORT. What each shared operation of the meanings can do, said once: how a syllable ends (`finish`), the token and vector wrappers of the engine syllables, and the register forms of the control subset. -/

namespace Sys2Proof.Machine

/-! ## The end of a syllable -/

variable {s t : State} {b : State → Res}

theorem finish_ok (h : b (s.setRes .done) = .ok t) : finish s b = .next t := by simp [finish, h]

theorem finish_hold (h : b (s.setRes .done) = .error .hold) : finish s b = .next (s.setRes .held) := by simp [finish, h]

theorem finish_wait (h : b (s.setRes .done) = .error .waitIssue) : finish s b = .next (s.setRes .waitIssue) := by simp [finish, h]

theorem finish_ask {u : Nat} (h : b (s.setRes .done) = .error (.ask u)) : finish s b = .next ((s.ask u).setRes .held) := by simp [finish, h]

theorem finish_post {w : Vector Window 64} (h : b (s.setRes .done) = .error (.post w)) : finish s b = .next (s.postStore w) := by simp [finish, h, State.postStore]

theorem finish_trap {x : Trap} (h : b (s.setRes .done) = .error (.trap x)) (w : s.thr.awaits s.slot = false) : finish s b = .next (s.traps x) := by simp [finish, h, w, State.traps]

/-- A trap in the C slot while another stream must first complete: the bundle has not issued (R20, R268). -/
theorem finish_trap_waits {x : Trap} (h : b (s.setRes .done) = .error (.trap x)) (w : s.thr.awaits s.slot = true) :
    finish s b = .next (s.setRes (if s.slot = .c then .waitIssue else .held)) := by simp [finish, h, w]

/-- A syllable always answers a next state. -/
theorem finish_next (s : State) (b : State → Res) : ∃ t, finish s b = .next t := by
  unfold finish
  split
  all_goals first
    | exact ⟨_, rfl⟩
    | (split <;> exact ⟨_, rfl⟩)

/-- What a syllable can leave: what its body answers, or the state before it, marked, with a request under way, or with the trap delivered. -/
theorem finish_cases (h : finish s b = .next t) :
    b (s.setRes .done) = .ok t ∨ t = s.setRes .held ∨ t = s.setRes .waitIssue ∨ (∃ u, b (s.setRes .done) = .error (.ask u) ∧ t = (s.ask u).setRes .held) ∨
      (∃ d f k, b (s.setRes .done) = .error (.send d f k) ∧ t = (s.sendRemote d f k).setRes .held) ∨
      (∃ w, b (s.setRes .done) = .error (.post w) ∧ t = s.postStore w) ∨
      ∃ x, b (s.setRes .done) = .error (.trap x) ∧ s.thr.awaits s.slot = false ∧ t = s.traps x := by
  cases e : b (s.setRes .done) with
  | ok u =>
    rw [finish_ok e] at h
    injection h with h
    exact .inl (congrArg Except.ok h)
  | error x =>
    cases x with
    | hold =>
      rw [finish_hold e] at h
      injection h with h
      exact .inr (.inl h.symm)
    | ask u =>
      rw [finish_ask e] at h
      injection h with h
      exact .inr (.inr (.inr (.inl ⟨u, rfl, h.symm⟩)))
    | send d f k =>
      simp only [finish, e] at h
      injection h with h
      exact .inr (.inr (.inr (.inr (.inl ⟨d, f, k, rfl, h.symm⟩))))
    | post w =>
      rw [finish_post e] at h
      injection h with h
      exact .inr (.inr (.inr (.inr (.inr (.inl ⟨w, rfl, h.symm⟩)))))
    | waitIssue =>
      rw [finish_wait e] at h
      injection h with h
      exact .inr (.inr (.inl h.symm))
    | trap x =>
      cases w : s.thr.awaits s.slot with
      | false =>
        rw [finish_trap e w] at h
        injection h with h
        exact .inr (.inr (.inr (.inr (.inr (.inr ⟨x, rfl, rfl, h.symm⟩)))))
      | true =>
        rw [finish_trap_waits e w] at h
        injection h with h
        by_cases c : s.slot = .c
        · exact .inr (.inr (.inl (by simpa [c] using h.symm)))
        · exact .inr (.inl (by simpa [c] using h.symm))

/-! ## The mark of a syllable's outcome -/

@[simp] theorem State.setRes_modThr (s : State) (r : SylRes) (f : Thread → Thread) : (s.setRes r).modThr f = (s.modThr f).setRes r := rfl

theorem Thread.warned_warned (x : Thread) (c d : Bool) (b : Nat) : (x.warned c b).warned d b = x.warned (c || d) b := by
  cases c <;> cases d <;> simp [Thread.warned, wset, BitVec.or_assoc]

theorem State.warnIf_eq (s : State) (c : Bool) (b : Nat) : s.warnIf c b = s.modThr (·.warned c b) := by
  cases c <;> simp [State.warnIf, Thread.warned, State.setWarn]

@[simp] theorem Thread.warned_qs (x : Thread) (c : Bool) (b : Nat) : (x.warned c b).qs = x.qs := by cases c <;> rfl

theorem State.setRes_warnIf (s : State) (r : SylRes) (c : Bool) (b : Nat) : (s.setRes r).warnIf c b = (s.warnIf c b).setRes r := by cases c <;> rfl

theorem State.setRes_popTokens (s : State) (r : SylRes) (k : BitVec 4) : (s.setRes r).popTokens k = (s.popTokens k).setRes r := by
  simp only [State.popTokens, State.setRes_thr, State.setRes_slot, State.setRes_modThr, State.setRes_warnIf]

theorem State.setRes_pushTokens (s : State) (r : SylRes) (k : BitVec 4) : (s.setRes r).pushTokens k = (s.pushTokens k).setRes r := by
  simp only [State.pushTokens, State.setRes_thr, State.setRes_slot, State.setRes_modThr, State.setRes_warnIf]

/-- Popping tokens leaves the vector queues. -/
theorem State.popTokens_queues (s : State) (k : BitVec 4) : (s.popTokens k).thr.qs.qlw = s.thr.qs.qlw ∧ (s.popTokens k).thr.qs.qws = s.thr.qs.qws := by
  simp [State.popTokens, State.warnIf_eq]

/-! ## Engine syllables with tokens (R29, R158, R262) -/

/-- Without its pops or the room for its pushes a syllable is held. -/
theorem withTokens_held {k : BitVec 4} (h : tokReady s.thr.qs.tok s.slot k = false) : withTokens k s b = .error .hold := by simp [withTokens, h]

/-- A W syllable that pushes a token is held while its thread's nest runs (R298). -/
theorem withTokens_nest {k : BitVec 4} {n : Nest} (w : s.slot = .w) (p : (k[1] || k[0]) = true) (h : s.thr.nest = some n) : withTokens k s b = .error .hold := by
  unfold withTokens
  split
  · rfl
  · simp [w, p, h]

/-- Where it can start, its effect stands between its pops and its pushes. -/
theorem withTokens_ok {k : BitVec 4} (h : tokReady s.thr.qs.tok s.slot k = true) (n : s.slot = .w → (k[1] || k[0]) = true → s.thr.nest = none) :
    withTokens k s b = (b (s.popTokens k)).map (·.pushTokens k) := by
  have : ¬ ((s.slot = .w && (k[1] || k[0]) && s.thr.nest.isSome) = true) := by
    intro e
    simp only [Bool.and_eq_true, decide_eq_true_eq] at e
    have := n e.1.1 e.1.2
    simp [this] at e
  simp only [withTokens, h, Bool.not_true, Bool.false_eq_true, if_false, if_neg this]

/-- A vector syllable that can start leaves its result between its pops and its pushes. -/
theorem withVec_ok {k : BitVec 4} {srcs : List (BitVec 4)} {d : Option (BitVec 4)} {n : Nat} {body : State → List VecVal → State} (h : s.vecCan k srcs d n) :
    withVec k srcs d n body s = .ok ((body ((s.popTokens k).takeSrcs srcs).2 ((s.popTokens k).takeSrcs srcs).1).pushTokens k) := by
  obtain ⟨w, tk, ne, rd⟩ := h
  unfold withVec
  rw [withTokens_ok (w ▸ tk) (fun _ p => ne p)]
  have v : (s.popTokens k).vecReady srcs d n = true := by
    rw [← rd]
    simp only [State.vecReady, (s.popTokens_queues k).1, (s.popTokens_queues k).2]
  simp [v, Except.map]

/-! ## Registers and the WARN bits -/

theorem Thread.warned_writeX (x : Thread) (c : Bool) (b : Nat) (sl : Slot) (n : BitVec 5) (v : Word) : (x.warned c b).writeX sl n v = (x.writeX sl n v).warned c b := by
  cases c
  · rfl
  · simp only [Thread.warned, Thread.writeX, if_true]
    split
    · split <;> rfl
    · split <;> rfl

/-- A register form with two sources: its result, and WARN.REG where a field names no register. -/
theorem regReg_eq (d a b : BitVec 5) (f : Word → Word → Word) (s : State) : regReg d a b f (s.setRes .done) = .ok (s.regDone [a, b] d (f (s.X a) (s.X b))) := by
  simp only [regReg, State.readWarn, State.W, State.warnIf_eq, State.regDone, State.setRes_modThr, State.modThr_modThr, State.modThr_slot, State.setRes_slot, State.setRes_X]
  congr 3
  funext x
  simp only [Thread.warned_writeX, Thread.warned_warned]
  congr 1
  cases h : (s.slot != Slot.c) <;> simp [Bool.or_comm]

/-- A register form with one source. -/
theorem regOne_eq (d a : BitVec 5) (f : Word → Word) (s : State) : regOne d a f (s.setRes .done) = .ok (s.regDone [a] d (f (s.X a))) := by
  simp only [regOne, State.readWarn, State.W, State.warnIf_eq, State.regDone, State.setRes_modThr, State.modThr_modThr, State.modThr_slot, State.setRes_slot, State.setRes_X]
  congr 3
  funext x
  simp only [Thread.warned_writeX, Thread.warned_warned]
  congr 1
  cases h : (s.slot != Slot.c) <;> simp [Bool.or_comm]

end Sys2Proof.Machine
end

