-- ==== Sys2Proof/Laws/PerInstr.lean ====
section
/-! SUPPORT. The round trip of the encoding, one lemma for each constructor: what the encoder writes, the decoder reads back in every slot that admits the instruction. -/

namespace Sys2Proof.Laws.Enc

/-- The word of an instruction has 32 bits, and every slot in which the instruction is well formed decodes it to that instruction. An event stands in no slot. -/
def Statement (i : Instr) : Prop := encode i < 2 ^ 32 ∧ ∀ sl, wf sl i = true → decodeNat sl (encode i) = some i

section
set_option Elab.async false

theorem fld_eq {n : Nat} (w lo : Nat) (x : BitVec n) (h : w / 2 ^ lo % 2 ^ n = x.toNat) : fld w lo n = x := by
  apply BitVec.eq_of_toNat_eq; simp [fld, h]

theorem of_control {i : Instr} (w : Nat) (hw : encode i = w) (hl : w < 2 ^ 32) (h31 : bits w 31 1 = 0) (hd : decodeControl w = some i) : Statement i := by
  subst hw; exact ⟨hl, fun sl h => by simp [decodeNat, decodeRaw, h31, hd, h]⟩

theorem of_cPriv {i : Instr} (hk : i.kind = .cPriv) (w : Nat) (hw : encode i = w) (hl : w < 2 ^ 32) (h31 : bits w 31 1 = 1) (hd : decodeC w = some i) : Statement i := by
  subst hw
  refine ⟨hl, fun sl h => ?_⟩
  have hs : sl = .c := by cases sl <;> simp [wf, hk, Kind.admits] at h ⊢
  subst hs
  simp [decodeNat, decodeRaw, h31, hd, h]

theorem of_lPriv {i : Instr} (hk : i.kind = .lPriv) (w : Nat) (hw : encode i = w) (hl : w < 2 ^ 32) (h31 : bits w 31 1 = 1) (hd : decodeL w = some i) : Statement i := by
  subst hw
  refine ⟨hl, fun sl h => ?_⟩
  have hs : sl = .l := by cases sl <;> simp [wf, hk, Kind.admits] at h ⊢
  subst hs
  simp [decodeNat, decodeRaw, h31, hd, h]

theorem of_wPriv {i : Instr} (hk : i.kind = .wPriv) (w : Nat) (hw : encode i = w) (hl : w < 2 ^ 32) (h31 : bits w 31 1 = 1) (hd : decodeW w = some i) : Statement i := by
  subst hw
  refine ⟨hl, fun sl h => ?_⟩
  have hs : sl = .w := by cases sl <;> simp [wf, hk, Kind.admits] at h ⊢
  subst hs
  simp [decodeNat, decodeRaw, h31, hd, h]

theorem of_sPriv {i : Instr} (hk : i.kind = .sPriv) (w : Nat) (hw : encode i = w) (hl : w < 2 ^ 32) (h31 : bits w 31 1 = 1) (hd : decodeS w = some i) : Statement i := by
  subst hw
  refine ⟨hl, fun sl h => ?_⟩
  have hs : sl = .s := by cases sl <;> simp [wf, hk, Kind.admits] at h ⊢
  subst hs
  simp [decodeNat, decodeRaw, h31, hd, h]

theorem of_event {i : Instr} (hk : i.kind = .event) (hw : encode i = 0xFFFFFFFF) : Statement i :=
  ⟨by simp [hw], fun sl h => by cases sl <;> simp [wf, hk, Kind.admits] at h⟩

theorem control_0 {w : Nat} (h : bits w 25 6 = 0) : decodeControl w =
    (if bits w 0 25 == 0 then some .nop else
     none) := by
  simp only [decodeControl, h]

theorem control_1 {w : Nat} (h : bits w 25 6 = 1) : decodeControl w =
    (if bits w 0 10 == 0 then some (.add (fld w 20 5) (fld w 15 5) (fld w 10 5)) else
     if bits w 0 10 == 1 then some (.sub (fld w 20 5) (fld w 15 5) (fld w 10 5)) else
     if bits w 0 10 == 2 then some (.andReg (fld w 20 5) (fld w 15 5) (fld w 10 5)) else
     if bits w 0 10 == 3 then some (.orReg (fld w 20 5) (fld w 15 5) (fld w 10 5)) else
     if bits w 0 10 == 4 then some (.xorReg (fld w 20 5) (fld w 15 5) (fld w 10 5)) else
     if bits w 0 10 == 5 then some (.shl (fld w 20 5) (fld w 15 5) (fld w 10 5)) else
     if bits w 0 10 == 6 then some (.shr (fld w 20 5) (fld w 15 5) (fld w 10 5)) else
     if bits w 0 10 == 7 then some (.sar (fld w 20 5) (fld w 15 5) (fld w 10 5)) else
     if bits w 0 10 == 8 then some (.slt (fld w 20 5) (fld w 15 5) (fld w 10 5)) else
     if bits w 0 10 == 9 then some (.sltn (fld w 20 5) (fld w 15 5) (fld w 10 5)) else
     if bits w 0 10 == 10 then some (.minReg (fld w 20 5) (fld w 15 5) (fld w 10 5)) else
     if bits w 0 10 == 11 then some (.maxReg (fld w 20 5) (fld w 15 5) (fld w 10 5)) else
     if bits w 0 10 == 12 then some (.minn (fld w 20 5) (fld w 15 5) (fld w 10 5)) else
     if bits w 0 10 == 13 then some (.maxn (fld w 20 5) (fld w 15 5) (fld w 10 5)) else
     if bits w 0 10 == 14 then some (.andn (fld w 20 5) (fld w 15 5) (fld w 10 5)) else
     none) := by
  simp only [decodeControl, h]

theorem control_2 {w : Nat} (h : bits w 25 6 = 2) : decodeControl w =
    (if bits w 0 10 == 0 then some (.mul (fld w 20 5) (fld w 15 5) (fld w 10 5)) else
     if bits w 0 10 == 1 then some (.mulh (fld w 20 5) (fld w 15 5) (fld w 10 5)) else
     if bits w 0 10 == 2 then some (.mulhn (fld w 20 5) (fld w 15 5) (fld w 10 5)) else
     if bits w 0 10 == 3 then some (.div (fld w 20 5) (fld w 15 5) (fld w 10 5)) else
     if bits w 0 10 == 4 then some (.divn (fld w 20 5) (fld w 15 5) (fld w 10 5)) else
     if bits w 0 10 == 5 then some (.rem (fld w 20 5) (fld w 15 5) (fld w 10 5)) else
     if bits w 0 10 == 6 then some (.remn (fld w 20 5) (fld w 15 5) (fld w 10 5)) else
     none) := by
  simp only [decodeControl, h]

theorem control_3 {w : Nat} (h : bits w 25 6 = 3) : decodeControl w =
    (if bits w 0 15 == 0 then some (.clz (fld w 20 5) (fld w 15 5)) else
     if bits w 0 15 == 1024 then some (.ctz (fld w 20 5) (fld w 15 5)) else
     if bits w 0 15 == 2048 then some (.popc (fld w 20 5) (fld w 15 5)) else
     if bits w 0 15 == 3072 then some (.brev (fld w 20 5) (fld w 15 5)) else
     if bits w 10 5 == 4 then some (.bext (fld w 20 5) (fld w 15 5) (fld w 4 6) (fld w 0 4)) else
     none) := by
  simp only [decodeControl, h]

theorem control_4 {w : Nat} (h : bits w 25 6 = 4) : decodeControl w =
    (some (.addi (fld w 20 5) (fld w 15 5) (fld w 0 15))) := by
  simp only [decodeControl, h]

theorem control_5 {w : Nat} (h : bits w 25 6 = 5) : decodeControl w =
    (some (.andi (fld w 20 5) (fld w 15 5) (fld w 0 15))) := by
  simp only [decodeControl, h]

theorem control_6 {w : Nat} (h : bits w 25 6 = 6) : decodeControl w =
    (some (.ori (fld w 20 5) (fld w 15 5) (fld w 0 15))) := by
  simp only [decodeControl, h]

theorem control_7 {w : Nat} (h : bits w 25 6 = 7) : decodeControl w =
    (some (.xori (fld w 20 5) (fld w 15 5) (fld w 0 15))) := by
  simp only [decodeControl, h]

theorem control_8 {w : Nat} (h : bits w 25 6 = 8) : decodeControl w =
    (if bits w 6 9 == 0 then some (.shli (fld w 20 5) (fld w 15 5) (fld w 0 6)) else
     if bits w 6 9 == 1 then some (.shri (fld w 20 5) (fld w 15 5) (fld w 0 6)) else
     if bits w 6 9 == 2 then some (.sari (fld w 20 5) (fld w 15 5) (fld w 0 6)) else
     none) := by
  simp only [decodeControl, h]

theorem control_9 {w : Nat} (h : bits w 25 6 = 9) : decodeControl w =
    (some (.slti (fld w 20 5) (fld w 15 5) (fld w 0 15))) := by
  simp only [decodeControl, h]

theorem control_10 {w : Nat} (h : bits w 25 6 = 10) : decodeControl w =
    (some (.sltin (fld w 20 5) (fld w 15 5) (fld w 0 15))) := by
  simp only [decodeControl, h]

theorem control_11 {w : Nat} (h : bits w 25 6 = 11) : decodeControl w =
    (some (.lih (fld w 20 5) (fld w 0 20))) := by
  simp only [decodeControl, h]

theorem control_12 {w : Nat} (h : bits w 25 6 = 12) : decodeControl w =
    (some (.lix (fld w 20 5) (fld w 0 20))) := by
  simp only [decodeControl, h]

theorem control_16 {w : Nat} (h : bits w 25 6 = 16) : decodeControl w =
    (some (.beq (fld w 20 5) (fld w 15 5) (fld w 0 15))) := by
  simp only [decodeControl, h]

theorem control_17 {w : Nat} (h : bits w 25 6 = 17) : decodeControl w =
    (some (.bne (fld w 20 5) (fld w 15 5) (fld w 0 15))) := by
  simp only [decodeControl, h]

theorem control_18 {w : Nat} (h : bits w 25 6 = 18) : decodeControl w =
    (some (.blt (fld w 20 5) (fld w 15 5) (fld w 0 15))) := by
  simp only [decodeControl, h]

theorem control_19 {w : Nat} (h : bits w 25 6 = 19) : decodeControl w =
    (some (.bge (fld w 20 5) (fld w 15 5) (fld w 0 15))) := by
  simp only [decodeControl, h]

theorem control_20 {w : Nat} (h : bits w 25 6 = 20) : decodeControl w =
    (some (.bltn (fld w 20 5) (fld w 15 5) (fld w 0 15))) := by
  simp only [decodeControl, h]

theorem control_21 {w : Nat} (h : bits w 25 6 = 21) : decodeControl w =
    (some (.bgen (fld w 20 5) (fld w 15 5) (fld w 0 15))) := by
  simp only [decodeControl, h]

theorem control_22 {w : Nat} (h : bits w 25 6 = 22) : decodeControl w =
    (some (.jal (fld w 20 5) (fld w 0 20))) := by
  simp only [decodeControl, h]

theorem control_23 {w : Nat} (h : bits w 25 6 = 23) : decodeControl w =
    (some (.jalr (fld w 20 5) (fld w 15 5) (fld w 0 15))) := by
  simp only [decodeControl, h]

theorem control_24 {w : Nat} (h : bits w 25 6 = 24) : decodeControl w =
    (if bits w 0 5 == 0 && bits w 20 5 == 0 then some (.loopReg (fld w 15 5) (fld w 5 10)) else
     none) := by
  simp only [decodeControl, h]

theorem control_25 {w : Nat} (h : bits w 25 6 = 25) : decodeControl w =
    (some (.loopImm (fld w 10 15) (fld w 0 10))) := by
  simp only [decodeControl, h]

theorem control_26 {w : Nat} (h : bits w 25 6 = 26) : decodeControl w =
    (if bits w 0 25 == 0 then some .lexit else
     none) := by
  simp only [decodeControl, h]

theorem control_32 {w : Nat} (h : bits w 25 6 = 32) : decodeControl w =
    (some (.ldb (fld w 20 5) (fld w 15 5) (fld w 0 15))) := by
  simp only [decodeControl, h]

theorem control_33 {w : Nat} (h : bits w 25 6 = 33) : decodeControl w =
    (some (.ldbz (fld w 20 5) (fld w 15 5) (fld w 0 15))) := by
  simp only [decodeControl, h]

theorem control_34 {w : Nat} (h : bits w 25 6 = 34) : decodeControl w =
    (some (.ldh (fld w 20 5) (fld w 15 5) (fld w 0 15))) := by
  simp only [decodeControl, h]

theorem control_35 {w : Nat} (h : bits w 25 6 = 35) : decodeControl w =
    (some (.ldhz (fld w 20 5) (fld w 15 5) (fld w 0 15))) := by
  simp only [decodeControl, h]

theorem control_36 {w : Nat} (h : bits w 25 6 = 36) : decodeControl w =
    (some (.ldw (fld w 20 5) (fld w 15 5) (fld w 0 15))) := by
  simp only [decodeControl, h]

theorem control_37 {w : Nat} (h : bits w 25 6 = 37) : decodeControl w =
    (some (.ldwz (fld w 20 5) (fld w 15 5) (fld w 0 15))) := by
  simp only [decodeControl, h]

theorem control_38 {w : Nat} (h : bits w 25 6 = 38) : decodeControl w =
    (some (.ldd (fld w 20 5) (fld w 15 5) (fld w 0 15))) := by
  simp only [decodeControl, h]

theorem control_40 {w : Nat} (h : bits w 25 6 = 40) : decodeControl w =
    (some (.stb (fld w 20 5) (fld w 15 5) (fld w 0 15))) := by
  simp only [decodeControl, h]

theorem control_41 {w : Nat} (h : bits w 25 6 = 41) : decodeControl w =
    (some (.sth (fld w 20 5) (fld w 15 5) (fld w 0 15))) := by
  simp only [decodeControl, h]

theorem control_42 {w : Nat} (h : bits w 25 6 = 42) : decodeControl w =
    (some (.stw (fld w 20 5) (fld w 15 5) (fld w 0 15))) := by
  simp only [decodeControl, h]

theorem control_43 {w : Nat} (h : bits w 25 6 = 43) : decodeControl w =
    (some (.std (fld w 20 5) (fld w 15 5) (fld w 0 15))) := by
  simp only [decodeControl, h]

theorem control_44 {w : Nat} (h : bits w 25 6 = 44) : decodeControl w =
    (if bits w 0 15 == 0 && bits w 20 5 == 0 then some (.qpush (fld w 15 5)) else
     none) := by
  simp only [decodeControl, h]

theorem control_45 {w : Nat} (h : bits w 25 6 = 45) : decodeControl w =
    (if bits w 0 20 == 0 then some (.qpop (fld w 20 5)) else
     none) := by
  simp only [decodeControl, h]

theorem control_48 {w : Nat} (h : bits w 25 6 = 48) : decodeControl w =
    (if bits w 12 8 == 0 then some (.csrr (fld w 20 5) (fld w 0 12)) else
     if bits w 12 3 == 1 then some (.csrw (fld w 20 5) (fld w 15 5) (fld w 0 12)) else
     if bits w 12 3 == 2 then some (.csrs (fld w 20 5) (fld w 15 5) (fld w 0 12)) else
     if bits w 12 3 == 3 then some (.csrc (fld w 20 5) (fld w 15 5) (fld w 0 12)) else
     none) := by
  simp only [decodeControl, h]

theorem control_49 {w : Nat} (h : bits w 25 6 = 49) : decodeControl w =
    (if bits w 0 10 == 0 then some (.userTrap (fld w 10 15)) else
     if bits w 0 25 == 1 then some .tret else
     if bits w 0 25 == 2 then some .uiret else
     if bits w 0 25 == 3 then some .wfi else
     if bits w 0 10 == 4 then some (.breakpt (fld w 10 15)) else
     if bits w 0 25 == 5 then some .exitThread else
     none) := by
  simp only [decodeControl, h]

theorem cPriv_0 {w : Nat} (h : bits w 25 6 = 0) : decodeC w =
    (if bits w 0 1 == 0 && bits w 2 1 == 0 then some (.amadd (fld w 23 2) (fld w 20 3) (fld w 15 5) (fld w 10 5) (fld w 5 5) (fld w 3 2) (fld w 1 1)) else
     none) := by
  simp only [decodeC, h]

theorem cPriv_1 {w : Nat} (h : bits w 25 6 = 1) : decodeC w =
    (if bits w 0 1 == 0 && bits w 2 1 == 0 then some (.ammin (fld w 23 2) (fld w 20 3) (fld w 15 5) (fld w 10 5) (fld w 5 5) (fld w 3 2) (fld w 1 1)) else
     if bits w 0 1 == 0 && bits w 2 1 == 1 then some (.amminn (fld w 23 2) (fld w 20 3) (fld w 15 5) (fld w 10 5) (fld w 5 5) (fld w 3 2) (fld w 1 1)) else
     none) := by
  simp only [decodeC, h]

theorem cPriv_2 {w : Nat} (h : bits w 25 6 = 2) : decodeC w =
    (if bits w 0 1 == 0 && bits w 2 1 == 0 then some (.ammax (fld w 23 2) (fld w 20 3) (fld w 15 5) (fld w 10 5) (fld w 5 5) (fld w 3 2) (fld w 1 1)) else
     if bits w 0 1 == 0 && bits w 2 1 == 1 then some (.ammaxn (fld w 23 2) (fld w 20 3) (fld w 15 5) (fld w 10 5) (fld w 5 5) (fld w 3 2) (fld w 1 1)) else
     none) := by
  simp only [decodeC, h]

theorem cPriv_3 {w : Nat} (h : bits w 25 6 = 3) : decodeC w =
    (if bits w 0 1 == 0 && bits w 2 1 == 0 then some (.amand (fld w 23 2) (fld w 20 3) (fld w 15 5) (fld w 10 5) (fld w 5 5) (fld w 3 2) (fld w 1 1)) else
     none) := by
  simp only [decodeC, h]

theorem cPriv_4 {w : Nat} (h : bits w 25 6 = 4) : decodeC w =
    (if bits w 0 1 == 0 && bits w 2 1 == 0 then some (.amor (fld w 23 2) (fld w 20 3) (fld w 15 5) (fld w 10 5) (fld w 5 5) (fld w 3 2) (fld w 1 1)) else
     none) := by
  simp only [decodeC, h]

theorem cPriv_5 {w : Nat} (h : bits w 25 6 = 5) : decodeC w =
    (if bits w 0 1 == 0 && bits w 2 1 == 0 then some (.amxor (fld w 23 2) (fld w 20 3) (fld w 15 5) (fld w 10 5) (fld w 5 5) (fld w 3 2) (fld w 1 1)) else
     none) := by
  simp only [decodeC, h]

theorem cPriv_6 {w : Nat} (h : bits w 25 6 = 6) : decodeC w =
    (if bits w 0 1 == 0 && bits w 2 1 == 0 then some (.amswap (fld w 23 2) (fld w 20 3) (fld w 15 5) (fld w 10 5) (fld w 5 5) (fld w 3 2) (fld w 1 1)) else
     none) := by
  simp only [decodeC, h]

theorem cPriv_7 {w : Nat} (h : bits w 25 6 = 7) : decodeC w =
    (if bits w 0 1 == 0 && bits w 2 1 == 0 then some (.amcas (fld w 23 2) (fld w 20 3) (fld w 15 5) (fld w 10 5) (fld w 5 5) (fld w 3 2) (fld w 1 1)) else
     none) := by
  simp only [decodeC, h]

theorem cPriv_8 {w : Nat} (h : bits w 25 6 = 8) : decodeC w =
    (if bits w 0 1 == 0 && bits w 2 1 == 0 then some (.amfaddc (fld w 23 2) (fld w 20 3) (fld w 15 5) (fld w 10 5) (fld w 5 5) (fld w 3 2) (fld w 1 1)) else
     none) := by
  simp only [decodeC, h]

theorem cPriv_9 {w : Nat} (h : bits w 25 6 = 9) : decodeC w =
    (if bits w 0 1 == 0 && bits w 2 1 == 0 then some (.amldc (fld w 23 2) (fld w 20 3) (fld w 15 5) (fld w 10 5) (fld w 5 5) (fld w 3 2) (fld w 1 1)) else
     none) := by
  simp only [decodeC, h]

theorem cPriv_10 {w : Nat} (h : bits w 25 6 = 10) : decodeC w =
    (if bits w 0 1 == 0 && bits w 2 1 == 0 then some (.amld (fld w 23 2) (fld w 20 3) (fld w 15 5) (fld w 10 5) (fld w 5 5) (fld w 3 2) (fld w 1 1)) else
     none) := by
  simp only [decodeC, h]

theorem cPriv_11 {w : Nat} (h : bits w 25 6 = 11) : decodeC w =
    (if bits w 0 1 == 0 && bits w 2 1 == 0 && bits w 15 5 == 0 then some (.amst (fld w 23 2) (fld w 20 3) (fld w 10 5) (fld w 5 5) (fld w 3 2) (fld w 1 1)) else
     none) := by
  simp only [decodeC, h]

theorem cPriv_16 {w : Nat} (h : bits w 25 6 = 16) : decodeC w =
    (if bits w 1 9 == 0 then some (.tbinit (fld w 20 5) (fld w 15 5) (fld w 10 5) (fld w 0 1)) else
     none) := by
  simp only [decodeC, h]

theorem cPriv_17 {w : Nat} (h : bits w 25 6 = 17) : decodeC w =
    (if bits w 0 15 == 0 then some (.tbjoin (fld w 20 5) (fld w 15 5)) else
     none) := by
  simp only [decodeC, h]

theorem cPriv_18 {w : Nat} (h : bits w 25 6 = 18) : decodeC w =
    (if bits w 0 10 == 0 then some (.tbarrive (fld w 20 5) (fld w 15 5) (fld w 10 5)) else
     none) := by
  simp only [decodeC, h]

theorem cPriv_19 {w : Nat} (h : bits w 25 6 = 19) : decodeC w =
    (if bits w 0 10 == 0 && bits w 20 5 == 0 then some (.tbexpect (fld w 15 5) (fld w 10 5)) else
     none) := by
  simp only [decodeC, h]

theorem cPriv_20 {w : Nat} (h : bits w 25 6 = 20) : decodeC w =
    (if bits w 0 10 == 0 then some (.tbwait (fld w 20 5) (fld w 15 5) (fld w 10 5)) else
     none) := by
  simp only [decodeC, h]

theorem cPriv_21 {w : Nat} (h : bits w 25 6 = 21) : decodeC w =
    (if bits w 0 15 == 0 && bits w 20 5 == 0 then some (.tbdrop (fld w 15 5)) else
     none) := by
  simp only [decodeC, h]

theorem cPriv_22 {w : Nat} (h : bits w 25 6 = 22) : decodeC w =
    (if bits w 1 14 == 0 then some (.tbpoll (fld w 20 5) (fld w 15 5) (fld w 0 1)) else
     none) := by
  simp only [decodeC, h]

theorem cPriv_24 {w : Nat} (h : bits w 25 6 = 24) : decodeC w =
    (if bits w 0 20 == 0 then some (.fence (fld w 23 2) (fld w 20 3)) else
     none) := by
  simp only [decodeC, h]

theorem cPriv_25 {w : Nat} (h : bits w 25 6 = 25) : decodeC w =
    (if bits w 0 14 == 0 then some (.xfence (fld w 23 2) (fld w 20 3) (fld w 17 3) (fld w 14 3)) else
     none) := by
  simp only [decodeC, h]

theorem cPriv_26 {w : Nat} (h : bits w 25 6 = 26) : decodeC w =
    (if bits w 0 15 == 0 && bits w 23 2 == 3 then some (.phase (fld w 20 3) (fld w 15 5)) else
     none) := by
  simp only [decodeC, h]

theorem cPriv_32 {w : Nat} (h : bits w 25 6 = 32) : decodeC w =
    (if bits w 0 5 == 0 && bits w 20 5 == 0 then some (.shuf (fld w 15 5) (fld w 10 5) (fld w 5 5)) else
     none) := by
  simp only [decodeC, h]

theorem cPriv_36 {w : Nat} (h : bits w 25 6 = 36) : decodeC w =
    (if bits w 0 15 == 0 && bits w 20 5 == 0 then some (.segbegin (fld w 15 5)) else
     none) := by
  simp only [decodeC, h]

theorem cPriv_37 {w : Nat} (h : bits w 25 6 = 37) : decodeC w =
    (if bits w 0 10 == 0 then some (.segend (fld w 20 5) (fld w 15 5) (fld w 10 5)) else
     none) := by
  simp only [decodeC, h]

theorem cPriv_38 {w : Nat} (h : bits w 25 6 = 38) : decodeC w =
    (if bits w 0 15 == 0 then some (.cropen (fld w 20 5) (fld w 15 5)) else
     none) := by
  simp only [decodeC, h]

theorem cPriv_39 {w : Nat} (h : bits w 25 6 = 39) : decodeC w =
    (if bits w 0 20 == 0 then some (.crclose (fld w 20 5)) else
     none) := by
  simp only [decodeC, h]

theorem cPriv_40 {w : Nat} (h : bits w 25 6 = 40) : decodeC w =
    (if bits w 6 4 == 0 then some (.prot (fld w 20 5) (fld w 15 5) (fld w 10 5) (fld w 0 6)) else
     none) := by
  simp only [decodeC, h]

theorem cPriv_41 {w : Nat} (h : bits w 25 6 = 41) : decodeC w =
    (if bits w 6 19 == 0 then some (.unprot (fld w 0 6)) else
     none) := by
  simp only [decodeC, h]

theorem cPriv_42 {w : Nat} (h : bits w 25 6 = 42) : decodeC w =
    (if bits w 0 20 == 0 then some (.rndprep (fld w 20 5)) else
     none) := by
  simp only [decodeC, h]

theorem cPriv_43 {w : Nat} (h : bits w 25 6 = 43) : decodeC w =
    (if bits w 0 20 == 0 then some (.rndcommit (fld w 20 5)) else
     none) := by
  simp only [decodeC, h]

theorem cPriv_44 {w : Nat} (h : bits w 25 6 = 44) : decodeC w =
    (if bits w 0 20 == 0 then some (.rndabort (fld w 20 5)) else
     none) := by
  simp only [decodeC, h]

theorem cPriv_45 {w : Nat} (h : bits w 25 6 = 45) : decodeC w =
    (if bits w 1 19 == 0 then some (.rndstat (fld w 20 5) (fld w 0 1)) else
     none) := by
  simp only [decodeC, h]

theorem cPriv_48 {w : Nat} (h : bits w 25 6 = 48) : decodeC w =
    (if bits w 0 10 == 0 then some (.rslot (fld w 20 5) (fld w 15 5) (fld w 10 5)) else
     none) := by
  simp only [decodeC, h]

theorem cPriv_49 {w : Nat} (h : bits w 25 6 = 49) : decodeC w =
    (if bits w 0 10 == 0 then some (.rred (fld w 20 5) (fld w 15 5) (fld w 10 5)) else
     none) := by
  simp only [decodeC, h]

theorem cPriv_50 {w : Nat} (h : bits w 25 6 = 50) : decodeC w =
    (if bits w 0 10 == 0 then some (.rwait (fld w 20 5) (fld w 15 5) (fld w 10 5)) else
     none) := by
  simp only [decodeC, h]

theorem cPriv_51 {w : Nat} (h : bits w 25 6 = 51) : decodeC w =
    (if bits w 0 15 == 0 && bits w 20 5 == 0 then some (.rfree (fld w 15 5)) else
     none) := by
  simp only [decodeC, h]

theorem cPriv_52 {w : Nat} (h : bits w 25 6 = 52) : decodeC w =
    (if bits w 0 10 == 0 then some (.launch (fld w 20 5) (fld w 15 5) (fld w 10 5)) else
     none) := by
  simp only [decodeC, h]

theorem cPriv_53 {w : Nat} (h : bits w 25 6 = 53) : decodeC w =
    (if bits w 6 9 == 0 then some (.winbind (fld w 20 5) (fld w 15 5) (fld w 0 6)) else
     if bits w 6 14 == 1 then some (.winbindUnbind (fld w 20 5) (fld w 0 6)) else
     none) := by
  simp only [decodeC, h]

theorem lPriv_0 {w : Nat} (h : bits w 21 6 = 0) : decodeL w =
    (some (.vld (fld w 27 4) (fld w 17 4) (fld w 14 3) (fld w 12 2) (fld w 0 12))) := by
  simp only [decodeL, h]

theorem lPriv_1 {w : Nat} (h : bits w 21 6 = 1) : decodeL w =
    (some (.vldu (fld w 27 4) (fld w 17 4) (fld w 14 3) (fld w 12 2) (fld w 0 12))) := by
  simp only [decodeL, h]

theorem lPriv_2 {w : Nat} (h : bits w 21 6 = 2) : decodeL w =
    (if bits w 0 7 == 0 then some (.vlds (fld w 27 4) (fld w 17 4) (fld w 14 3) (fld w 11 3) (fld w 9 2) (fld w 7 2)) else
     none) := by
  simp only [decodeL, h]

theorem lPriv_4 {w : Nat} (h : bits w 21 6 = 4) : decodeL w =
    (some (.vldb (fld w 27 4) (fld w 17 4) (fld w 14 3) (fld w 12 2) (fld w 10 2) (fld w 0 10))) := by
  simp only [decodeL, h]

theorem lPriv_5 {w : Nat} (h : bits w 21 6 = 5) : decodeL w =
    (if bits w 17 4 == 0 then some (.sldq (fld w 27 4) (fld w 14 3) (fld w 12 2) (fld w 10 2) (fld w 9 1) (fld w 0 9)) else
     none) := by
  simp only [decodeL, h]

theorem lPriv_8 {w : Nat} (h : bits w 21 6 = 8) : decodeL w =
    (if bits w 0 5 == 0 && bits w 6 2 == 0 then some (.cpin (fld w 27 4) (fld w 18 3) (fld w 15 3) (fld w 12 3) (fld w 9 3) (fld w 8 1) (fld w 5 1)) else
     none) := by
  simp only [decodeL, h]

theorem lPriv_9 {w : Nat} (h : bits w 21 6 = 9) : decodeL w =
    (if bits w 0 5 == 0 && bits w 6 1 == 0 && bits w 8 1 == 0 then some (.cpinb (fld w 27 4) (fld w 18 3) (fld w 15 3) (fld w 12 3) (fld w 9 3) (fld w 7 1) (fld w 5 1)) else
     none) := by
  simp only [decodeL, h]

theorem lPriv_10 {w : Nat} (h : bits w 21 6 = 10) : decodeL w =
    (if bits w 0 5 == 0 && bits w 8 1 == 0 && bits w 12 3 == 0 then some (.gather (fld w 27 4) (fld w 18 3) (fld w 15 3) (fld w 9 3) (fld w 6 2) (fld w 5 1)) else
     none) := by
  simp only [decodeL, h]

theorem lPriv_11 {w : Nat} (h : bits w 21 6 = 11) : decodeL w =
    (if bits w 0 7 == 0 && bits w 9 6 == 0 && bits w 18 3 == 0 then some (.wrset (fld w 27 4) (fld w 15 3) (fld w 7 2)) else
     none) := by
  simp only [decodeL, h]

theorem lPriv_12 {w : Nat} (h : bits w 21 6 = 12) : decodeL w =
    (if bits w 0 7 == 0 && bits w 9 2 == 0 then some (.wradv (fld w 27 4) (fld w 11 10) (fld w 7 2)) else
     none) := by
  simp only [decodeL, h]

theorem lPriv_13 {w : Nat} (h : bits w 21 6 = 13) : decodeL w =
    (if bits w 18 3 == 0 then some (.pref (fld w 27 4) (fld w 15 3) (fld w 11 4) (fld w 9 2) (fld w 0 9)) else
     none) := by
  simp only [decodeL, h]

theorem wPriv_0 {w : Nat} (h : bits w 21 6 = 0) : decodeW w =
    (if bits w 0 2 == 0 then some (.vadd (fld w 27 4) (fld w 18 3) (fld w 14 4) (fld w 10 4) (fld w 6 4) (fld w 2 4)) else
     none) := by
  simp only [decodeW, h]

theorem wPriv_1 {w : Nat} (h : bits w 21 6 = 1) : decodeW w =
    (if bits w 0 2 == 0 then some (.vsub (fld w 27 4) (fld w 18 3) (fld w 14 4) (fld w 10 4) (fld w 6 4) (fld w 2 4)) else
     none) := by
  simp only [decodeW, h]

theorem wPriv_2 {w : Nat} (h : bits w 21 6 = 2) : decodeW w =
    (if bits w 0 2 == 0 then some (.vmul (fld w 27 4) (fld w 18 3) (fld w 14 4) (fld w 10 4) (fld w 6 4) (fld w 2 4)) else
     none) := by
  simp only [decodeW, h]

theorem wPriv_3 {w : Nat} (h : bits w 21 6 = 3) : decodeW w =
    (if bits w 0 2 == 0 then some (.vmulh (fld w 27 4) (fld w 18 3) (fld w 14 4) (fld w 10 4) (fld w 6 4) (fld w 2 4)) else
     if bits w 0 2 == 1 then some (.vmulhn (fld w 27 4) (fld w 18 3) (fld w 14 4) (fld w 10 4) (fld w 6 4) (fld w 2 4)) else
     none) := by
  simp only [decodeW, h]

theorem wPriv_4 {w : Nat} (h : bits w 21 6 = 4) : decodeW w =
    (if bits w 0 2 == 0 then some (.vmin (fld w 27 4) (fld w 18 3) (fld w 14 4) (fld w 10 4) (fld w 6 4) (fld w 2 4)) else
     if bits w 0 2 == 1 then some (.vminn (fld w 27 4) (fld w 18 3) (fld w 14 4) (fld w 10 4) (fld w 6 4) (fld w 2 4)) else
     none) := by
  simp only [decodeW, h]

theorem wPriv_5 {w : Nat} (h : bits w 21 6 = 5) : decodeW w =
    (if bits w 0 2 == 0 then some (.vmax (fld w 27 4) (fld w 18 3) (fld w 14 4) (fld w 10 4) (fld w 6 4) (fld w 2 4)) else
     if bits w 0 2 == 1 then some (.vmaxn (fld w 27 4) (fld w 18 3) (fld w 14 4) (fld w 10 4) (fld w 6 4) (fld w 2 4)) else
     none) := by
  simp only [decodeW, h]

theorem wPriv_6 {w : Nat} (h : bits w 21 6 = 6) : decodeW w =
    (if bits w 0 2 == 0 then some (.vand (fld w 27 4) (fld w 18 3) (fld w 14 4) (fld w 10 4) (fld w 6 4) (fld w 2 4)) else
     none) := by
  simp only [decodeW, h]

theorem wPriv_7 {w : Nat} (h : bits w 21 6 = 7) : decodeW w =
    (if bits w 0 2 == 0 then some (.vor (fld w 27 4) (fld w 18 3) (fld w 14 4) (fld w 10 4) (fld w 6 4) (fld w 2 4)) else
     none) := by
  simp only [decodeW, h]

theorem wPriv_8 {w : Nat} (h : bits w 21 6 = 8) : decodeW w =
    (if bits w 0 2 == 0 then some (.vxor (fld w 27 4) (fld w 18 3) (fld w 14 4) (fld w 10 4) (fld w 6 4) (fld w 2 4)) else
     none) := by
  simp only [decodeW, h]

theorem wPriv_9 {w : Nat} (h : bits w 21 6 = 9) : decodeW w =
    (if bits w 0 2 == 0 then some (.vshl (fld w 27 4) (fld w 18 3) (fld w 14 4) (fld w 10 4) (fld w 6 4) (fld w 2 4)) else
     none) := by
  simp only [decodeW, h]

theorem wPriv_10 {w : Nat} (h : bits w 21 6 = 10) : decodeW w =
    (if bits w 0 2 == 0 then some (.vshr (fld w 27 4) (fld w 18 3) (fld w 14 4) (fld w 10 4) (fld w 6 4) (fld w 2 4)) else
     if bits w 0 2 == 1 then some (.vsar (fld w 27 4) (fld w 18 3) (fld w 14 4) (fld w 10 4) (fld w 6 4) (fld w 2 4)) else
     none) := by
  simp only [decodeW, h]

theorem wPriv_11 {w : Nat} (h : bits w 21 6 = 11) : decodeW w =
    (if bits w 0 2 == 0 then some (.vfshl (fld w 27 4) (fld w 18 3) (fld w 14 4) (fld w 10 4) (fld w 6 4) (fld w 2 4)) else
     if bits w 0 2 == 1 then some (.vfshr (fld w 27 4) (fld w 18 3) (fld w 14 4) (fld w 10 4) (fld w 6 4) (fld w 2 4)) else
     none) := by
  simp only [decodeW, h]

theorem wPriv_12 {w : Nat} (h : bits w 21 6 = 12) : decodeW w =
    (if bits w 0 2 == 0 && bits w 6 4 == 0 then some (.vclz (fld w 27 4) (fld w 18 3) (fld w 14 4) (fld w 10 4) (fld w 2 4)) else
     none) := by
  simp only [decodeW, h]

theorem wPriv_13 {w : Nat} (h : bits w 21 6 = 13) : decodeW w =
    (if bits w 0 2 == 0 && bits w 6 4 == 0 then some (.vpopc (fld w 27 4) (fld w 18 3) (fld w 14 4) (fld w 10 4) (fld w 2 4)) else
     none) := by
  simp only [decodeW, h]

theorem wPriv_14 {w : Nat} (h : bits w 21 6 = 14) : decodeW w =
    (if bits w 0 2 == 0 then some (.vadds (fld w 27 4) (fld w 18 3) (fld w 14 4) (fld w 10 4) (fld w 6 4) (fld w 2 4)) else
     if bits w 0 2 == 1 then some (.vaddsn (fld w 27 4) (fld w 18 3) (fld w 14 4) (fld w 10 4) (fld w 6 4) (fld w 2 4)) else
     none) := by
  simp only [decodeW, h]

theorem wPriv_15 {w : Nat} (h : bits w 21 6 = 15) : decodeW w =
    (if bits w 0 2 == 0 then some (.vsubs (fld w 27 4) (fld w 18 3) (fld w 14 4) (fld w 10 4) (fld w 6 4) (fld w 2 4)) else
     if bits w 0 2 == 1 then some (.vsubsn (fld w 27 4) (fld w 18 3) (fld w 14 4) (fld w 10 4) (fld w 6 4) (fld w 2 4)) else
     none) := by
  simp only [decodeW, h]

theorem wPriv_16 {w : Nat} (h : bits w 21 6 = 16) : decodeW w =
    (if bits w 0 2 == 0 && bits w 6 4 == 0 then some (.vabs (fld w 27 4) (fld w 18 3) (fld w 14 4) (fld w 10 4) (fld w 2 4)) else
     if bits w 0 2 == 1 && bits w 6 4 == 0 then some (.vabss (fld w 27 4) (fld w 18 3) (fld w 14 4) (fld w 10 4) (fld w 2 4)) else
     none) := by
  simp only [decodeW, h]

theorem wPriv_17 {w : Nat} (h : bits w 21 6 = 17) : decodeW w =
    (some (.vcmp (fld w 27 4) (fld w 18 3) (fld w 14 4) (fld w 10 4) (fld w 6 4) (fld w 2 4) (fld w 0 2))) := by
  simp only [decodeW, h]

theorem wPriv_18 {w : Nat} (h : bits w 21 6 = 18) : decodeW w =
    (some (.vcmpn (fld w 27 4) (fld w 18 3) (fld w 14 4) (fld w 10 4) (fld w 6 4) (fld w 2 4) (fld w 0 2))) := by
  simp only [decodeW, h]

theorem wPriv_19 {w : Nat} (h : bits w 21 6 = 19) : decodeW w =
    (if bits w 0 2 == 0 then some (.vsel (fld w 27 4) (fld w 18 3) (fld w 14 4) (fld w 10 4) (fld w 6 4) (fld w 2 4)) else
     none) := by
  simp only [decodeW, h]

theorem wPriv_20 {w : Nat} (h : bits w 21 6 = 20) : decodeW w =
    (some (.vaddi (fld w 27 4) (fld w 18 3) (fld w 14 4) (fld w 10 4) (fld w 2 8) (fld w 0 2))) := by
  simp only [decodeW, h]

theorem wPriv_21 {w : Nat} (h : bits w 21 6 = 21) : decodeW w =
    (if bits w 8 2 == 0 then some (.vshli (fld w 27 4) (fld w 18 3) (fld w 14 4) (fld w 10 4) (fld w 2 6) (fld w 0 2)) else
     if bits w 8 2 == 1 then some (.vshri (fld w 27 4) (fld w 18 3) (fld w 14 4) (fld w 10 4) (fld w 2 6) (fld w 0 2)) else
     if bits w 8 2 == 2 then some (.vsari (fld w 27 4) (fld w 18 3) (fld w 14 4) (fld w 10 4) (fld w 2 6) (fld w 0 2)) else
     none) := by
  simp only [decodeW, h]

theorem wPriv_22 {w : Nat} (h : bits w 21 6 = 22) : decodeW w =
    (if bits w 0 2 == 0 && bits w 6 4 == 0 then some (.vbcast (fld w 27 4) (fld w 18 3) (fld w 14 4) (fld w 10 4) (fld w 2 4)) else
     if bits w 0 2 == 1 && bits w 6 4 == 0 then some (.vbcastVec (fld w 27 4) (fld w 18 3) (fld w 14 4) (fld w 10 4) (fld w 2 4)) else
     none) := by
  simp only [decodeW, h]

theorem wPriv_23 {w : Nat} (h : bits w 21 6 = 23) : decodeW w =
    (if bits w 0 2 == 0 && bits w 6 8 == 0 then some (.viota (fld w 27 4) (fld w 18 3) (fld w 14 4) (fld w 2 4)) else
     if bits w 0 2 == 1 && bits w 6 8 == 0 then some (.viotaRank (fld w 27 4) (fld w 18 3) (fld w 14 4) (fld w 2 4)) else
     none) := by
  simp only [decodeW, h]

theorem wPriv_24 {w : Nat} (h : bits w 21 6 = 24) : decodeW w =
    (some (.vfadd (fld w 27 4) (fld w 18 3) (fld w 14 4) (fld w 10 4) (fld w 6 4) (fld w 2 4) (fld w 0 2))) := by
  simp only [decodeW, h]

theorem wPriv_25 {w : Nat} (h : bits w 21 6 = 25) : decodeW w =
    (some (.vfsub (fld w 27 4) (fld w 18 3) (fld w 14 4) (fld w 10 4) (fld w 6 4) (fld w 2 4) (fld w 0 2))) := by
  simp only [decodeW, h]

theorem wPriv_26 {w : Nat} (h : bits w 21 6 = 26) : decodeW w =
    (some (.vfmul (fld w 27 4) (fld w 18 3) (fld w 14 4) (fld w 10 4) (fld w 6 4) (fld w 2 4) (fld w 0 2))) := by
  simp only [decodeW, h]

theorem wPriv_27 {w : Nat} (h : bits w 21 6 = 27) : decodeW w =
    (some (.vfma (fld w 27 4) (fld w 18 3) (fld w 14 4) (fld w 10 4) (fld w 6 4) (fld w 2 4) (fld w 0 2))) := by
  simp only [decodeW, h]

theorem wPriv_28 {w : Nat} (h : bits w 21 6 = 28) : decodeW w =
    (if bits w 1 1 == 0 then some (.vfmin (fld w 27 4) (fld w 18 3) (fld w 14 4) (fld w 10 4) (fld w 6 4) (fld w 2 4) (fld w 0 1)) else
     none) := by
  simp only [decodeW, h]

theorem wPriv_29 {w : Nat} (h : bits w 21 6 = 29) : decodeW w =
    (if bits w 1 1 == 0 then some (.vfmax (fld w 27 4) (fld w 18 3) (fld w 14 4) (fld w 10 4) (fld w 6 4) (fld w 2 4) (fld w 0 1)) else
     none) := by
  simp only [decodeW, h]

theorem wPriv_30 {w : Nat} (h : bits w 21 6 = 30) : decodeW w =
    (some (.vfdiv (fld w 27 4) (fld w 18 3) (fld w 14 4) (fld w 10 4) (fld w 6 4) (fld w 2 4) (fld w 0 2))) := by
  simp only [decodeW, h]

theorem wPriv_31 {w : Nat} (h : bits w 21 6 = 31) : decodeW w =
    (if bits w 6 4 == 0 then some (.vfsqrt (fld w 27 4) (fld w 18 3) (fld w 14 4) (fld w 10 4) (fld w 2 4) (fld w 0 2)) else
     none) := by
  simp only [decodeW, h]

theorem wPriv_32 {w : Nat} (h : bits w 21 6 = 32) : decodeW w =
    (if bits w 6 4 == 0 then some (.vfrsqrt (fld w 27 4) (fld w 18 3) (fld w 14 4) (fld w 10 4) (fld w 2 4) (fld w 0 2)) else
     none) := by
  simp only [decodeW, h]

theorem wPriv_33 {w : Nat} (h : bits w 21 6 = 33) : decodeW w =
    (if bits w 6 4 == 0 then some (.vfexp2 (fld w 27 4) (fld w 18 3) (fld w 14 4) (fld w 10 4) (fld w 2 4) (fld w 0 2)) else
     none) := by
  simp only [decodeW, h]

theorem wPriv_34 {w : Nat} (h : bits w 21 6 = 34) : decodeW w =
    (if bits w 6 4 == 0 then some (.vflog2 (fld w 27 4) (fld w 18 3) (fld w 14 4) (fld w 10 4) (fld w 2 4) (fld w 0 2)) else
     none) := by
  simp only [decodeW, h]

theorem wPriv_35 {w : Nat} (h : bits w 21 6 = 35) : decodeW w =
    (some (.vfcmp (fld w 27 4) (fld w 18 3) (fld w 14 4) (fld w 10 4) (fld w 6 4) (fld w 2 4) (fld w 0 2))) := by
  simp only [decodeW, h]

theorem wPriv_36 {w : Nat} (h : bits w 21 6 = 36) : decodeW w =
    (if bits w 0 2 == 0 && bits w 6 4 == 0 then some (.vfabs (fld w 27 4) (fld w 18 3) (fld w 14 4) (fld w 10 4) (fld w 2 4)) else
     if bits w 0 2 == 1 && bits w 6 4 == 0 then some (.vfneg (fld w 27 4) (fld w 18 3) (fld w 14 4) (fld w 10 4) (fld w 2 4)) else
     none) := by
  simp only [decodeW, h]

theorem wPriv_37 {w : Nat} (h : bits w 21 6 = 37) : decodeW w =
    (if bits w 0 2 == 0 && bits w 6 4 == 0 then some (.vfclass (fld w 27 4) (fld w 18 3) (fld w 14 4) (fld w 10 4) (fld w 2 4)) else
     none) := by
  simp only [decodeW, h]

theorem wPriv_38 {w : Nat} (h : bits w 21 6 = 38) : decodeW w =
    (some (.vcvt (fld w 27 4) (fld w 17 4) (fld w 13 4) (fld w 9 4) (fld w 5 4) (fld w 1 4) (fld w 0 1))) := by
  simp only [decodeW, h]

theorem wPriv_39 {w : Nat} (h : bits w 21 6 = 39) : decodeW w =
    (if bits w 1 9 == 0 then some (.vquant (fld w 27 4) (fld w 18 3) (fld w 14 4) (fld w 10 4) (fld w 0 1)) else
     none) := by
  simp only [decodeW, h]

theorem wPriv_40 {w : Nat} (h : bits w 21 6 = 40) : decodeW w =
    (if bits w 1 9 == 0 then some (.vdequant (fld w 27 4) (fld w 18 3) (fld w 14 4) (fld w 10 4) (fld w 0 1)) else
     none) := by
  simp only [decodeW, h]

theorem wPriv_42 {w : Nat} (h : bits w 21 6 = 42) : decodeW w =
    (if bits w 1 1 == 0 then some (.vred (fld w 27 4) (fld w 18 3) (fld w 14 4) (fld w 10 4) (fld w 6 4) (fld w 2 4) (fld w 0 1)) else
     none) := by
  simp only [decodeW, h]

theorem wPriv_43 {w : Nat} (h : bits w 21 6 = 43) : decodeW w =
    (some (.vgred (fld w 27 4) (fld w 18 3) (fld w 14 4) (fld w 10 4) (fld w 6 4) (fld w 2 4) (fld w 1 1) (fld w 0 1))) := by
  simp only [decodeW, h]

theorem wPriv_44 {w : Nat} (h : bits w 21 6 = 44) : decodeW w =
    (some (.vscan (fld w 27 4) (fld w 18 3) (fld w 14 4) (fld w 10 4) (fld w 6 4) (fld w 2 4) (fld w 1 1) (fld w 0 1))) := by
  simp only [decodeW, h]

theorem wPriv_45 {w : Nat} (h : bits w 21 6 = 45) : decodeW w =
    (if bits w 0 1 == 0 then some (.vslideup (fld w 27 4) (fld w 18 3) (fld w 14 4) (fld w 10 4) (fld w 6 4) (fld w 2 4) (fld w 1 1)) else
     if bits w 0 1 == 1 then some (.vslidedn (fld w 27 4) (fld w 18 3) (fld w 14 4) (fld w 10 4) (fld w 6 4) (fld w 2 4) (fld w 1 1)) else
     none) := by
  simp only [decodeW, h]

theorem wPriv_46 {w : Nat} (h : bits w 21 6 = 46) : decodeW w =
    (if bits w 1 1 == 0 then some (.vperm (fld w 27 4) (fld w 18 3) (fld w 14 4) (fld w 10 4) (fld w 6 4) (fld w 2 4) (fld w 0 1)) else
     none) := by
  simp only [decodeW, h]

theorem wPriv_47 {w : Nat} (h : bits w 21 6 = 47) : decodeW w =
    (if bits w 0 2 == 0 then some (.vziplo (fld w 27 4) (fld w 18 3) (fld w 14 4) (fld w 10 4) (fld w 6 4) (fld w 2 4)) else
     if bits w 0 2 == 1 then some (.vziphi (fld w 27 4) (fld w 18 3) (fld w 14 4) (fld w 10 4) (fld w 6 4) (fld w 2 4)) else
     if bits w 0 2 == 2 then some (.vunzipe (fld w 27 4) (fld w 18 3) (fld w 14 4) (fld w 10 4) (fld w 6 4) (fld w 2 4)) else
     if bits w 0 2 == 3 then some (.vunzipo (fld w 27 4) (fld w 18 3) (fld w 14 4) (fld w 10 4) (fld w 6 4) (fld w 2 4)) else
     none) := by
  simp only [decodeW, h]

theorem wPriv_48 {w : Nat} (h : bits w 21 6 = 48) : decodeW w =
    (if bits w 1 1 == 0 && bits w 6 4 == 0 then some (.vcompress (fld w 27 4) (fld w 18 3) (fld w 14 4) (fld w 10 4) (fld w 2 4) (fld w 0 1)) else
     none) := by
  simp only [decodeW, h]

theorem wPriv_49 {w : Nat} (h : bits w 21 6 = 49) : decodeW w =
    (if bits w 1 1 == 0 && bits w 6 4 == 0 then some (.vexpand (fld w 27 4) (fld w 18 3) (fld w 14 4) (fld w 10 4) (fld w 2 4) (fld w 0 1)) else
     none) := by
  simp only [decodeW, h]

theorem wPriv_50 {w : Nat} (h : bits w 21 6 = 50) : decodeW w =
    (if bits w 0 6 == 0 then some (.plogic (fld w 27 4) (fld w 18 3) (fld w 14 4) (fld w 10 4) (fld w 6 4)) else
     none) := by
  simp only [decodeW, h]

theorem wPriv_51 {w : Nat} (h : bits w 21 6 = 51) : decodeW w =
    (if bits w 0 2 == 0 && bits w 10 4 == 0 then some (.psetFirsti (fld w 27 4) (fld w 18 3) (fld w 14 4) (fld w 2 8)) else
     if bits w 0 10 == 1 then some (.psetFirst (fld w 27 4) (fld w 18 3) (fld w 14 4) (fld w 10 4)) else
     if bits w 0 2 == 2 && bits w 6 4 == 0 then some (.psetRange (fld w 27 4) (fld w 18 3) (fld w 14 4) (fld w 10 4) (fld w 2 4)) else
     none) := by
  simp only [decodeW, h]

theorem wPriv_52 {w : Nat} (h : bits w 21 6 = 52) : decodeW w =
    (if bits w 0 2 == 0 && bits w 6 4 == 0 then some (.pcnt (fld w 27 4) (fld w 18 3) (fld w 14 4) (fld w 10 4) (fld w 2 4)) else
     none) := by
  simp only [decodeW, h]

theorem wPriv_53 {w : Nat} (h : bits w 21 6 = 53) : decodeW w =
    (if bits w 0 2 == 0 && bits w 6 4 == 0 then some (.pfirst (fld w 27 4) (fld w 18 3) (fld w 14 4) (fld w 10 4) (fld w 2 4)) else
     if bits w 0 2 == 1 && bits w 6 4 == 0 then some (.pfirstLast (fld w 27 4) (fld w 18 3) (fld w 14 4) (fld w 10 4) (fld w 2 4)) else
     none) := by
  simp only [decodeW, h]

theorem wPriv_54 {w : Nat} (h : bits w 21 6 = 54) : decodeW w =
    (if bits w 0 6 == 0 then some (.vmovwPtov (fld w 27 4) (fld w 18 3) (fld w 14 4) (fld w 10 4) (fld w 6 4)) else
     if bits w 0 6 == 1 then some (.vmovwVtop (fld w 27 4) (fld w 18 3) (fld w 14 4) (fld w 10 4) (fld w 6 4)) else
     if bits w 0 10 == 2 then some (.vmovwVtow (fld w 27 4) (fld w 18 3) (fld w 14 4) (fld w 10 4)) else
     none) := by
  simp only [decodeW, h]

theorem wPriv_56 {w : Nat} (h : bits w 21 6 = 56) : decodeW w =
    (if bits w 1 10 == 0 && bits w 18 3 == 0 then some (.mgo (fld w 27 4) (fld w 14 4) (fld w 11 3) (fld w 0 1)) else
     none) := by
  simp only [decodeW, h]

theorem wPriv_57 {w : Nat} (h : bits w 21 6 = 57) : decodeW w =
    (if bits w 1 1 == 0 && bits w 8 3 == 0 && bits w 18 3 == 0 then some (.mgog (fld w 27 4) (fld w 14 4) (fld w 11 3) (fld w 2 6) (fld w 0 1)) else
     none) := by
  simp only [decodeW, h]

theorem wPriv_58 {w : Nat} (h : bits w 21 6 = 58) : decodeW w =
    (if bits w 16 2 == 0 then some (.mouter (fld w 27 4) (fld w 18 3) (fld w 10 6) (fld w 6 4) (fld w 2 4) (fld w 1 1) (fld w 0 1)) else
     none) := by
  simp only [decodeW, h]

theorem wPriv_59 {w : Nat} (h : bits w 21 6 = 59) : decodeW w =
    (if bits w 16 2 == 0 then some (.mvec (fld w 27 4) (fld w 18 3) (fld w 10 6) (fld w 6 4) (fld w 2 4) (fld w 1 1) (fld w 0 1)) else
     none) := by
  simp only [decodeW, h]

theorem wPriv_60 {w : Nat} (h : bits w 21 6 = 60) : decodeW w =
    (if bits w 0 2 == 0 && bits w 14 7 == 0 then some (.aczero (fld w 27 4) (fld w 8 6) (fld w 2 6)) else
     if bits w 0 2 == 1 && bits w 14 7 == 0 then some (.acrd (fld w 27 4) (fld w 8 6) (fld w 2 6)) else
     if bits w 0 2 == 2 && bits w 14 7 == 0 then some (.acwr (fld w 27 4) (fld w 8 6) (fld w 2 6)) else
     none) := by
  simp only [decodeW, h]

theorem wPriv_61 {w : Nat} (h : bits w 21 6 = 61) : decodeW w =
    (if bits w 0 2 == 0 && bits w 20 1 == 0 then some (.acpin (fld w 27 4) (fld w 17 3) (fld w 14 3) (fld w 8 6) (fld w 2 6)) else
     if bits w 0 2 == 1 && bits w 14 7 == 0 then some (.acfree (fld w 27 4) (fld w 8 6) (fld w 2 6)) else
     if bits w 0 2 == 2 && bits w 14 7 == 0 then some (.acspill (fld w 27 4) (fld w 8 6) (fld w 2 6)) else
     if bits w 0 2 == 3 && bits w 17 4 == 0 then some (.acfill (fld w 27 4) (fld w 14 3) (fld w 8 6) (fld w 2 6)) else
     none) := by
  simp only [decodeW, h]

theorem wPriv_62 {w : Nat} (h : bits w 21 6 = 62) : decodeW w =
    (if bits w 0 2 == 0 && bits w 4 17 == 0 then some (.fwstep (fld w 27 4) (fld w 2 2)) else
     if bits w 0 2 == 1 && bits w 12 9 == 0 then some (.fwchunk (fld w 27 4) (fld w 6 6) (fld w 2 4)) else
     none) := by
  simp only [decodeW, h]

theorem wPriv_63 {w : Nat} (h : bits w 21 6 = 63) : decodeW w =
    (if bits w 0 2 == 0 && bits w 5 6 == 0 && bits w 14 7 == 0 then some (.assay (fld w 27 4) (fld w 11 3) (fld w 4 1) (fld w 2 2)) else
     if bits w 0 2 == 1 && bits w 13 1 == 0 && bits w 17 4 == 0 then some (.mremap (fld w 27 4) (fld w 14 3) (fld w 4 9) (fld w 3 1) (fld w 2 1)) else
     if bits w 0 3 == 2 && bits w 13 1 == 0 && bits w 17 4 == 0 then some (.mshrink (fld w 27 4) (fld w 14 3) (fld w 4 9) (fld w 3 1)) else
     none) := by
  simp only [decodeW, h]

theorem sPriv_0 {w : Nat} (h : bits w 21 6 = 0) : decodeS w =
    (some (.vst (fld w 27 4) (fld w 17 4) (fld w 14 3) (fld w 12 2) (fld w 0 12))) := by
  simp only [decodeS, h]

theorem sPriv_1 {w : Nat} (h : bits w 21 6 = 1) : decodeS w =
    (if bits w 17 4 == 15 then some (.vstu (fld w 27 4) (fld w 14 3) (fld w 12 2) (fld w 0 12)) else
     none) := by
  simp only [decodeS, h]

theorem sPriv_2 {w : Nat} (h : bits w 21 6 = 2) : decodeS w =
    (if bits w 0 7 == 0 then some (.vsts (fld w 27 4) (fld w 17 4) (fld w 14 3) (fld w 11 3) (fld w 9 2) (fld w 7 2)) else
     none) := by
  simp only [decodeS, h]

theorem sPriv_8 {w : Nat} (h : bits w 21 6 = 8) : decodeS w =
    (if bits w 0 8 == 0 then some (.cpout (fld w 27 4) (fld w 18 3) (fld w 15 3) (fld w 12 3) (fld w 9 3) (fld w 8 1)) else
     none) := by
  simp only [decodeS, h]

theorem sPriv_9 {w : Nat} (h : bits w 21 6 = 9) : decodeS w =
    (if bits w 0 8 == 0 then some (.cploc (fld w 27 4) (fld w 18 3) (fld w 15 3) (fld w 12 3) (fld w 9 3) (fld w 8 1)) else
     none) := by
  simp only [decodeS, h]

theorem sPriv_10 {w : Nat} (h : bits w 21 6 = 10) : decodeS w =
    (if bits w 0 9 == 0 && bits w 12 3 == 0 then some (.scatter (fld w 27 4) (fld w 18 3) (fld w 15 3) (fld w 9 3)) else
     none) := by
  simp only [decodeS, h]

theorem sPriv_11 {w : Nat} (h : bits w 21 6 = 11) : decodeS w =
    (if bits w 0 8 == 0 then some (.cprem (fld w 27 4) (fld w 18 3) (fld w 15 3) (fld w 12 3) (fld w 9 3) (fld w 8 1)) else
     none) := by
  simp only [decodeS, h]

theorem sPriv_12 {w : Nat} (h : bits w 21 6 = 12) : decodeS w =
    (if bits w 0 13 == 0 then some (.wflush (fld w 27 4) (fld w 15 6) (fld w 14 1) (fld w 13 1)) else
     none) := by
  simp only [decodeS, h]

theorem nop : Statement .nop := by
  obtain ⟨ω, hω⟩ : ∃ ω, pack 0x00000000 [] = ω := ⟨_, rfl⟩
  simp only [pack] at hω
  have h0 : bits ω 25 6 = 0 := by simp only [bits]; omega
  have c0 : bits ω 0 25 = 0 := by simp only [bits]; omega
  exact of_control ω hω (by omega) (by simp only [bits]; omega) (by rw [control_0 h0]; simp [c0])

theorem add (d : BitVec 5) (a : BitVec 5) (b : BitVec 5) : Statement (.add d a b) := by
  have hd := d.isLt
  have ha := a.isLt
  have hb := b.isLt
  obtain ⟨ω, hω⟩ : ∃ ω, pack 0x02000000 [(d.toNat, 20), (a.toNat, 15), (b.toNat, 10)] = ω := ⟨_, rfl⟩
  simp only [pack] at hω
  have h0 : bits ω 25 6 = 1 := by simp only [bits]; omega
  have c0 : bits ω 0 10 = 0 := by simp only [bits]; omega
  have f0 : fld ω 20 5 = d := fld_eq _ _ _ (by omega)
  have f1 : fld ω 15 5 = a := fld_eq _ _ _ (by omega)
  have f2 : fld ω 10 5 = b := fld_eq _ _ _ (by omega)
  exact of_control ω hω (by omega) (by simp only [bits]; omega) (by rw [control_1 h0]; simp [c0, f0, f1, f2])

end

theorem sub (d : BitVec 5) (a : BitVec 5) (b : BitVec 5) : Statement (.sub d a b) := by
  have hd := d.isLt
  have ha := a.isLt
  have hb := b.isLt
  obtain ⟨ω, hω⟩ : ∃ ω, pack 0x02000001 [(d.toNat, 20), (a.toNat, 15), (b.toNat, 10)] = ω := ⟨_, rfl⟩
  simp only [pack] at hω
  have h0 : bits ω 25 6 = 1 := by simp only [bits]; omega
  have c0 : bits ω 0 10 = 1 := by simp only [bits]; omega
  have f0 : fld ω 20 5 = d := fld_eq _ _ _ (by omega)
  have f1 : fld ω 15 5 = a := fld_eq _ _ _ (by omega)
  have f2 : fld ω 10 5 = b := fld_eq _ _ _ (by omega)
  exact of_control ω hω (by omega) (by simp only [bits]; omega) (by rw [control_1 h0]; simp [c0, f0, f1, f2])

theorem andReg (d : BitVec 5) (a : BitVec 5) (b : BitVec 5) : Statement (.andReg d a b) := by
  have hd := d.isLt
  have ha := a.isLt
  have hb := b.isLt
  obtain ⟨ω, hω⟩ : ∃ ω, pack 0x02000002 [(d.toNat, 20), (a.toNat, 15), (b.toNat, 10)] = ω := ⟨_, rfl⟩
  simp only [pack] at hω
  have h0 : bits ω 25 6 = 1 := by simp only [bits]; omega
  have c0 : bits ω 0 10 = 2 := by simp only [bits]; omega
  have f0 : fld ω 20 5 = d := fld_eq _ _ _ (by omega)
  have f1 : fld ω 15 5 = a := fld_eq _ _ _ (by omega)
  have f2 : fld ω 10 5 = b := fld_eq _ _ _ (by omega)
  exact of_control ω hω (by omega) (by simp only [bits]; omega) (by rw [control_1 h0]; simp [c0, f0, f1, f2])

theorem orReg (d : BitVec 5) (a : BitVec 5) (b : BitVec 5) : Statement (.orReg d a b) := by
  have hd := d.isLt
  have ha := a.isLt
  have hb := b.isLt
  obtain ⟨ω, hω⟩ : ∃ ω, pack 0x02000003 [(d.toNat, 20), (a.toNat, 15), (b.toNat, 10)] = ω := ⟨_, rfl⟩
  simp only [pack] at hω
  have h0 : bits ω 25 6 = 1 := by simp only [bits]; omega
  have c0 : bits ω 0 10 = 3 := by simp only [bits]; omega
  have f0 : fld ω 20 5 = d := fld_eq _ _ _ (by omega)
  have f1 : fld ω 15 5 = a := fld_eq _ _ _ (by omega)
  have f2 : fld ω 10 5 = b := fld_eq _ _ _ (by omega)
  exact of_control ω hω (by omega) (by simp only [bits]; omega) (by rw [control_1 h0]; simp [c0, f0, f1, f2])

theorem xorReg (d : BitVec 5) (a : BitVec 5) (b : BitVec 5) : Statement (.xorReg d a b) := by
  have hd := d.isLt
  have ha := a.isLt
  have hb := b.isLt
  obtain ⟨ω, hω⟩ : ∃ ω, pack 0x02000004 [(d.toNat, 20), (a.toNat, 15), (b.toNat, 10)] = ω := ⟨_, rfl⟩
  simp only [pack] at hω
  have h0 : bits ω 25 6 = 1 := by simp only [bits]; omega
  have c0 : bits ω 0 10 = 4 := by simp only [bits]; omega
  have f0 : fld ω 20 5 = d := fld_eq _ _ _ (by omega)
  have f1 : fld ω 15 5 = a := fld_eq _ _ _ (by omega)
  have f2 : fld ω 10 5 = b := fld_eq _ _ _ (by omega)
  exact of_control ω hω (by omega) (by simp only [bits]; omega) (by rw [control_1 h0]; simp [c0, f0, f1, f2])

theorem shl (d : BitVec 5) (a : BitVec 5) (b : BitVec 5) : Statement (.shl d a b) := by
  have hd := d.isLt
  have ha := a.isLt
  have hb := b.isLt
  obtain ⟨ω, hω⟩ : ∃ ω, pack 0x02000005 [(d.toNat, 20), (a.toNat, 15), (b.toNat, 10)] = ω := ⟨_, rfl⟩
  simp only [pack] at hω
  have h0 : bits ω 25 6 = 1 := by simp only [bits]; omega
  have c0 : bits ω 0 10 = 5 := by simp only [bits]; omega
  have f0 : fld ω 20 5 = d := fld_eq _ _ _ (by omega)
  have f1 : fld ω 15 5 = a := fld_eq _ _ _ (by omega)
  have f2 : fld ω 10 5 = b := fld_eq _ _ _ (by omega)
  exact of_control ω hω (by omega) (by simp only [bits]; omega) (by rw [control_1 h0]; simp [c0, f0, f1, f2])

theorem shr (d : BitVec 5) (a : BitVec 5) (b : BitVec 5) : Statement (.shr d a b) := by
  have hd := d.isLt
  have ha := a.isLt
  have hb := b.isLt
  obtain ⟨ω, hω⟩ : ∃ ω, pack 0x02000006 [(d.toNat, 20), (a.toNat, 15), (b.toNat, 10)] = ω := ⟨_, rfl⟩
  simp only [pack] at hω
  have h0 : bits ω 25 6 = 1 := by simp only [bits]; omega
  have c0 : bits ω 0 10 = 6 := by simp only [bits]; omega
  have f0 : fld ω 20 5 = d := fld_eq _ _ _ (by omega)
  have f1 : fld ω 15 5 = a := fld_eq _ _ _ (by omega)
  have f2 : fld ω 10 5 = b := fld_eq _ _ _ (by omega)
  exact of_control ω hω (by omega) (by simp only [bits]; omega) (by rw [control_1 h0]; simp [c0, f0, f1, f2])

theorem sar (d : BitVec 5) (a : BitVec 5) (b : BitVec 5) : Statement (.sar d a b) := by
  have hd := d.isLt
  have ha := a.isLt
  have hb := b.isLt
  obtain ⟨ω, hω⟩ : ∃ ω, pack 0x02000007 [(d.toNat, 20), (a.toNat, 15), (b.toNat, 10)] = ω := ⟨_, rfl⟩
  simp only [pack] at hω
  have h0 : bits ω 25 6 = 1 := by simp only [bits]; omega
  have c0 : bits ω 0 10 = 7 := by simp only [bits]; omega
  have f0 : fld ω 20 5 = d := fld_eq _ _ _ (by omega)
  have f1 : fld ω 15 5 = a := fld_eq _ _ _ (by omega)
  have f2 : fld ω 10 5 = b := fld_eq _ _ _ (by omega)
  exact of_control ω hω (by omega) (by simp only [bits]; omega) (by rw [control_1 h0]; simp [c0, f0, f1, f2])

theorem slt (d : BitVec 5) (a : BitVec 5) (b : BitVec 5) : Statement (.slt d a b) := by
  have hd := d.isLt
  have ha := a.isLt
  have hb := b.isLt
  obtain ⟨ω, hω⟩ : ∃ ω, pack 0x02000008 [(d.toNat, 20), (a.toNat, 15), (b.toNat, 10)] = ω := ⟨_, rfl⟩
  simp only [pack] at hω
  have h0 : bits ω 25 6 = 1 := by simp only [bits]; omega
  have c0 : bits ω 0 10 = 8 := by simp only [bits]; omega
  have f0 : fld ω 20 5 = d := fld_eq _ _ _ (by omega)
  have f1 : fld ω 15 5 = a := fld_eq _ _ _ (by omega)
  have f2 : fld ω 10 5 = b := fld_eq _ _ _ (by omega)
  exact of_control ω hω (by omega) (by simp only [bits]; omega) (by rw [control_1 h0]; simp [c0, f0, f1, f2])

theorem sltn (d : BitVec 5) (a : BitVec 5) (b : BitVec 5) : Statement (.sltn d a b) := by
  have hd := d.isLt
  have ha := a.isLt
  have hb := b.isLt
  obtain ⟨ω, hω⟩ : ∃ ω, pack 0x02000009 [(d.toNat, 20), (a.toNat, 15), (b.toNat, 10)] = ω := ⟨_, rfl⟩
  simp only [pack] at hω
  have h0 : bits ω 25 6 = 1 := by simp only [bits]; omega
  have c0 : bits ω 0 10 = 9 := by simp only [bits]; omega
  have f0 : fld ω 20 5 = d := fld_eq _ _ _ (by omega)
  have f1 : fld ω 15 5 = a := fld_eq _ _ _ (by omega)
  have f2 : fld ω 10 5 = b := fld_eq _ _ _ (by omega)
  exact of_control ω hω (by omega) (by simp only [bits]; omega) (by rw [control_1 h0]; simp [c0, f0, f1, f2])

theorem minReg (d : BitVec 5) (a : BitVec 5) (b : BitVec 5) : Statement (.minReg d a b) := by
  have hd := d.isLt
  have ha := a.isLt
  have hb := b.isLt
  obtain ⟨ω, hω⟩ : ∃ ω, pack 0x0200000A [(d.toNat, 20), (a.toNat, 15), (b.toNat, 10)] = ω := ⟨_, rfl⟩
  simp only [pack] at hω
  have h0 : bits ω 25 6 = 1 := by simp only [bits]; omega
  have c0 : bits ω 0 10 = 10 := by simp only [bits]; omega
  have f0 : fld ω 20 5 = d := fld_eq _ _ _ (by omega)
  have f1 : fld ω 15 5 = a := fld_eq _ _ _ (by omega)
  have f2 : fld ω 10 5 = b := fld_eq _ _ _ (by omega)
  exact of_control ω hω (by omega) (by simp only [bits]; omega) (by rw [control_1 h0]; simp [c0, f0, f1, f2])

theorem maxReg (d : BitVec 5) (a : BitVec 5) (b : BitVec 5) : Statement (.maxReg d a b) := by
  have hd := d.isLt
  have ha := a.isLt
  have hb := b.isLt
  obtain ⟨ω, hω⟩ : ∃ ω, pack 0x0200000B [(d.toNat, 20), (a.toNat, 15), (b.toNat, 10)] = ω := ⟨_, rfl⟩
  simp only [pack] at hω
  have h0 : bits ω 25 6 = 1 := by simp only [bits]; omega
  have c0 : bits ω 0 10 = 11 := by simp only [bits]; omega
  have f0 : fld ω 20 5 = d := fld_eq _ _ _ (by omega)
  have f1 : fld ω 15 5 = a := fld_eq _ _ _ (by omega)
  have f2 : fld ω 10 5 = b := fld_eq _ _ _ (by omega)
  exact of_control ω hω (by omega) (by simp only [bits]; omega) (by rw [control_1 h0]; simp [c0, f0, f1, f2])

theorem minn (d : BitVec 5) (a : BitVec 5) (b : BitVec 5) : Statement (.minn d a b) := by
  have hd := d.isLt
  have ha := a.isLt
  have hb := b.isLt
  obtain ⟨ω, hω⟩ : ∃ ω, pack 0x0200000C [(d.toNat, 20), (a.toNat, 15), (b.toNat, 10)] = ω := ⟨_, rfl⟩
  simp only [pack] at hω
  have h0 : bits ω 25 6 = 1 := by simp only [bits]; omega
  have c0 : bits ω 0 10 = 12 := by simp only [bits]; omega
  have f0 : fld ω 20 5 = d := fld_eq _ _ _ (by omega)
  have f1 : fld ω 15 5 = a := fld_eq _ _ _ (by omega)
  have f2 : fld ω 10 5 = b := fld_eq _ _ _ (by omega)
  exact of_control ω hω (by omega) (by simp only [bits]; omega) (by rw [control_1 h0]; simp [c0, f0, f1, f2])

theorem maxn (d : BitVec 5) (a : BitVec 5) (b : BitVec 5) : Statement (.maxn d a b) := by
  have hd := d.isLt
  have ha := a.isLt
  have hb := b.isLt
  obtain ⟨ω, hω⟩ : ∃ ω, pack 0x0200000D [(d.toNat, 20), (a.toNat, 15), (b.toNat, 10)] = ω := ⟨_, rfl⟩
  simp only [pack] at hω
  have h0 : bits ω 25 6 = 1 := by simp only [bits]; omega
  have c0 : bits ω 0 10 = 13 := by simp only [bits]; omega
  have f0 : fld ω 20 5 = d := fld_eq _ _ _ (by omega)
  have f1 : fld ω 15 5 = a := fld_eq _ _ _ (by omega)
  have f2 : fld ω 10 5 = b := fld_eq _ _ _ (by omega)
  exact of_control ω hω (by omega) (by simp only [bits]; omega) (by rw [control_1 h0]; simp [c0, f0, f1, f2])

theorem andn (d : BitVec 5) (a : BitVec 5) (b : BitVec 5) : Statement (.andn d a b) := by
  have hd := d.isLt
  have ha := a.isLt
  have hb := b.isLt
  obtain ⟨ω, hω⟩ : ∃ ω, pack 0x0200000E [(d.toNat, 20), (a.toNat, 15), (b.toNat, 10)] = ω := ⟨_, rfl⟩
  simp only [pack] at hω
  have h0 : bits ω 25 6 = 1 := by simp only [bits]; omega
  have c0 : bits ω 0 10 = 14 := by simp only [bits]; omega
  have f0 : fld ω 20 5 = d := fld_eq _ _ _ (by omega)
  have f1 : fld ω 15 5 = a := fld_eq _ _ _ (by omega)
  have f2 : fld ω 10 5 = b := fld_eq _ _ _ (by omega)
  exact of_control ω hω (by omega) (by simp only [bits]; omega) (by rw [control_1 h0]; simp [c0, f0, f1, f2])

theorem mul (d : BitVec 5) (a : BitVec 5) (b : BitVec 5) : Statement (.mul d a b) := by
  have hd := d.isLt
  have ha := a.isLt
  have hb := b.isLt
  obtain ⟨ω, hω⟩ : ∃ ω, pack 0x04000000 [(d.toNat, 20), (a.toNat, 15), (b.toNat, 10)] = ω := ⟨_, rfl⟩
  simp only [pack] at hω
  have h0 : bits ω 25 6 = 2 := by simp only [bits]; omega
  have c0 : bits ω 0 10 = 0 := by simp only [bits]; omega
  have f0 : fld ω 20 5 = d := fld_eq _ _ _ (by omega)
  have f1 : fld ω 15 5 = a := fld_eq _ _ _ (by omega)
  have f2 : fld ω 10 5 = b := fld_eq _ _ _ (by omega)
  exact of_control ω hω (by omega) (by simp only [bits]; omega) (by rw [control_2 h0]; simp [c0, f0, f1, f2])

theorem mulh (d : BitVec 5) (a : BitVec 5) (b : BitVec 5) : Statement (.mulh d a b) := by
  have hd := d.isLt
  have ha := a.isLt
  have hb := b.isLt
  obtain ⟨ω, hω⟩ : ∃ ω, pack 0x04000001 [(d.toNat, 20), (a.toNat, 15), (b.toNat, 10)] = ω := ⟨_, rfl⟩
  simp only [pack] at hω
  have h0 : bits ω 25 6 = 2 := by simp only [bits]; omega
  have c0 : bits ω 0 10 = 1 := by simp only [bits]; omega
  have f0 : fld ω 20 5 = d := fld_eq _ _ _ (by omega)
  have f1 : fld ω 15 5 = a := fld_eq _ _ _ (by omega)
  have f2 : fld ω 10 5 = b := fld_eq _ _ _ (by omega)
  exact of_control ω hω (by omega) (by simp only [bits]; omega) (by rw [control_2 h0]; simp [c0, f0, f1, f2])

theorem mulhn (d : BitVec 5) (a : BitVec 5) (b : BitVec 5) : Statement (.mulhn d a b) := by
  have hd := d.isLt
  have ha := a.isLt
  have hb := b.isLt
  obtain ⟨ω, hω⟩ : ∃ ω, pack 0x04000002 [(d.toNat, 20), (a.toNat, 15), (b.toNat, 10)] = ω := ⟨_, rfl⟩
  simp only [pack] at hω
  have h0 : bits ω 25 6 = 2 := by simp only [bits]; omega
  have c0 : bits ω 0 10 = 2 := by simp only [bits]; omega
  have f0 : fld ω 20 5 = d := fld_eq _ _ _ (by omega)
  have f1 : fld ω 15 5 = a := fld_eq _ _ _ (by omega)
  have f2 : fld ω 10 5 = b := fld_eq _ _ _ (by omega)
  exact of_control ω hω (by omega) (by simp only [bits]; omega) (by rw [control_2 h0]; simp [c0, f0, f1, f2])

theorem div (d : BitVec 5) (a : BitVec 5) (b : BitVec 5) : Statement (.div d a b) := by
  have hd := d.isLt
  have ha := a.isLt
  have hb := b.isLt
  obtain ⟨ω, hω⟩ : ∃ ω, pack 0x04000003 [(d.toNat, 20), (a.toNat, 15), (b.toNat, 10)] = ω := ⟨_, rfl⟩
  simp only [pack] at hω
  have h0 : bits ω 25 6 = 2 := by simp only [bits]; omega
  have c0 : bits ω 0 10 = 3 := by simp only [bits]; omega
  have f0 : fld ω 20 5 = d := fld_eq _ _ _ (by omega)
  have f1 : fld ω 15 5 = a := fld_eq _ _ _ (by omega)
  have f2 : fld ω 10 5 = b := fld_eq _ _ _ (by omega)
  exact of_control ω hω (by omega) (by simp only [bits]; omega) (by rw [control_2 h0]; simp [c0, f0, f1, f2])

theorem divn (d : BitVec 5) (a : BitVec 5) (b : BitVec 5) : Statement (.divn d a b) := by
  have hd := d.isLt
  have ha := a.isLt
  have hb := b.isLt
  obtain ⟨ω, hω⟩ : ∃ ω, pack 0x04000004 [(d.toNat, 20), (a.toNat, 15), (b.toNat, 10)] = ω := ⟨_, rfl⟩
  simp only [pack] at hω
  have h0 : bits ω 25 6 = 2 := by simp only [bits]; omega
  have c0 : bits ω 0 10 = 4 := by simp only [bits]; omega
  have f0 : fld ω 20 5 = d := fld_eq _ _ _ (by omega)
  have f1 : fld ω 15 5 = a := fld_eq _ _ _ (by omega)
  have f2 : fld ω 10 5 = b := fld_eq _ _ _ (by omega)
  exact of_control ω hω (by omega) (by simp only [bits]; omega) (by rw [control_2 h0]; simp [c0, f0, f1, f2])

theorem rem (d : BitVec 5) (a : BitVec 5) (b : BitVec 5) : Statement (.rem d a b) := by
  have hd := d.isLt
  have ha := a.isLt
  have hb := b.isLt
  obtain ⟨ω, hω⟩ : ∃ ω, pack 0x04000005 [(d.toNat, 20), (a.toNat, 15), (b.toNat, 10)] = ω := ⟨_, rfl⟩
  simp only [pack] at hω
  have h0 : bits ω 25 6 = 2 := by simp only [bits]; omega
  have c0 : bits ω 0 10 = 5 := by simp only [bits]; omega
  have f0 : fld ω 20 5 = d := fld_eq _ _ _ (by omega)
  have f1 : fld ω 15 5 = a := fld_eq _ _ _ (by omega)
  have f2 : fld ω 10 5 = b := fld_eq _ _ _ (by omega)
  exact of_control ω hω (by omega) (by simp only [bits]; omega) (by rw [control_2 h0]; simp [c0, f0, f1, f2])

theorem remn (d : BitVec 5) (a : BitVec 5) (b : BitVec 5) : Statement (.remn d a b) := by
  have hd := d.isLt
  have ha := a.isLt
  have hb := b.isLt
  obtain ⟨ω, hω⟩ : ∃ ω, pack 0x04000006 [(d.toNat, 20), (a.toNat, 15), (b.toNat, 10)] = ω := ⟨_, rfl⟩
  simp only [pack] at hω
  have h0 : bits ω 25 6 = 2 := by simp only [bits]; omega
  have c0 : bits ω 0 10 = 6 := by simp only [bits]; omega
  have f0 : fld ω 20 5 = d := fld_eq _ _ _ (by omega)
  have f1 : fld ω 15 5 = a := fld_eq _ _ _ (by omega)
  have f2 : fld ω 10 5 = b := fld_eq _ _ _ (by omega)
  exact of_control ω hω (by omega) (by simp only [bits]; omega) (by rw [control_2 h0]; simp [c0, f0, f1, f2])

theorem clz (d : BitVec 5) (a : BitVec 5) : Statement (.clz d a) := by
  have hd := d.isLt
  have ha := a.isLt
  obtain ⟨ω, hω⟩ : ∃ ω, pack 0x06000000 [(d.toNat, 20), (a.toNat, 15)] = ω := ⟨_, rfl⟩
  simp only [pack] at hω
  have h0 : bits ω 25 6 = 3 := by simp only [bits]; omega
  have c0 : bits ω 0 15 = 0 := by simp only [bits]; omega
  have f0 : fld ω 20 5 = d := fld_eq _ _ _ (by omega)
  have f1 : fld ω 15 5 = a := fld_eq _ _ _ (by omega)
  exact of_control ω hω (by omega) (by simp only [bits]; omega) (by rw [control_3 h0]; simp [c0, f0, f1])

theorem ctz (d : BitVec 5) (a : BitVec 5) : Statement (.ctz d a) := by
  have hd := d.isLt
  have ha := a.isLt
  obtain ⟨ω, hω⟩ : ∃ ω, pack 0x06000400 [(d.toNat, 20), (a.toNat, 15)] = ω := ⟨_, rfl⟩
  simp only [pack] at hω
  have h0 : bits ω 25 6 = 3 := by simp only [bits]; omega
  have c0 : bits ω 0 15 = 1024 := by simp only [bits]; omega
  have f0 : fld ω 20 5 = d := fld_eq _ _ _ (by omega)
  have f1 : fld ω 15 5 = a := fld_eq _ _ _ (by omega)
  exact of_control ω hω (by omega) (by simp only [bits]; omega) (by rw [control_3 h0]; simp [c0, f0, f1])

theorem popc (d : BitVec 5) (a : BitVec 5) : Statement (.popc d a) := by
  have hd := d.isLt
  have ha := a.isLt
  obtain ⟨ω, hω⟩ : ∃ ω, pack 0x06000800 [(d.toNat, 20), (a.toNat, 15)] = ω := ⟨_, rfl⟩
  simp only [pack] at hω
  have h0 : bits ω 25 6 = 3 := by simp only [bits]; omega
  have c0 : bits ω 0 15 = 2048 := by simp only [bits]; omega
  have f0 : fld ω 20 5 = d := fld_eq _ _ _ (by omega)
  have f1 : fld ω 15 5 = a := fld_eq _ _ _ (by omega)
  exact of_control ω hω (by omega) (by simp only [bits]; omega) (by rw [control_3 h0]; simp [c0, f0, f1])

theorem brev (d : BitVec 5) (a : BitVec 5) : Statement (.brev d a) := by
  have hd := d.isLt
  have ha := a.isLt
  obtain ⟨ω, hω⟩ : ∃ ω, pack 0x06000C00 [(d.toNat, 20), (a.toNat, 15)] = ω := ⟨_, rfl⟩
  simp only [pack] at hω
  have h0 : bits ω 25 6 = 3 := by simp only [bits]; omega
  have c0 : bits ω 0 15 = 3072 := by simp only [bits]; omega
  have f0 : fld ω 20 5 = d := fld_eq _ _ _ (by omega)
  have f1 : fld ω 15 5 = a := fld_eq _ _ _ (by omega)
  exact of_control ω hω (by omega) (by simp only [bits]; omega) (by rw [control_3 h0]; simp [c0, f0, f1])

theorem bext (d : BitVec 5) (a : BitVec 5) (p : BitVec 6) (l : BitVec 4) : Statement (.bext d a p l) := by
  have hd := d.isLt
  have ha := a.isLt
  have hp := p.isLt
  have hl := l.isLt
  obtain ⟨ω, hω⟩ : ∃ ω, pack 0x06001000 [(d.toNat, 20), (a.toNat, 15), (p.toNat, 4), (l.toNat, 0)] = ω := ⟨_, rfl⟩
  simp only [pack] at hω
  have h0 : bits ω 25 6 = 3 := by simp only [bits]; omega
  have c0 : ¬ bits ω 0 15 = 0 := by simp only [bits]; omega
  have c1 : ¬ bits ω 0 15 = 1024 := by simp only [bits]; omega
  have c2 : ¬ bits ω 0 15 = 2048 := by simp only [bits]; omega
  have c3 : ¬ bits ω 0 15 = 3072 := by simp only [bits]; omega
  have c4 : bits ω 10 5 = 4 := by simp only [bits]; omega
  have f0 : fld ω 20 5 = d := fld_eq _ _ _ (by omega)
  have f1 : fld ω 15 5 = a := fld_eq _ _ _ (by omega)
  have f2 : fld ω 4 6 = p := fld_eq _ _ _ (by omega)
  have f3 : fld ω 0 4 = l := fld_eq _ _ _ (by omega)
  exact of_control ω hω (by omega) (by simp only [bits]; omega) (by rw [control_3 h0]; simp [c0, c1, c2, c3, c4, f0, f1, f2, f3])

theorem addi (d : BitVec 5) (a : BitVec 5) (i : BitVec 15) : Statement (.addi d a i) := by
  have hd := d.isLt
  have ha := a.isLt
  have hi := i.isLt
  obtain ⟨ω, hω⟩ : ∃ ω, pack 0x08000000 [(d.toNat, 20), (a.toNat, 15), (i.toNat, 0)] = ω := ⟨_, rfl⟩
  simp only [pack] at hω
  have h0 : bits ω 25 6 = 4 := by simp only [bits]; omega
  have f0 : fld ω 20 5 = d := fld_eq _ _ _ (by omega)
  have f1 : fld ω 15 5 = a := fld_eq _ _ _ (by omega)
  have f2 : fld ω 0 15 = i := fld_eq _ _ _ (by omega)
  exact of_control ω hω (by omega) (by simp only [bits]; omega) (by rw [control_4 h0]; simp [f0, f1, f2])

theorem andi (d : BitVec 5) (a : BitVec 5) (i : BitVec 15) : Statement (.andi d a i) := by
  have hd := d.isLt
  have ha := a.isLt
  have hi := i.isLt
  obtain ⟨ω, hω⟩ : ∃ ω, pack 0x0A000000 [(d.toNat, 20), (a.toNat, 15), (i.toNat, 0)] = ω := ⟨_, rfl⟩
  simp only [pack] at hω
  have h0 : bits ω 25 6 = 5 := by simp only [bits]; omega
  have f0 : fld ω 20 5 = d := fld_eq _ _ _ (by omega)
  have f1 : fld ω 15 5 = a := fld_eq _ _ _ (by omega)
  have f2 : fld ω 0 15 = i := fld_eq _ _ _ (by omega)
  exact of_control ω hω (by omega) (by simp only [bits]; omega) (by rw [control_5 h0]; simp [f0, f1, f2])

theorem ori (d : BitVec 5) (a : BitVec 5) (i : BitVec 15) : Statement (.ori d a i) := by
  have hd := d.isLt
  have ha := a.isLt
  have hi := i.isLt
  obtain ⟨ω, hω⟩ : ∃ ω, pack 0x0C000000 [(d.toNat, 20), (a.toNat, 15), (i.toNat, 0)] = ω := ⟨_, rfl⟩
  simp only [pack] at hω
  have h0 : bits ω 25 6 = 6 := by simp only [bits]; omega
  have f0 : fld ω 20 5 = d := fld_eq _ _ _ (by omega)
  have f1 : fld ω 15 5 = a := fld_eq _ _ _ (by omega)
  have f2 : fld ω 0 15 = i := fld_eq _ _ _ (by omega)
  exact of_control ω hω (by omega) (by simp only [bits]; omega) (by rw [control_6 h0]; simp [f0, f1, f2])

theorem xori (d : BitVec 5) (a : BitVec 5) (i : BitVec 15) : Statement (.xori d a i) := by
  have hd := d.isLt
  have ha := a.isLt
  have hi := i.isLt
  obtain ⟨ω, hω⟩ : ∃ ω, pack 0x0E000000 [(d.toNat, 20), (a.toNat, 15), (i.toNat, 0)] = ω := ⟨_, rfl⟩
  simp only [pack] at hω
  have h0 : bits ω 25 6 = 7 := by simp only [bits]; omega
  have f0 : fld ω 20 5 = d := fld_eq _ _ _ (by omega)
  have f1 : fld ω 15 5 = a := fld_eq _ _ _ (by omega)
  have f2 : fld ω 0 15 = i := fld_eq _ _ _ (by omega)
  exact of_control ω hω (by omega) (by simp only [bits]; omega) (by rw [control_7 h0]; simp [f0, f1, f2])

theorem shli (d : BitVec 5) (a : BitVec 5) (s : BitVec 6) : Statement (.shli d a s) := by
  have hd := d.isLt
  have ha := a.isLt
  have hs := s.isLt
  obtain ⟨ω, hω⟩ : ∃ ω, pack 0x10000000 [(d.toNat, 20), (a.toNat, 15), (s.toNat, 0)] = ω := ⟨_, rfl⟩
  simp only [pack] at hω
  have h0 : bits ω 25 6 = 8 := by simp only [bits]; omega
  have c0 : bits ω 6 9 = 0 := by simp only [bits]; omega
  have f0 : fld ω 20 5 = d := fld_eq _ _ _ (by omega)
  have f1 : fld ω 15 5 = a := fld_eq _ _ _ (by omega)
  have f2 : fld ω 0 6 = s := fld_eq _ _ _ (by omega)
  exact of_control ω hω (by omega) (by simp only [bits]; omega) (by rw [control_8 h0]; simp [c0, f0, f1, f2])

theorem shri (d : BitVec 5) (a : BitVec 5) (s : BitVec 6) : Statement (.shri d a s) := by
  have hd := d.isLt
  have ha := a.isLt
  have hs := s.isLt
  obtain ⟨ω, hω⟩ : ∃ ω, pack 0x10000040 [(d.toNat, 20), (a.toNat, 15), (s.toNat, 0)] = ω := ⟨_, rfl⟩
  simp only [pack] at hω
  have h0 : bits ω 25 6 = 8 := by simp only [bits]; omega
  have c0 : bits ω 6 9 = 1 := by simp only [bits]; omega
  have f0 : fld ω 20 5 = d := fld_eq _ _ _ (by omega)
  have f1 : fld ω 15 5 = a := fld_eq _ _ _ (by omega)
  have f2 : fld ω 0 6 = s := fld_eq _ _ _ (by omega)
  exact of_control ω hω (by omega) (by simp only [bits]; omega) (by rw [control_8 h0]; simp [c0, f0, f1, f2])

theorem sari (d : BitVec 5) (a : BitVec 5) (s : BitVec 6) : Statement (.sari d a s) := by
  have hd := d.isLt
  have ha := a.isLt
  have hs := s.isLt
  obtain ⟨ω, hω⟩ : ∃ ω, pack 0x10000080 [(d.toNat, 20), (a.toNat, 15), (s.toNat, 0)] = ω := ⟨_, rfl⟩
  simp only [pack] at hω
  have h0 : bits ω 25 6 = 8 := by simp only [bits]; omega
  have c0 : bits ω 6 9 = 2 := by simp only [bits]; omega
  have f0 : fld ω 20 5 = d := fld_eq _ _ _ (by omega)
  have f1 : fld ω 15 5 = a := fld_eq _ _ _ (by omega)
  have f2 : fld ω 0 6 = s := fld_eq _ _ _ (by omega)
  exact of_control ω hω (by omega) (by simp only [bits]; omega) (by rw [control_8 h0]; simp [c0, f0, f1, f2])

theorem slti (d : BitVec 5) (a : BitVec 5) (i : BitVec 15) : Statement (.slti d a i) := by
  have hd := d.isLt
  have ha := a.isLt
  have hi := i.isLt
  obtain ⟨ω, hω⟩ : ∃ ω, pack 0x12000000 [(d.toNat, 20), (a.toNat, 15), (i.toNat, 0)] = ω := ⟨_, rfl⟩
  simp only [pack] at hω
  have h0 : bits ω 25 6 = 9 := by simp only [bits]; omega
  have f0 : fld ω 20 5 = d := fld_eq _ _ _ (by omega)
  have f1 : fld ω 15 5 = a := fld_eq _ _ _ (by omega)
  have f2 : fld ω 0 15 = i := fld_eq _ _ _ (by omega)
  exact of_control ω hω (by omega) (by simp only [bits]; omega) (by rw [control_9 h0]; simp [f0, f1, f2])

theorem sltin (d : BitVec 5) (a : BitVec 5) (i : BitVec 15) : Statement (.sltin d a i) := by
  have hd := d.isLt
  have ha := a.isLt
  have hi := i.isLt
  obtain ⟨ω, hω⟩ : ∃ ω, pack 0x14000000 [(d.toNat, 20), (a.toNat, 15), (i.toNat, 0)] = ω := ⟨_, rfl⟩
  simp only [pack] at hω
  have h0 : bits ω 25 6 = 10 := by simp only [bits]; omega
  have f0 : fld ω 20 5 = d := fld_eq _ _ _ (by omega)
  have f1 : fld ω 15 5 = a := fld_eq _ _ _ (by omega)
  have f2 : fld ω 0 15 = i := fld_eq _ _ _ (by omega)
  exact of_control ω hω (by omega) (by simp only [bits]; omega) (by rw [control_10 h0]; simp [f0, f1, f2])

theorem lih (d : BitVec 5) (i : BitVec 20) : Statement (.lih d i) := by
  have hd := d.isLt
  have hi := i.isLt
  obtain ⟨ω, hω⟩ : ∃ ω, pack 0x16000000 [(d.toNat, 20), (i.toNat, 0)] = ω := ⟨_, rfl⟩
  simp only [pack] at hω
  have h0 : bits ω 25 6 = 11 := by simp only [bits]; omega
  have f0 : fld ω 20 5 = d := fld_eq _ _ _ (by omega)
  have f1 : fld ω 0 20 = i := fld_eq _ _ _ (by omega)
  exact of_control ω hω (by omega) (by simp only [bits]; omega) (by rw [control_11 h0]; simp [f0, f1])

theorem lix (d : BitVec 5) (i : BitVec 20) : Statement (.lix d i) := by
  have hd := d.isLt
  have hi := i.isLt
  obtain ⟨ω, hω⟩ : ∃ ω, pack 0x18000000 [(d.toNat, 20), (i.toNat, 0)] = ω := ⟨_, rfl⟩
  simp only [pack] at hω
  have h0 : bits ω 25 6 = 12 := by simp only [bits]; omega
  have f0 : fld ω 20 5 = d := fld_eq _ _ _ (by omega)
  have f1 : fld ω 0 20 = i := fld_eq _ _ _ (by omega)
  exact of_control ω hω (by omega) (by simp only [bits]; omega) (by rw [control_12 h0]; simp [f0, f1])

theorem beq (a : BitVec 5) (b : BitVec 5) (o : BitVec 15) : Statement (.beq a b o) := by
  have ha := a.isLt
  have hb := b.isLt
  have ho := o.isLt
  obtain ⟨ω, hω⟩ : ∃ ω, pack 0x20000000 [(a.toNat, 20), (b.toNat, 15), (o.toNat, 0)] = ω := ⟨_, rfl⟩
  simp only [pack] at hω
  have h0 : bits ω 25 6 = 16 := by simp only [bits]; omega
  have f0 : fld ω 20 5 = a := fld_eq _ _ _ (by omega)
  have f1 : fld ω 15 5 = b := fld_eq _ _ _ (by omega)
  have f2 : fld ω 0 15 = o := fld_eq _ _ _ (by omega)
  exact of_control ω hω (by omega) (by simp only [bits]; omega) (by rw [control_16 h0]; simp [f0, f1, f2])

theorem bne (a : BitVec 5) (b : BitVec 5) (o : BitVec 15) : Statement (.bne a b o) := by
  have ha := a.isLt
  have hb := b.isLt
  have ho := o.isLt
  obtain ⟨ω, hω⟩ : ∃ ω, pack 0x22000000 [(a.toNat, 20), (b.toNat, 15), (o.toNat, 0)] = ω := ⟨_, rfl⟩
  simp only [pack] at hω
  have h0 : bits ω 25 6 = 17 := by simp only [bits]; omega
  have f0 : fld ω 20 5 = a := fld_eq _ _ _ (by omega)
  have f1 : fld ω 15 5 = b := fld_eq _ _ _ (by omega)
  have f2 : fld ω 0 15 = o := fld_eq _ _ _ (by omega)
  exact of_control ω hω (by omega) (by simp only [bits]; omega) (by rw [control_17 h0]; simp [f0, f1, f2])

theorem blt (a : BitVec 5) (b : BitVec 5) (o : BitVec 15) : Statement (.blt a b o) := by
  have ha := a.isLt
  have hb := b.isLt
  have ho := o.isLt
  obtain ⟨ω, hω⟩ : ∃ ω, pack 0x24000000 [(a.toNat, 20), (b.toNat, 15), (o.toNat, 0)] = ω := ⟨_, rfl⟩
  simp only [pack] at hω
  have h0 : bits ω 25 6 = 18 := by simp only [bits]; omega
  have f0 : fld ω 20 5 = a := fld_eq _ _ _ (by omega)
  have f1 : fld ω 15 5 = b := fld_eq _ _ _ (by omega)
  have f2 : fld ω 0 15 = o := fld_eq _ _ _ (by omega)
  exact of_control ω hω (by omega) (by simp only [bits]; omega) (by rw [control_18 h0]; simp [f0, f1, f2])

theorem bge (a : BitVec 5) (b : BitVec 5) (o : BitVec 15) : Statement (.bge a b o) := by
  have ha := a.isLt
  have hb := b.isLt
  have ho := o.isLt
  obtain ⟨ω, hω⟩ : ∃ ω, pack 0x26000000 [(a.toNat, 20), (b.toNat, 15), (o.toNat, 0)] = ω := ⟨_, rfl⟩
  simp only [pack] at hω
  have h0 : bits ω 25 6 = 19 := by simp only [bits]; omega
  have f0 : fld ω 20 5 = a := fld_eq _ _ _ (by omega)
  have f1 : fld ω 15 5 = b := fld_eq _ _ _ (by omega)
  have f2 : fld ω 0 15 = o := fld_eq _ _ _ (by omega)
  exact of_control ω hω (by omega) (by simp only [bits]; omega) (by rw [control_19 h0]; simp [f0, f1, f2])

theorem bltn (a : BitVec 5) (b : BitVec 5) (o : BitVec 15) : Statement (.bltn a b o) := by
  have ha := a.isLt
  have hb := b.isLt
  have ho := o.isLt
  obtain ⟨ω, hω⟩ : ∃ ω, pack 0x28000000 [(a.toNat, 20), (b.toNat, 15), (o.toNat, 0)] = ω := ⟨_, rfl⟩
  simp only [pack] at hω
  have h0 : bits ω 25 6 = 20 := by simp only [bits]; omega
  have f0 : fld ω 20 5 = a := fld_eq _ _ _ (by omega)
  have f1 : fld ω 15 5 = b := fld_eq _ _ _ (by omega)
  have f2 : fld ω 0 15 = o := fld_eq _ _ _ (by omega)
  exact of_control ω hω (by omega) (by simp only [bits]; omega) (by rw [control_20 h0]; simp [f0, f1, f2])

theorem bgen (a : BitVec 5) (b : BitVec 5) (o : BitVec 15) : Statement (.bgen a b o) := by
  have ha := a.isLt
  have hb := b.isLt
  have ho := o.isLt
  obtain ⟨ω, hω⟩ : ∃ ω, pack 0x2A000000 [(a.toNat, 20), (b.toNat, 15), (o.toNat, 0)] = ω := ⟨_, rfl⟩
  simp only [pack] at hω
  have h0 : bits ω 25 6 = 21 := by simp only [bits]; omega
  have f0 : fld ω 20 5 = a := fld_eq _ _ _ (by omega)
  have f1 : fld ω 15 5 = b := fld_eq _ _ _ (by omega)
  have f2 : fld ω 0 15 = o := fld_eq _ _ _ (by omega)
  exact of_control ω hω (by omega) (by simp only [bits]; omega) (by rw [control_21 h0]; simp [f0, f1, f2])

theorem jal (d : BitVec 5) (o : BitVec 20) : Statement (.jal d o) := by
  have hd := d.isLt
  have ho := o.isLt
  obtain ⟨ω, hω⟩ : ∃ ω, pack 0x2C000000 [(d.toNat, 20), (o.toNat, 0)] = ω := ⟨_, rfl⟩
  simp only [pack] at hω
  have h0 : bits ω 25 6 = 22 := by simp only [bits]; omega
  have f0 : fld ω 20 5 = d := fld_eq _ _ _ (by omega)
  have f1 : fld ω 0 20 = o := fld_eq _ _ _ (by omega)
  exact of_control ω hω (by omega) (by simp only [bits]; omega) (by rw [control_22 h0]; simp [f0, f1])

theorem jalr (d : BitVec 5) (a : BitVec 5) (i : BitVec 15) : Statement (.jalr d a i) := by
  have hd := d.isLt
  have ha := a.isLt
  have hi := i.isLt
  obtain ⟨ω, hω⟩ : ∃ ω, pack 0x2E000000 [(d.toNat, 20), (a.toNat, 15), (i.toNat, 0)] = ω := ⟨_, rfl⟩
  simp only [pack] at hω
  have h0 : bits ω 25 6 = 23 := by simp only [bits]; omega
  have f0 : fld ω 20 5 = d := fld_eq _ _ _ (by omega)
  have f1 : fld ω 15 5 = a := fld_eq _ _ _ (by omega)
  have f2 : fld ω 0 15 = i := fld_eq _ _ _ (by omega)
  exact of_control ω hω (by omega) (by simp only [bits]; omega) (by rw [control_23 h0]; simp [f0, f1, f2])

theorem loopReg (a : BitVec 5) (n : BitVec 10) : Statement (.loopReg a n) := by
  have ha := a.isLt
  have hn := n.isLt
  obtain ⟨ω, hω⟩ : ∃ ω, pack 0x30000000 [(a.toNat, 15), (n.toNat, 5)] = ω := ⟨_, rfl⟩
  simp only [pack] at hω
  have h0 : bits ω 25 6 = 24 := by simp only [bits]; omega
  have c0 : bits ω 0 5 = 0 := by simp only [bits]; omega
  have c1 : bits ω 20 5 = 0 := by simp only [bits]; omega
  have f0 : fld ω 15 5 = a := fld_eq _ _ _ (by omega)
  have f1 : fld ω 5 10 = n := fld_eq _ _ _ (by omega)
  exact of_control ω hω (by omega) (by simp only [bits]; omega) (by rw [control_24 h0]; simp [c0, c1, f0, f1])

theorem loopImm (c : BitVec 15) (n : BitVec 10) : Statement (.loopImm c n) := by
  have hc := c.isLt
  have hn := n.isLt
  obtain ⟨ω, hω⟩ : ∃ ω, pack 0x32000000 [(c.toNat, 10), (n.toNat, 0)] = ω := ⟨_, rfl⟩
  simp only [pack] at hω
  have h0 : bits ω 25 6 = 25 := by simp only [bits]; omega
  have f0 : fld ω 10 15 = c := fld_eq _ _ _ (by omega)
  have f1 : fld ω 0 10 = n := fld_eq _ _ _ (by omega)
  exact of_control ω hω (by omega) (by simp only [bits]; omega) (by rw [control_25 h0]; simp [f0, f1])

theorem lexit : Statement .lexit := by
  obtain ⟨ω, hω⟩ : ∃ ω, pack 0x34000000 [] = ω := ⟨_, rfl⟩
  simp only [pack] at hω
  have h0 : bits ω 25 6 = 26 := by simp only [bits]; omega
  have c0 : bits ω 0 25 = 0 := by simp only [bits]; omega
  exact of_control ω hω (by omega) (by simp only [bits]; omega) (by rw [control_26 h0]; simp [c0])

theorem ldb (d : BitVec 5) (a : BitVec 5) (i : BitVec 15) : Statement (.ldb d a i) := by
  have hd := d.isLt
  have ha := a.isLt
  have hi := i.isLt
  obtain ⟨ω, hω⟩ : ∃ ω, pack 0x40000000 [(d.toNat, 20), (a.toNat, 15), (i.toNat, 0)] = ω := ⟨_, rfl⟩
  simp only [pack] at hω
  have h0 : bits ω 25 6 = 32 := by simp only [bits]; omega
  have f0 : fld ω 20 5 = d := fld_eq _ _ _ (by omega)
  have f1 : fld ω 15 5 = a := fld_eq _ _ _ (by omega)
  have f2 : fld ω 0 15 = i := fld_eq _ _ _ (by omega)
  exact of_control ω hω (by omega) (by simp only [bits]; omega) (by rw [control_32 h0]; simp [f0, f1, f2])

theorem ldbz (d : BitVec 5) (a : BitVec 5) (i : BitVec 15) : Statement (.ldbz d a i) := by
  have hd := d.isLt
  have ha := a.isLt
  have hi := i.isLt
  obtain ⟨ω, hω⟩ : ∃ ω, pack 0x42000000 [(d.toNat, 20), (a.toNat, 15), (i.toNat, 0)] = ω := ⟨_, rfl⟩
  simp only [pack] at hω
  have h0 : bits ω 25 6 = 33 := by simp only [bits]; omega
  have f0 : fld ω 20 5 = d := fld_eq _ _ _ (by omega)
  have f1 : fld ω 15 5 = a := fld_eq _ _ _ (by omega)
  have f2 : fld ω 0 15 = i := fld_eq _ _ _ (by omega)
  exact of_control ω hω (by omega) (by simp only [bits]; omega) (by rw [control_33 h0]; simp [f0, f1, f2])

theorem ldh (d : BitVec 5) (a : BitVec 5) (i : BitVec 15) : Statement (.ldh d a i) := by
  have hd := d.isLt
  have ha := a.isLt
  have hi := i.isLt
  obtain ⟨ω, hω⟩ : ∃ ω, pack 0x44000000 [(d.toNat, 20), (a.toNat, 15), (i.toNat, 0)] = ω := ⟨_, rfl⟩
  simp only [pack] at hω
  have h0 : bits ω 25 6 = 34 := by simp only [bits]; omega
  have f0 : fld ω 20 5 = d := fld_eq _ _ _ (by omega)
  have f1 : fld ω 15 5 = a := fld_eq _ _ _ (by omega)
  have f2 : fld ω 0 15 = i := fld_eq _ _ _ (by omega)
  exact of_control ω hω (by omega) (by simp only [bits]; omega) (by rw [control_34 h0]; simp [f0, f1, f2])

theorem ldhz (d : BitVec 5) (a : BitVec 5) (i : BitVec 15) : Statement (.ldhz d a i) := by
  have hd := d.isLt
  have ha := a.isLt
  have hi := i.isLt
  obtain ⟨ω, hω⟩ : ∃ ω, pack 0x46000000 [(d.toNat, 20), (a.toNat, 15), (i.toNat, 0)] = ω := ⟨_, rfl⟩
  simp only [pack] at hω
  have h0 : bits ω 25 6 = 35 := by simp only [bits]; omega
  have f0 : fld ω 20 5 = d := fld_eq _ _ _ (by omega)
  have f1 : fld ω 15 5 = a := fld_eq _ _ _ (by omega)
  have f2 : fld ω 0 15 = i := fld_eq _ _ _ (by omega)
  exact of_control ω hω (by omega) (by simp only [bits]; omega) (by rw [control_35 h0]; simp [f0, f1, f2])

theorem ldw (d : BitVec 5) (a : BitVec 5) (i : BitVec 15) : Statement (.ldw d a i) := by
  have hd := d.isLt
  have ha := a.isLt
  have hi := i.isLt
  obtain ⟨ω, hω⟩ : ∃ ω, pack 0x48000000 [(d.toNat, 20), (a.toNat, 15), (i.toNat, 0)] = ω := ⟨_, rfl⟩
  simp only [pack] at hω
  have h0 : bits ω 25 6 = 36 := by simp only [bits]; omega
  have f0 : fld ω 20 5 = d := fld_eq _ _ _ (by omega)
  have f1 : fld ω 15 5 = a := fld_eq _ _ _ (by omega)
  have f2 : fld ω 0 15 = i := fld_eq _ _ _ (by omega)
  exact of_control ω hω (by omega) (by simp only [bits]; omega) (by rw [control_36 h0]; simp [f0, f1, f2])

theorem ldwz (d : BitVec 5) (a : BitVec 5) (i : BitVec 15) : Statement (.ldwz d a i) := by
  have hd := d.isLt
  have ha := a.isLt
  have hi := i.isLt
  obtain ⟨ω, hω⟩ : ∃ ω, pack 0x4A000000 [(d.toNat, 20), (a.toNat, 15), (i.toNat, 0)] = ω := ⟨_, rfl⟩
  simp only [pack] at hω
  have h0 : bits ω 25 6 = 37 := by simp only [bits]; omega
  have f0 : fld ω 20 5 = d := fld_eq _ _ _ (by omega)
  have f1 : fld ω 15 5 = a := fld_eq _ _ _ (by omega)
  have f2 : fld ω 0 15 = i := fld_eq _ _ _ (by omega)
  exact of_control ω hω (by omega) (by simp only [bits]; omega) (by rw [control_37 h0]; simp [f0, f1, f2])

theorem ldd (d : BitVec 5) (a : BitVec 5) (i : BitVec 15) : Statement (.ldd d a i) := by
  have hd := d.isLt
  have ha := a.isLt
  have hi := i.isLt
  obtain ⟨ω, hω⟩ : ∃ ω, pack 0x4C000000 [(d.toNat, 20), (a.toNat, 15), (i.toNat, 0)] = ω := ⟨_, rfl⟩
  simp only [pack] at hω
  have h0 : bits ω 25 6 = 38 := by simp only [bits]; omega
  have f0 : fld ω 20 5 = d := fld_eq _ _ _ (by omega)
  have f1 : fld ω 15 5 = a := fld_eq _ _ _ (by omega)
  have f2 : fld ω 0 15 = i := fld_eq _ _ _ (by omega)
  exact of_control ω hω (by omega) (by simp only [bits]; omega) (by rw [control_38 h0]; simp [f0, f1, f2])

theorem stb (a : BitVec 5) (b : BitVec 5) (o : BitVec 15) : Statement (.stb a b o) := by
  have ha := a.isLt
  have hb := b.isLt
  have ho := o.isLt
  obtain ⟨ω, hω⟩ : ∃ ω, pack 0x50000000 [(a.toNat, 20), (b.toNat, 15), (o.toNat, 0)] = ω := ⟨_, rfl⟩
  simp only [pack] at hω
  have h0 : bits ω 25 6 = 40 := by simp only [bits]; omega
  have f0 : fld ω 20 5 = a := fld_eq _ _ _ (by omega)
  have f1 : fld ω 15 5 = b := fld_eq _ _ _ (by omega)
  have f2 : fld ω 0 15 = o := fld_eq _ _ _ (by omega)
  exact of_control ω hω (by omega) (by simp only [bits]; omega) (by rw [control_40 h0]; simp [f0, f1, f2])

theorem sth (a : BitVec 5) (b : BitVec 5) (o : BitVec 15) : Statement (.sth a b o) := by
  have ha := a.isLt
  have hb := b.isLt
  have ho := o.isLt
  obtain ⟨ω, hω⟩ : ∃ ω, pack 0x52000000 [(a.toNat, 20), (b.toNat, 15), (o.toNat, 0)] = ω := ⟨_, rfl⟩
  simp only [pack] at hω
  have h0 : bits ω 25 6 = 41 := by simp only [bits]; omega
  have f0 : fld ω 20 5 = a := fld_eq _ _ _ (by omega)
  have f1 : fld ω 15 5 = b := fld_eq _ _ _ (by omega)
  have f2 : fld ω 0 15 = o := fld_eq _ _ _ (by omega)
  exact of_control ω hω (by omega) (by simp only [bits]; omega) (by rw [control_41 h0]; simp [f0, f1, f2])

theorem stw (a : BitVec 5) (b : BitVec 5) (o : BitVec 15) : Statement (.stw a b o) := by
  have ha := a.isLt
  have hb := b.isLt
  have ho := o.isLt
  obtain ⟨ω, hω⟩ : ∃ ω, pack 0x54000000 [(a.toNat, 20), (b.toNat, 15), (o.toNat, 0)] = ω := ⟨_, rfl⟩
  simp only [pack] at hω
  have h0 : bits ω 25 6 = 42 := by simp only [bits]; omega
  have f0 : fld ω 20 5 = a := fld_eq _ _ _ (by omega)
  have f1 : fld ω 15 5 = b := fld_eq _ _ _ (by omega)
  have f2 : fld ω 0 15 = o := fld_eq _ _ _ (by omega)
  exact of_control ω hω (by omega) (by simp only [bits]; omega) (by rw [control_42 h0]; simp [f0, f1, f2])

theorem std (a : BitVec 5) (b : BitVec 5) (o : BitVec 15) : Statement (.std a b o) := by
  have ha := a.isLt
  have hb := b.isLt
  have ho := o.isLt
  obtain ⟨ω, hω⟩ : ∃ ω, pack 0x56000000 [(a.toNat, 20), (b.toNat, 15), (o.toNat, 0)] = ω := ⟨_, rfl⟩
  simp only [pack] at hω
  have h0 : bits ω 25 6 = 43 := by simp only [bits]; omega
  have f0 : fld ω 20 5 = a := fld_eq _ _ _ (by omega)
  have f1 : fld ω 15 5 = b := fld_eq _ _ _ (by omega)
  have f2 : fld ω 0 15 = o := fld_eq _ _ _ (by omega)
  exact of_control ω hω (by omega) (by simp only [bits]; omega) (by rw [control_43 h0]; simp [f0, f1, f2])

theorem qpush (a : BitVec 5) : Statement (.qpush a) := by
  have ha := a.isLt
  obtain ⟨ω, hω⟩ : ∃ ω, pack 0x58000000 [(a.toNat, 15)] = ω := ⟨_, rfl⟩
  simp only [pack] at hω
  have h0 : bits ω 25 6 = 44 := by simp only [bits]; omega
  have c0 : bits ω 0 15 = 0 := by simp only [bits]; omega
  have c1 : bits ω 20 5 = 0 := by simp only [bits]; omega
  have f0 : fld ω 15 5 = a := fld_eq _ _ _ (by omega)
  exact of_control ω hω (by omega) (by simp only [bits]; omega) (by rw [control_44 h0]; simp [c0, c1, f0])

theorem qpop (d : BitVec 5) : Statement (.qpop d) := by
  have hd := d.isLt
  obtain ⟨ω, hω⟩ : ∃ ω, pack 0x5A000000 [(d.toNat, 20)] = ω := ⟨_, rfl⟩
  simp only [pack] at hω
  have h0 : bits ω 25 6 = 45 := by simp only [bits]; omega
  have c0 : bits ω 0 20 = 0 := by simp only [bits]; omega
  have f0 : fld ω 20 5 = d := fld_eq _ _ _ (by omega)
  exact of_control ω hω (by omega) (by simp only [bits]; omega) (by rw [control_45 h0]; simp [c0, f0])

theorem csrr (d : BitVec 5) (c : BitVec 12) : Statement (.csrr d c) := by
  have hd := d.isLt
  have hc := c.isLt
  obtain ⟨ω, hω⟩ : ∃ ω, pack 0x60000000 [(d.toNat, 20), (c.toNat, 0)] = ω := ⟨_, rfl⟩
  simp only [pack] at hω
  have h0 : bits ω 25 6 = 48 := by simp only [bits]; omega
  have c0 : bits ω 12 8 = 0 := by simp only [bits]; omega
  have f0 : fld ω 20 5 = d := fld_eq _ _ _ (by omega)
  have f1 : fld ω 0 12 = c := fld_eq _ _ _ (by omega)
  exact of_control ω hω (by omega) (by simp only [bits]; omega) (by rw [control_48 h0]; simp [c0, f0, f1])

theorem csrw (d : BitVec 5) (a : BitVec 5) (c : BitVec 12) : Statement (.csrw d a c) := by
  have hd := d.isLt
  have ha := a.isLt
  have hc := c.isLt
  obtain ⟨ω, hω⟩ : ∃ ω, pack 0x60001000 [(d.toNat, 20), (a.toNat, 15), (c.toNat, 0)] = ω := ⟨_, rfl⟩
  simp only [pack] at hω
  have h0 : bits ω 25 6 = 48 := by simp only [bits]; omega
  have c0 : ¬ bits ω 12 8 = 0 := by simp only [bits]; omega
  have c1 : bits ω 12 3 = 1 := by simp only [bits]; omega
  have f0 : fld ω 20 5 = d := fld_eq _ _ _ (by omega)
  have f1 : fld ω 15 5 = a := fld_eq _ _ _ (by omega)
  have f2 : fld ω 0 12 = c := fld_eq _ _ _ (by omega)
  exact of_control ω hω (by omega) (by simp only [bits]; omega) (by rw [control_48 h0]; simp [c0, c1, f0, f1, f2])

theorem csrs (d : BitVec 5) (a : BitVec 5) (c : BitVec 12) : Statement (.csrs d a c) := by
  have hd := d.isLt
  have ha := a.isLt
  have hc := c.isLt
  obtain ⟨ω, hω⟩ : ∃ ω, pack 0x60002000 [(d.toNat, 20), (a.toNat, 15), (c.toNat, 0)] = ω := ⟨_, rfl⟩
  simp only [pack] at hω
  have h0 : bits ω 25 6 = 48 := by simp only [bits]; omega
  have c0 : ¬ bits ω 12 8 = 0 := by simp only [bits]; omega
  have c1 : bits ω 12 3 = 2 := by simp only [bits]; omega
  have f0 : fld ω 20 5 = d := fld_eq _ _ _ (by omega)
  have f1 : fld ω 15 5 = a := fld_eq _ _ _ (by omega)
  have f2 : fld ω 0 12 = c := fld_eq _ _ _ (by omega)
  exact of_control ω hω (by omega) (by simp only [bits]; omega) (by rw [control_48 h0]; simp [c0, c1, f0, f1, f2])

theorem csrc (d : BitVec 5) (a : BitVec 5) (c : BitVec 12) : Statement (.csrc d a c) := by
  have hd := d.isLt
  have ha := a.isLt
  have hc := c.isLt
  obtain ⟨ω, hω⟩ : ∃ ω, pack 0x60003000 [(d.toNat, 20), (a.toNat, 15), (c.toNat, 0)] = ω := ⟨_, rfl⟩
  simp only [pack] at hω
  have h0 : bits ω 25 6 = 48 := by simp only [bits]; omega
  have c0 : ¬ bits ω 12 8 = 0 := by simp only [bits]; omega
  have c1 : bits ω 12 3 = 3 := by simp only [bits]; omega
  have f0 : fld ω 20 5 = d := fld_eq _ _ _ (by omega)
  have f1 : fld ω 15 5 = a := fld_eq _ _ _ (by omega)
  have f2 : fld ω 0 12 = c := fld_eq _ _ _ (by omega)
  exact of_control ω hω (by omega) (by simp only [bits]; omega) (by rw [control_48 h0]; simp [c0, c1, f0, f1, f2])

theorem userTrap (c : BitVec 15) : Statement (.userTrap c) := by
  have hc := c.isLt
  obtain ⟨ω, hω⟩ : ∃ ω, pack 0x62000000 [(c.toNat, 10)] = ω := ⟨_, rfl⟩
  simp only [pack] at hω
  have h0 : bits ω 25 6 = 49 := by simp only [bits]; omega
  have c0 : bits ω 0 10 = 0 := by simp only [bits]; omega
  have f0 : fld ω 10 15 = c := fld_eq _ _ _ (by omega)
  exact of_control ω hω (by omega) (by simp only [bits]; omega) (by rw [control_49 h0]; simp [c0, f0])

theorem tret : Statement .tret := by
  obtain ⟨ω, hω⟩ : ∃ ω, pack 0x62000001 [] = ω := ⟨_, rfl⟩
  simp only [pack] at hω
  have h0 : bits ω 25 6 = 49 := by simp only [bits]; omega
  have c0 : ¬ bits ω 0 10 = 0 := by simp only [bits]; omega
  have c1 : bits ω 0 25 = 1 := by simp only [bits]; omega
  exact of_control ω hω (by omega) (by simp only [bits]; omega) (by rw [control_49 h0]; simp [c0, c1])

theorem uiret : Statement .uiret := by
  obtain ⟨ω, hω⟩ : ∃ ω, pack 0x62000002 [] = ω := ⟨_, rfl⟩
  simp only [pack] at hω
  have h0 : bits ω 25 6 = 49 := by simp only [bits]; omega
  have c0 : ¬ bits ω 0 10 = 0 := by simp only [bits]; omega
  have c1 : bits ω 0 25 = 2 := by simp only [bits]; omega
  exact of_control ω hω (by omega) (by simp only [bits]; omega) (by rw [control_49 h0]; simp [c0, c1])

theorem wfi : Statement .wfi := by
  obtain ⟨ω, hω⟩ : ∃ ω, pack 0x62000003 [] = ω := ⟨_, rfl⟩
  simp only [pack] at hω
  have h0 : bits ω 25 6 = 49 := by simp only [bits]; omega
  have c0 : ¬ bits ω 0 10 = 0 := by simp only [bits]; omega
  have c1 : bits ω 0 25 = 3 := by simp only [bits]; omega
  exact of_control ω hω (by omega) (by simp only [bits]; omega) (by rw [control_49 h0]; simp [c0, c1])

theorem breakpt (c : BitVec 15) : Statement (.breakpt c) := by
  have hc := c.isLt
  obtain ⟨ω, hω⟩ : ∃ ω, pack 0x62000004 [(c.toNat, 10)] = ω := ⟨_, rfl⟩
  simp only [pack] at hω
  have h0 : bits ω 25 6 = 49 := by simp only [bits]; omega
  have c0 : ¬ bits ω 0 25 = 1 := by simp only [bits]; omega
  have c1 : ¬ bits ω 0 25 = 2 := by simp only [bits]; omega
  have c2 : ¬ bits ω 0 25 = 3 := by simp only [bits]; omega
  have c3 : bits ω 0 10 = 4 := by simp only [bits]; omega
  have f0 : fld ω 10 15 = c := fld_eq _ _ _ (by omega)
  exact of_control ω hω (by omega) (by simp only [bits]; omega) (by rw [control_49 h0]; simp [c0, c1, c2, c3, f0])

theorem exitThread : Statement .exitThread := by
  obtain ⟨ω, hω⟩ : ∃ ω, pack 0x62000005 [] = ω := ⟨_, rfl⟩
  simp only [pack] at hω
  have h0 : bits ω 25 6 = 49 := by simp only [bits]; omega
  have c0 : ¬ bits ω 0 10 = 0 := by simp only [bits]; omega
  have c1 : ¬ bits ω 0 10 = 4 := by simp only [bits]; omega
  have c2 : bits ω 0 25 = 5 := by simp only [bits]; omega
  exact of_control ω hω (by omega) (by simp only [bits]; omega) (by rw [control_49 h0]; simp [c0, c1, c2])

theorem amadd (o : BitVec 2) (s : BitVec 3) (d : BitVec 5) (a : BitVec 5) (b : BitVec 5) (z : BitVec 2) (r : BitVec 1) : Statement (.amadd o s d a b z r) := by
  have ho := o.isLt
  have hs := s.isLt
  have hd := d.isLt
  have ha := a.isLt
  have hb := b.isLt
  have hz := z.isLt
  have hr := r.isLt
  obtain ⟨ω, hω⟩ : ∃ ω, pack 0x80000000 [(o.toNat, 23), (s.toNat, 20), (d.toNat, 15), (a.toNat, 10), (b.toNat, 5), (z.toNat, 3), (r.toNat, 1)] = ω := ⟨_, rfl⟩
  simp only [pack] at hω
  have h0 : bits ω 25 6 = 0 := by simp only [bits]; omega
  have c0 : bits ω 0 1 = 0 := by simp only [bits]; omega
  have c1 : bits ω 2 1 = 0 := by simp only [bits]; omega
  have f0 : fld ω 23 2 = o := fld_eq _ _ _ (by omega)
  have f1 : fld ω 20 3 = s := fld_eq _ _ _ (by omega)
  have f2 : fld ω 15 5 = d := fld_eq _ _ _ (by omega)
  have f3 : fld ω 10 5 = a := fld_eq _ _ _ (by omega)
  have f4 : fld ω 5 5 = b := fld_eq _ _ _ (by omega)
  have f5 : fld ω 3 2 = z := fld_eq _ _ _ (by omega)
  have f6 : fld ω 1 1 = r := fld_eq _ _ _ (by omega)
  exact of_cPriv rfl ω hω (by omega) (by simp only [bits]; omega) (by rw [cPriv_0 h0]; simp [c0, c1, f0, f1, f2, f3, f4, f5, f6])

theorem ammin (o : BitVec 2) (s : BitVec 3) (d : BitVec 5) (a : BitVec 5) (b : BitVec 5) (z : BitVec 2) (r : BitVec 1) : Statement (.ammin o s d a b z r) := by
  have ho := o.isLt
  have hs := s.isLt
  have hd := d.isLt
  have ha := a.isLt
  have hb := b.isLt
  have hz := z.isLt
  have hr := r.isLt
  obtain ⟨ω, hω⟩ : ∃ ω, pack 0x82000000 [(o.toNat, 23), (s.toNat, 20), (d.toNat, 15), (a.toNat, 10), (b.toNat, 5), (z.toNat, 3), (r.toNat, 1)] = ω := ⟨_, rfl⟩
  simp only [pack] at hω
  have h0 : bits ω 25 6 = 1 := by simp only [bits]; omega
  have c0 : bits ω 0 1 = 0 := by simp only [bits]; omega
  have c1 : bits ω 2 1 = 0 := by simp only [bits]; omega
  have f0 : fld ω 23 2 = o := fld_eq _ _ _ (by omega)
  have f1 : fld ω 20 3 = s := fld_eq _ _ _ (by omega)
  have f2 : fld ω 15 5 = d := fld_eq _ _ _ (by omega)
  have f3 : fld ω 10 5 = a := fld_eq _ _ _ (by omega)
  have f4 : fld ω 5 5 = b := fld_eq _ _ _ (by omega)
  have f5 : fld ω 3 2 = z := fld_eq _ _ _ (by omega)
  have f6 : fld ω 1 1 = r := fld_eq _ _ _ (by omega)
  exact of_cPriv rfl ω hω (by omega) (by simp only [bits]; omega) (by rw [cPriv_1 h0]; simp [c0, c1, f0, f1, f2, f3, f4, f5, f6])

theorem amminn (o : BitVec 2) (s : BitVec 3) (d : BitVec 5) (a : BitVec 5) (b : BitVec 5) (z : BitVec 2) (r : BitVec 1) : Statement (.amminn o s d a b z r) := by
  have ho := o.isLt
  have hs := s.isLt
  have hd := d.isLt
  have ha := a.isLt
  have hb := b.isLt
  have hz := z.isLt
  have hr := r.isLt
  obtain ⟨ω, hω⟩ : ∃ ω, pack 0x82000004 [(o.toNat, 23), (s.toNat, 20), (d.toNat, 15), (a.toNat, 10), (b.toNat, 5), (z.toNat, 3), (r.toNat, 1)] = ω := ⟨_, rfl⟩
  simp only [pack] at hω
  have h0 : bits ω 25 6 = 1 := by simp only [bits]; omega
  have c0 : bits ω 0 1 = 0 := by simp only [bits]; omega
  have c1 : bits ω 2 1 = 1 := by simp only [bits]; omega
  have f0 : fld ω 23 2 = o := fld_eq _ _ _ (by omega)
  have f1 : fld ω 20 3 = s := fld_eq _ _ _ (by omega)
  have f2 : fld ω 15 5 = d := fld_eq _ _ _ (by omega)
  have f3 : fld ω 10 5 = a := fld_eq _ _ _ (by omega)
  have f4 : fld ω 5 5 = b := fld_eq _ _ _ (by omega)
  have f5 : fld ω 3 2 = z := fld_eq _ _ _ (by omega)
  have f6 : fld ω 1 1 = r := fld_eq _ _ _ (by omega)
  exact of_cPriv rfl ω hω (by omega) (by simp only [bits]; omega) (by rw [cPriv_1 h0]; simp [c0, c1, f0, f1, f2, f3, f4, f5, f6])

theorem ammax (o : BitVec 2) (s : BitVec 3) (d : BitVec 5) (a : BitVec 5) (b : BitVec 5) (z : BitVec 2) (r : BitVec 1) : Statement (.ammax o s d a b z r) := by
  have ho := o.isLt
  have hs := s.isLt
  have hd := d.isLt
  have ha := a.isLt
  have hb := b.isLt
  have hz := z.isLt
  have hr := r.isLt
  obtain ⟨ω, hω⟩ : ∃ ω, pack 0x84000000 [(o.toNat, 23), (s.toNat, 20), (d.toNat, 15), (a.toNat, 10), (b.toNat, 5), (z.toNat, 3), (r.toNat, 1)] = ω := ⟨_, rfl⟩
  simp only [pack] at hω
  have h0 : bits ω 25 6 = 2 := by simp only [bits]; omega
  have c0 : bits ω 0 1 = 0 := by simp only [bits]; omega
  have c1 : bits ω 2 1 = 0 := by simp only [bits]; omega
  have f0 : fld ω 23 2 = o := fld_eq _ _ _ (by omega)
  have f1 : fld ω 20 3 = s := fld_eq _ _ _ (by omega)
  have f2 : fld ω 15 5 = d := fld_eq _ _ _ (by omega)
  have f3 : fld ω 10 5 = a := fld_eq _ _ _ (by omega)
  have f4 : fld ω 5 5 = b := fld_eq _ _ _ (by omega)
  have f5 : fld ω 3 2 = z := fld_eq _ _ _ (by omega)
  have f6 : fld ω 1 1 = r := fld_eq _ _ _ (by omega)
  exact of_cPriv rfl ω hω (by omega) (by simp only [bits]; omega) (by rw [cPriv_2 h0]; simp [c0, c1, f0, f1, f2, f3, f4, f5, f6])

theorem ammaxn (o : BitVec 2) (s : BitVec 3) (d : BitVec 5) (a : BitVec 5) (b : BitVec 5) (z : BitVec 2) (r : BitVec 1) : Statement (.ammaxn o s d a b z r) := by
  have ho := o.isLt
  have hs := s.isLt
  have hd := d.isLt
  have ha := a.isLt
  have hb := b.isLt
  have hz := z.isLt
  have hr := r.isLt
  obtain ⟨ω, hω⟩ : ∃ ω, pack 0x84000004 [(o.toNat, 23), (s.toNat, 20), (d.toNat, 15), (a.toNat, 10), (b.toNat, 5), (z.toNat, 3), (r.toNat, 1)] = ω := ⟨_, rfl⟩
  simp only [pack] at hω
  have h0 : bits ω 25 6 = 2 := by simp only [bits]; omega
  have c0 : bits ω 0 1 = 0 := by simp only [bits]; omega
  have c1 : bits ω 2 1 = 1 := by simp only [bits]; omega
  have f0 : fld ω 23 2 = o := fld_eq _ _ _ (by omega)
  have f1 : fld ω 20 3 = s := fld_eq _ _ _ (by omega)
  have f2 : fld ω 15 5 = d := fld_eq _ _ _ (by omega)
  have f3 : fld ω 10 5 = a := fld_eq _ _ _ (by omega)
  have f4 : fld ω 5 5 = b := fld_eq _ _ _ (by omega)
  have f5 : fld ω 3 2 = z := fld_eq _ _ _ (by omega)
  have f6 : fld ω 1 1 = r := fld_eq _ _ _ (by omega)
  exact of_cPriv rfl ω hω (by omega) (by simp only [bits]; omega) (by rw [cPriv_2 h0]; simp [c0, c1, f0, f1, f2, f3, f4, f5, f6])

theorem amand (o : BitVec 2) (s : BitVec 3) (d : BitVec 5) (a : BitVec 5) (b : BitVec 5) (z : BitVec 2) (r : BitVec 1) : Statement (.amand o s d a b z r) := by
  have ho := o.isLt
  have hs := s.isLt
  have hd := d.isLt
  have ha := a.isLt
  have hb := b.isLt
  have hz := z.isLt
  have hr := r.isLt
  obtain ⟨ω, hω⟩ : ∃ ω, pack 0x86000000 [(o.toNat, 23), (s.toNat, 20), (d.toNat, 15), (a.toNat, 10), (b.toNat, 5), (z.toNat, 3), (r.toNat, 1)] = ω := ⟨_, rfl⟩
  simp only [pack] at hω
  have h0 : bits ω 25 6 = 3 := by simp only [bits]; omega
  have c0 : bits ω 0 1 = 0 := by simp only [bits]; omega
  have c1 : bits ω 2 1 = 0 := by simp only [bits]; omega
  have f0 : fld ω 23 2 = o := fld_eq _ _ _ (by omega)
  have f1 : fld ω 20 3 = s := fld_eq _ _ _ (by omega)
  have f2 : fld ω 15 5 = d := fld_eq _ _ _ (by omega)
  have f3 : fld ω 10 5 = a := fld_eq _ _ _ (by omega)
  have f4 : fld ω 5 5 = b := fld_eq _ _ _ (by omega)
  have f5 : fld ω 3 2 = z := fld_eq _ _ _ (by omega)
  have f6 : fld ω 1 1 = r := fld_eq _ _ _ (by omega)
  exact of_cPriv rfl ω hω (by omega) (by simp only [bits]; omega) (by rw [cPriv_3 h0]; simp [c0, c1, f0, f1, f2, f3, f4, f5, f6])

theorem amor (o : BitVec 2) (s : BitVec 3) (d : BitVec 5) (a : BitVec 5) (b : BitVec 5) (z : BitVec 2) (r : BitVec 1) : Statement (.amor o s d a b z r) := by
  have ho := o.isLt
  have hs := s.isLt
  have hd := d.isLt
  have ha := a.isLt
  have hb := b.isLt
  have hz := z.isLt
  have hr := r.isLt
  obtain ⟨ω, hω⟩ : ∃ ω, pack 0x88000000 [(o.toNat, 23), (s.toNat, 20), (d.toNat, 15), (a.toNat, 10), (b.toNat, 5), (z.toNat, 3), (r.toNat, 1)] = ω := ⟨_, rfl⟩
  simp only [pack] at hω
  have h0 : bits ω 25 6 = 4 := by simp only [bits]; omega
  have c0 : bits ω 0 1 = 0 := by simp only [bits]; omega
  have c1 : bits ω 2 1 = 0 := by simp only [bits]; omega
  have f0 : fld ω 23 2 = o := fld_eq _ _ _ (by omega)
  have f1 : fld ω 20 3 = s := fld_eq _ _ _ (by omega)
  have f2 : fld ω 15 5 = d := fld_eq _ _ _ (by omega)
  have f3 : fld ω 10 5 = a := fld_eq _ _ _ (by omega)
  have f4 : fld ω 5 5 = b := fld_eq _ _ _ (by omega)
  have f5 : fld ω 3 2 = z := fld_eq _ _ _ (by omega)
  have f6 : fld ω 1 1 = r := fld_eq _ _ _ (by omega)
  exact of_cPriv rfl ω hω (by omega) (by simp only [bits]; omega) (by rw [cPriv_4 h0]; simp [c0, c1, f0, f1, f2, f3, f4, f5, f6])

theorem amxor (o : BitVec 2) (s : BitVec 3) (d : BitVec 5) (a : BitVec 5) (b : BitVec 5) (z : BitVec 2) (r : BitVec 1) : Statement (.amxor o s d a b z r) := by
  have ho := o.isLt
  have hs := s.isLt
  have hd := d.isLt
  have ha := a.isLt
  have hb := b.isLt
  have hz := z.isLt
  have hr := r.isLt
  obtain ⟨ω, hω⟩ : ∃ ω, pack 0x8A000000 [(o.toNat, 23), (s.toNat, 20), (d.toNat, 15), (a.toNat, 10), (b.toNat, 5), (z.toNat, 3), (r.toNat, 1)] = ω := ⟨_, rfl⟩
  simp only [pack] at hω
  have h0 : bits ω 25 6 = 5 := by simp only [bits]; omega
  have c0 : bits ω 0 1 = 0 := by simp only [bits]; omega
  have c1 : bits ω 2 1 = 0 := by simp only [bits]; omega
  have f0 : fld ω 23 2 = o := fld_eq _ _ _ (by omega)
  have f1 : fld ω 20 3 = s := fld_eq _ _ _ (by omega)
  have f2 : fld ω 15 5 = d := fld_eq _ _ _ (by omega)
  have f3 : fld ω 10 5 = a := fld_eq _ _ _ (by omega)
  have f4 : fld ω 5 5 = b := fld_eq _ _ _ (by omega)
  have f5 : fld ω 3 2 = z := fld_eq _ _ _ (by omega)
  have f6 : fld ω 1 1 = r := fld_eq _ _ _ (by omega)
  exact of_cPriv rfl ω hω (by omega) (by simp only [bits]; omega) (by rw [cPriv_5 h0]; simp [c0, c1, f0, f1, f2, f3, f4, f5, f6])

theorem amswap (o : BitVec 2) (s : BitVec 3) (d : BitVec 5) (a : BitVec 5) (b : BitVec 5) (z : BitVec 2) (r : BitVec 1) : Statement (.amswap o s d a b z r) := by
  have ho := o.isLt
  have hs := s.isLt
  have hd := d.isLt
  have ha := a.isLt
  have hb := b.isLt
  have hz := z.isLt
  have hr := r.isLt
  obtain ⟨ω, hω⟩ : ∃ ω, pack 0x8C000000 [(o.toNat, 23), (s.toNat, 20), (d.toNat, 15), (a.toNat, 10), (b.toNat, 5), (z.toNat, 3), (r.toNat, 1)] = ω := ⟨_, rfl⟩
  simp only [pack] at hω
  have h0 : bits ω 25 6 = 6 := by simp only [bits]; omega
  have c0 : bits ω 0 1 = 0 := by simp only [bits]; omega
  have c1 : bits ω 2 1 = 0 := by simp only [bits]; omega
  have f0 : fld ω 23 2 = o := fld_eq _ _ _ (by omega)
  have f1 : fld ω 20 3 = s := fld_eq _ _ _ (by omega)
  have f2 : fld ω 15 5 = d := fld_eq _ _ _ (by omega)
  have f3 : fld ω 10 5 = a := fld_eq _ _ _ (by omega)
  have f4 : fld ω 5 5 = b := fld_eq _ _ _ (by omega)
  have f5 : fld ω 3 2 = z := fld_eq _ _ _ (by omega)
  have f6 : fld ω 1 1 = r := fld_eq _ _ _ (by omega)
  exact of_cPriv rfl ω hω (by omega) (by simp only [bits]; omega) (by rw [cPriv_6 h0]; simp [c0, c1, f0, f1, f2, f3, f4, f5, f6])

theorem amcas (o : BitVec 2) (s : BitVec 3) (d : BitVec 5) (a : BitVec 5) (b : BitVec 5) (z : BitVec 2) (r : BitVec 1) : Statement (.amcas o s d a b z r) := by
  have ho := o.isLt
  have hs := s.isLt
  have hd := d.isLt
  have ha := a.isLt
  have hb := b.isLt
  have hz := z.isLt
  have hr := r.isLt
  obtain ⟨ω, hω⟩ : ∃ ω, pack 0x8E000000 [(o.toNat, 23), (s.toNat, 20), (d.toNat, 15), (a.toNat, 10), (b.toNat, 5), (z.toNat, 3), (r.toNat, 1)] = ω := ⟨_, rfl⟩
  simp only [pack] at hω
  have h0 : bits ω 25 6 = 7 := by simp only [bits]; omega
  have c0 : bits ω 0 1 = 0 := by simp only [bits]; omega
  have c1 : bits ω 2 1 = 0 := by simp only [bits]; omega
  have f0 : fld ω 23 2 = o := fld_eq _ _ _ (by omega)
  have f1 : fld ω 20 3 = s := fld_eq _ _ _ (by omega)
  have f2 : fld ω 15 5 = d := fld_eq _ _ _ (by omega)
  have f3 : fld ω 10 5 = a := fld_eq _ _ _ (by omega)
  have f4 : fld ω 5 5 = b := fld_eq _ _ _ (by omega)
  have f5 : fld ω 3 2 = z := fld_eq _ _ _ (by omega)
  have f6 : fld ω 1 1 = r := fld_eq _ _ _ (by omega)
  exact of_cPriv rfl ω hω (by omega) (by simp only [bits]; omega) (by rw [cPriv_7 h0]; simp [c0, c1, f0, f1, f2, f3, f4, f5, f6])

theorem amfaddc (o : BitVec 2) (s : BitVec 3) (d : BitVec 5) (a : BitVec 5) (b : BitVec 5) (z : BitVec 2) (r : BitVec 1) : Statement (.amfaddc o s d a b z r) := by
  have ho := o.isLt
  have hs := s.isLt
  have hd := d.isLt
  have ha := a.isLt
  have hb := b.isLt
  have hz := z.isLt
  have hr := r.isLt
  obtain ⟨ω, hω⟩ : ∃ ω, pack 0x90000000 [(o.toNat, 23), (s.toNat, 20), (d.toNat, 15), (a.toNat, 10), (b.toNat, 5), (z.toNat, 3), (r.toNat, 1)] = ω := ⟨_, rfl⟩
  simp only [pack] at hω
  have h0 : bits ω 25 6 = 8 := by simp only [bits]; omega
  have c0 : bits ω 0 1 = 0 := by simp only [bits]; omega
  have c1 : bits ω 2 1 = 0 := by simp only [bits]; omega
  have f0 : fld ω 23 2 = o := fld_eq _ _ _ (by omega)
  have f1 : fld ω 20 3 = s := fld_eq _ _ _ (by omega)
  have f2 : fld ω 15 5 = d := fld_eq _ _ _ (by omega)
  have f3 : fld ω 10 5 = a := fld_eq _ _ _ (by omega)
  have f4 : fld ω 5 5 = b := fld_eq _ _ _ (by omega)
  have f5 : fld ω 3 2 = z := fld_eq _ _ _ (by omega)
  have f6 : fld ω 1 1 = r := fld_eq _ _ _ (by omega)
  exact of_cPriv rfl ω hω (by omega) (by simp only [bits]; omega) (by rw [cPriv_8 h0]; simp [c0, c1, f0, f1, f2, f3, f4, f5, f6])

theorem amldc (o : BitVec 2) (s : BitVec 3) (d : BitVec 5) (a : BitVec 5) (b : BitVec 5) (z : BitVec 2) (r : BitVec 1) : Statement (.amldc o s d a b z r) := by
  have ho := o.isLt
  have hs := s.isLt
  have hd := d.isLt
  have ha := a.isLt
  have hb := b.isLt
  have hz := z.isLt
  have hr := r.isLt
  obtain ⟨ω, hω⟩ : ∃ ω, pack 0x92000000 [(o.toNat, 23), (s.toNat, 20), (d.toNat, 15), (a.toNat, 10), (b.toNat, 5), (z.toNat, 3), (r.toNat, 1)] = ω := ⟨_, rfl⟩
  simp only [pack] at hω
  have h0 : bits ω 25 6 = 9 := by simp only [bits]; omega
  have c0 : bits ω 0 1 = 0 := by simp only [bits]; omega
  have c1 : bits ω 2 1 = 0 := by simp only [bits]; omega
  have f0 : fld ω 23 2 = o := fld_eq _ _ _ (by omega)
  have f1 : fld ω 20 3 = s := fld_eq _ _ _ (by omega)
  have f2 : fld ω 15 5 = d := fld_eq _ _ _ (by omega)
  have f3 : fld ω 10 5 = a := fld_eq _ _ _ (by omega)
  have f4 : fld ω 5 5 = b := fld_eq _ _ _ (by omega)
  have f5 : fld ω 3 2 = z := fld_eq _ _ _ (by omega)
  have f6 : fld ω 1 1 = r := fld_eq _ _ _ (by omega)
  exact of_cPriv rfl ω hω (by omega) (by simp only [bits]; omega) (by rw [cPriv_9 h0]; simp [c0, c1, f0, f1, f2, f3, f4, f5, f6])

theorem amld (o : BitVec 2) (s : BitVec 3) (d : BitVec 5) (a : BitVec 5) (b : BitVec 5) (z : BitVec 2) (r : BitVec 1) : Statement (.amld o s d a b z r) := by
  have ho := o.isLt
  have hs := s.isLt
  have hd := d.isLt
  have ha := a.isLt
  have hb := b.isLt
  have hz := z.isLt
  have hr := r.isLt
  obtain ⟨ω, hω⟩ : ∃ ω, pack 0x94000000 [(o.toNat, 23), (s.toNat, 20), (d.toNat, 15), (a.toNat, 10), (b.toNat, 5), (z.toNat, 3), (r.toNat, 1)] = ω := ⟨_, rfl⟩
  simp only [pack] at hω
  have h0 : bits ω 25 6 = 10 := by simp only [bits]; omega
  have c0 : bits ω 0 1 = 0 := by simp only [bits]; omega
  have c1 : bits ω 2 1 = 0 := by simp only [bits]; omega
  have f0 : fld ω 23 2 = o := fld_eq _ _ _ (by omega)
  have f1 : fld ω 20 3 = s := fld_eq _ _ _ (by omega)
  have f2 : fld ω 15 5 = d := fld_eq _ _ _ (by omega)
  have f3 : fld ω 10 5 = a := fld_eq _ _ _ (by omega)
  have f4 : fld ω 5 5 = b := fld_eq _ _ _ (by omega)
  have f5 : fld ω 3 2 = z := fld_eq _ _ _ (by omega)
  have f6 : fld ω 1 1 = r := fld_eq _ _ _ (by omega)
  exact of_cPriv rfl ω hω (by omega) (by simp only [bits]; omega) (by rw [cPriv_10 h0]; simp [c0, c1, f0, f1, f2, f3, f4, f5, f6])

theorem amst (o : BitVec 2) (s : BitVec 3) (a : BitVec 5) (b : BitVec 5) (z : BitVec 2) (r : BitVec 1) : Statement (.amst o s a b z r) := by
  have ho := o.isLt
  have hs := s.isLt
  have ha := a.isLt
  have hb := b.isLt
  have hz := z.isLt
  have hr := r.isLt
  obtain ⟨ω, hω⟩ : ∃ ω, pack 0x96000000 [(o.toNat, 23), (s.toNat, 20), (a.toNat, 10), (b.toNat, 5), (z.toNat, 3), (r.toNat, 1)] = ω := ⟨_, rfl⟩
  simp only [pack] at hω
  have h0 : bits ω 25 6 = 11 := by simp only [bits]; omega
  have c0 : bits ω 0 1 = 0 := by simp only [bits]; omega
  have c1 : bits ω 2 1 = 0 := by simp only [bits]; omega
  have c2 : bits ω 15 5 = 0 := by simp only [bits]; omega
  have f0 : fld ω 23 2 = o := fld_eq _ _ _ (by omega)
  have f1 : fld ω 20 3 = s := fld_eq _ _ _ (by omega)
  have f2 : fld ω 10 5 = a := fld_eq _ _ _ (by omega)
  have f3 : fld ω 5 5 = b := fld_eq _ _ _ (by omega)
  have f4 : fld ω 3 2 = z := fld_eq _ _ _ (by omega)
  have f5 : fld ω 1 1 = r := fld_eq _ _ _ (by omega)
  exact of_cPriv rfl ω hω (by omega) (by simp only [bits]; omega) (by rw [cPriv_11 h0]; simp [c0, c1, c2, f0, f1, f2, f3, f4, f5])

theorem tbinit (d : BitVec 5) (a : BitVec 5) (b : BitVec 5) (n : BitVec 1) : Statement (.tbinit d a b n) := by
  have hd := d.isLt
  have ha := a.isLt
  have hb := b.isLt
  have hn := n.isLt
  obtain ⟨ω, hω⟩ : ∃ ω, pack 0xA0000000 [(d.toNat, 20), (a.toNat, 15), (b.toNat, 10), (n.toNat, 0)] = ω := ⟨_, rfl⟩
  simp only [pack] at hω
  have h0 : bits ω 25 6 = 16 := by simp only [bits]; omega
  have c0 : bits ω 1 9 = 0 := by simp only [bits]; omega
  have f0 : fld ω 20 5 = d := fld_eq _ _ _ (by omega)
  have f1 : fld ω 15 5 = a := fld_eq _ _ _ (by omega)
  have f2 : fld ω 10 5 = b := fld_eq _ _ _ (by omega)
  have f3 : fld ω 0 1 = n := fld_eq _ _ _ (by omega)
  exact of_cPriv rfl ω hω (by omega) (by simp only [bits]; omega) (by rw [cPriv_16 h0]; simp [c0, f0, f1, f2, f3])

theorem tbjoin (d : BitVec 5) (a : BitVec 5) : Statement (.tbjoin d a) := by
  have hd := d.isLt
  have ha := a.isLt
  obtain ⟨ω, hω⟩ : ∃ ω, pack 0xA2000000 [(d.toNat, 20), (a.toNat, 15)] = ω := ⟨_, rfl⟩
  simp only [pack] at hω
  have h0 : bits ω 25 6 = 17 := by simp only [bits]; omega
  have c0 : bits ω 0 15 = 0 := by simp only [bits]; omega
  have f0 : fld ω 20 5 = d := fld_eq _ _ _ (by omega)
  have f1 : fld ω 15 5 = a := fld_eq _ _ _ (by omega)
  exact of_cPriv rfl ω hω (by omega) (by simp only [bits]; omega) (by rw [cPriv_17 h0]; simp [c0, f0, f1])

theorem tbarrive (d : BitVec 5) (a : BitVec 5) (b : BitVec 5) : Statement (.tbarrive d a b) := by
  have hd := d.isLt
  have ha := a.isLt
  have hb := b.isLt
  obtain ⟨ω, hω⟩ : ∃ ω, pack 0xA4000000 [(d.toNat, 20), (a.toNat, 15), (b.toNat, 10)] = ω := ⟨_, rfl⟩
  simp only [pack] at hω
  have h0 : bits ω 25 6 = 18 := by simp only [bits]; omega
  have c0 : bits ω 0 10 = 0 := by simp only [bits]; omega
  have f0 : fld ω 20 5 = d := fld_eq _ _ _ (by omega)
  have f1 : fld ω 15 5 = a := fld_eq _ _ _ (by omega)
  have f2 : fld ω 10 5 = b := fld_eq _ _ _ (by omega)
  exact of_cPriv rfl ω hω (by omega) (by simp only [bits]; omega) (by rw [cPriv_18 h0]; simp [c0, f0, f1, f2])

theorem tbexpect (a : BitVec 5) (b : BitVec 5) : Statement (.tbexpect a b) := by
  have ha := a.isLt
  have hb := b.isLt
  obtain ⟨ω, hω⟩ : ∃ ω, pack 0xA6000000 [(a.toNat, 15), (b.toNat, 10)] = ω := ⟨_, rfl⟩
  simp only [pack] at hω
  have h0 : bits ω 25 6 = 19 := by simp only [bits]; omega
  have c0 : bits ω 0 10 = 0 := by simp only [bits]; omega
  have c1 : bits ω 20 5 = 0 := by simp only [bits]; omega
  have f0 : fld ω 15 5 = a := fld_eq _ _ _ (by omega)
  have f1 : fld ω 10 5 = b := fld_eq _ _ _ (by omega)
  exact of_cPriv rfl ω hω (by omega) (by simp only [bits]; omega) (by rw [cPriv_19 h0]; simp [c0, c1, f0, f1])

theorem tbwait (d : BitVec 5) (a : BitVec 5) (b : BitVec 5) : Statement (.tbwait d a b) := by
  have hd := d.isLt
  have ha := a.isLt
  have hb := b.isLt
  obtain ⟨ω, hω⟩ : ∃ ω, pack 0xA8000000 [(d.toNat, 20), (a.toNat, 15), (b.toNat, 10)] = ω := ⟨_, rfl⟩
  simp only [pack] at hω
  have h0 : bits ω 25 6 = 20 := by simp only [bits]; omega
  have c0 : bits ω 0 10 = 0 := by simp only [bits]; omega
  have f0 : fld ω 20 5 = d := fld_eq _ _ _ (by omega)
  have f1 : fld ω 15 5 = a := fld_eq _ _ _ (by omega)
  have f2 : fld ω 10 5 = b := fld_eq _ _ _ (by omega)
  exact of_cPriv rfl ω hω (by omega) (by simp only [bits]; omega) (by rw [cPriv_20 h0]; simp [c0, f0, f1, f2])

theorem tbdrop (a : BitVec 5) : Statement (.tbdrop a) := by
  have ha := a.isLt
  obtain ⟨ω, hω⟩ : ∃ ω, pack 0xAA000000 [(a.toNat, 15)] = ω := ⟨_, rfl⟩
  simp only [pack] at hω
  have h0 : bits ω 25 6 = 21 := by simp only [bits]; omega
  have c0 : bits ω 0 15 = 0 := by simp only [bits]; omega
  have c1 : bits ω 20 5 = 0 := by simp only [bits]; omega
  have f0 : fld ω 15 5 = a := fld_eq _ _ _ (by omega)
  exact of_cPriv rfl ω hω (by omega) (by simp only [bits]; omega) (by rw [cPriv_21 h0]; simp [c0, c1, f0])

theorem tbpoll (d : BitVec 5) (a : BitVec 5) (h : BitVec 1) : Statement (.tbpoll d a h) := by
  have hd := d.isLt
  have ha := a.isLt
  have hh := h.isLt
  obtain ⟨ω, hω⟩ : ∃ ω, pack 0xAC000000 [(d.toNat, 20), (a.toNat, 15), (h.toNat, 0)] = ω := ⟨_, rfl⟩
  simp only [pack] at hω
  have h0 : bits ω 25 6 = 22 := by simp only [bits]; omega
  have c0 : bits ω 1 14 = 0 := by simp only [bits]; omega
  have f0 : fld ω 20 5 = d := fld_eq _ _ _ (by omega)
  have f1 : fld ω 15 5 = a := fld_eq _ _ _ (by omega)
  have f2 : fld ω 0 1 = h := fld_eq _ _ _ (by omega)
  exact of_cPriv rfl ω hω (by omega) (by simp only [bits]; omega) (by rw [cPriv_22 h0]; simp [c0, f0, f1, f2])

theorem fence (o : BitVec 2) (s : BitVec 3) : Statement (.fence o s) := by
  have ho := o.isLt
  have hs := s.isLt
  obtain ⟨ω, hω⟩ : ∃ ω, pack 0xB0000000 [(o.toNat, 23), (s.toNat, 20)] = ω := ⟨_, rfl⟩
  simp only [pack] at hω
  have h0 : bits ω 25 6 = 24 := by simp only [bits]; omega
  have c0 : bits ω 0 20 = 0 := by simp only [bits]; omega
  have f0 : fld ω 23 2 = o := fld_eq _ _ _ (by omega)
  have f1 : fld ω 20 3 = s := fld_eq _ _ _ (by omega)
  exact of_cPriv rfl ω hω (by omega) (by simp only [bits]; omega) (by rw [cPriv_24 h0]; simp [c0, f0, f1])

theorem xfence (o : BitVec 2) (s : BitVec 3) (e : BitVec 3) (l : BitVec 3) : Statement (.xfence o s e l) := by
  have ho := o.isLt
  have hs := s.isLt
  have he := e.isLt
  have hl := l.isLt
  obtain ⟨ω, hω⟩ : ∃ ω, pack 0xB2000000 [(o.toNat, 23), (s.toNat, 20), (e.toNat, 17), (l.toNat, 14)] = ω := ⟨_, rfl⟩
  simp only [pack] at hω
  have h0 : bits ω 25 6 = 25 := by simp only [bits]; omega
  have c0 : bits ω 0 14 = 0 := by simp only [bits]; omega
  have f0 : fld ω 23 2 = o := fld_eq _ _ _ (by omega)
  have f1 : fld ω 20 3 = s := fld_eq _ _ _ (by omega)
  have f2 : fld ω 17 3 = e := fld_eq _ _ _ (by omega)
  have f3 : fld ω 14 3 = l := fld_eq _ _ _ (by omega)
  exact of_cPriv rfl ω hω (by omega) (by simp only [bits]; omega) (by rw [cPriv_25 h0]; simp [c0, f0, f1, f2, f3])

theorem phase (s : BitVec 3) (d : BitVec 5) : Statement (.phase s d) := by
  have hs := s.isLt
  have hd := d.isLt
  obtain ⟨ω, hω⟩ : ∃ ω, pack 0xB5800000 [(s.toNat, 20), (d.toNat, 15)] = ω := ⟨_, rfl⟩
  simp only [pack] at hω
  have h0 : bits ω 25 6 = 26 := by simp only [bits]; omega
  have c0 : bits ω 0 15 = 0 := by simp only [bits]; omega
  have c1 : bits ω 23 2 = 3 := by simp only [bits]; omega
  have f0 : fld ω 20 3 = s := fld_eq _ _ _ (by omega)
  have f1 : fld ω 15 5 = d := fld_eq _ _ _ (by omega)
  exact of_cPriv rfl ω hω (by omega) (by simp only [bits]; omega) (by rw [cPriv_26 h0]; simp [c0, c1, f0, f1])

theorem shuf (a : BitVec 5) (b : BitVec 5) (c : BitVec 5) : Statement (.shuf a b c) := by
  have ha := a.isLt
  have hb := b.isLt
  have hc := c.isLt
  obtain ⟨ω, hω⟩ : ∃ ω, pack 0xC0000000 [(a.toNat, 15), (b.toNat, 10), (c.toNat, 5)] = ω := ⟨_, rfl⟩
  simp only [pack] at hω
  have h0 : bits ω 25 6 = 32 := by simp only [bits]; omega
  have c0 : bits ω 0 5 = 0 := by simp only [bits]; omega
  have c1 : bits ω 20 5 = 0 := by simp only [bits]; omega
  have f0 : fld ω 15 5 = a := fld_eq _ _ _ (by omega)
  have f1 : fld ω 10 5 = b := fld_eq _ _ _ (by omega)
  have f2 : fld ω 5 5 = c := fld_eq _ _ _ (by omega)
  exact of_cPriv rfl ω hω (by omega) (by simp only [bits]; omega) (by rw [cPriv_32 h0]; simp [c0, c1, f0, f1, f2])

theorem segbegin (a : BitVec 5) : Statement (.segbegin a) := by
  have ha := a.isLt
  obtain ⟨ω, hω⟩ : ∃ ω, pack 0xC8000000 [(a.toNat, 15)] = ω := ⟨_, rfl⟩
  simp only [pack] at hω
  have h0 : bits ω 25 6 = 36 := by simp only [bits]; omega
  have c0 : bits ω 0 15 = 0 := by simp only [bits]; omega
  have c1 : bits ω 20 5 = 0 := by simp only [bits]; omega
  have f0 : fld ω 15 5 = a := fld_eq _ _ _ (by omega)
  exact of_cPriv rfl ω hω (by omega) (by simp only [bits]; omega) (by rw [cPriv_36 h0]; simp [c0, c1, f0])

theorem segend (d : BitVec 5) (a : BitVec 5) (b : BitVec 5) : Statement (.segend d a b) := by
  have hd := d.isLt
  have ha := a.isLt
  have hb := b.isLt
  obtain ⟨ω, hω⟩ : ∃ ω, pack 0xCA000000 [(d.toNat, 20), (a.toNat, 15), (b.toNat, 10)] = ω := ⟨_, rfl⟩
  simp only [pack] at hω
  have h0 : bits ω 25 6 = 37 := by simp only [bits]; omega
  have c0 : bits ω 0 10 = 0 := by simp only [bits]; omega
  have f0 : fld ω 20 5 = d := fld_eq _ _ _ (by omega)
  have f1 : fld ω 15 5 = a := fld_eq _ _ _ (by omega)
  have f2 : fld ω 10 5 = b := fld_eq _ _ _ (by omega)
  exact of_cPriv rfl ω hω (by omega) (by simp only [bits]; omega) (by rw [cPriv_37 h0]; simp [c0, f0, f1, f2])

theorem cropen (d : BitVec 5) (a : BitVec 5) : Statement (.cropen d a) := by
  have hd := d.isLt
  have ha := a.isLt
  obtain ⟨ω, hω⟩ : ∃ ω, pack 0xCC000000 [(d.toNat, 20), (a.toNat, 15)] = ω := ⟨_, rfl⟩
  simp only [pack] at hω
  have h0 : bits ω 25 6 = 38 := by simp only [bits]; omega
  have c0 : bits ω 0 15 = 0 := by simp only [bits]; omega
  have f0 : fld ω 20 5 = d := fld_eq _ _ _ (by omega)
  have f1 : fld ω 15 5 = a := fld_eq _ _ _ (by omega)
  exact of_cPriv rfl ω hω (by omega) (by simp only [bits]; omega) (by rw [cPriv_38 h0]; simp [c0, f0, f1])

theorem crclose (d : BitVec 5) : Statement (.crclose d) := by
  have hd := d.isLt
  obtain ⟨ω, hω⟩ : ∃ ω, pack 0xCE000000 [(d.toNat, 20)] = ω := ⟨_, rfl⟩
  simp only [pack] at hω
  have h0 : bits ω 25 6 = 39 := by simp only [bits]; omega
  have c0 : bits ω 0 20 = 0 := by simp only [bits]; omega
  have f0 : fld ω 20 5 = d := fld_eq _ _ _ (by omega)
  exact of_cPriv rfl ω hω (by omega) (by simp only [bits]; omega) (by rw [cPriv_39 h0]; simp [c0, f0])

theorem prot (d : BitVec 5) (a : BitVec 5) (b : BitVec 5) (i : BitVec 6) : Statement (.prot d a b i) := by
  have hd := d.isLt
  have ha := a.isLt
  have hb := b.isLt
  have hi := i.isLt
  obtain ⟨ω, hω⟩ : ∃ ω, pack 0xD0000000 [(d.toNat, 20), (a.toNat, 15), (b.toNat, 10), (i.toNat, 0)] = ω := ⟨_, rfl⟩
  simp only [pack] at hω
  have h0 : bits ω 25 6 = 40 := by simp only [bits]; omega
  have c0 : bits ω 6 4 = 0 := by simp only [bits]; omega
  have f0 : fld ω 20 5 = d := fld_eq _ _ _ (by omega)
  have f1 : fld ω 15 5 = a := fld_eq _ _ _ (by omega)
  have f2 : fld ω 10 5 = b := fld_eq _ _ _ (by omega)
  have f3 : fld ω 0 6 = i := fld_eq _ _ _ (by omega)
  exact of_cPriv rfl ω hω (by omega) (by simp only [bits]; omega) (by rw [cPriv_40 h0]; simp [c0, f0, f1, f2, f3])

theorem unprot (i : BitVec 6) : Statement (.unprot i) := by
  have hi := i.isLt
  obtain ⟨ω, hω⟩ : ∃ ω, pack 0xD2000000 [(i.toNat, 0)] = ω := ⟨_, rfl⟩
  simp only [pack] at hω
  have h0 : bits ω 25 6 = 41 := by simp only [bits]; omega
  have c0 : bits ω 6 19 = 0 := by simp only [bits]; omega
  have f0 : fld ω 0 6 = i := fld_eq _ _ _ (by omega)
  exact of_cPriv rfl ω hω (by omega) (by simp only [bits]; omega) (by rw [cPriv_41 h0]; simp [c0, f0])

theorem rndprep (d : BitVec 5) : Statement (.rndprep d) := by
  have hd := d.isLt
  obtain ⟨ω, hω⟩ : ∃ ω, pack 0xD4000000 [(d.toNat, 20)] = ω := ⟨_, rfl⟩
  simp only [pack] at hω
  have h0 : bits ω 25 6 = 42 := by simp only [bits]; omega
  have c0 : bits ω 0 20 = 0 := by simp only [bits]; omega
  have f0 : fld ω 20 5 = d := fld_eq _ _ _ (by omega)
  exact of_cPriv rfl ω hω (by omega) (by simp only [bits]; omega) (by rw [cPriv_42 h0]; simp [c0, f0])

theorem rndcommit (d : BitVec 5) : Statement (.rndcommit d) := by
  have hd := d.isLt
  obtain ⟨ω, hω⟩ : ∃ ω, pack 0xD6000000 [(d.toNat, 20)] = ω := ⟨_, rfl⟩
  simp only [pack] at hω
  have h0 : bits ω 25 6 = 43 := by simp only [bits]; omega
  have c0 : bits ω 0 20 = 0 := by simp only [bits]; omega
  have f0 : fld ω 20 5 = d := fld_eq _ _ _ (by omega)
  exact of_cPriv rfl ω hω (by omega) (by simp only [bits]; omega) (by rw [cPriv_43 h0]; simp [c0, f0])

theorem rndabort (d : BitVec 5) : Statement (.rndabort d) := by
  have hd := d.isLt
  obtain ⟨ω, hω⟩ : ∃ ω, pack 0xD8000000 [(d.toNat, 20)] = ω := ⟨_, rfl⟩
  simp only [pack] at hω
  have h0 : bits ω 25 6 = 44 := by simp only [bits]; omega
  have c0 : bits ω 0 20 = 0 := by simp only [bits]; omega
  have f0 : fld ω 20 5 = d := fld_eq _ _ _ (by omega)
  exact of_cPriv rfl ω hω (by omega) (by simp only [bits]; omega) (by rw [cPriv_44 h0]; simp [c0, f0])

theorem rndstat (d : BitVec 5) (w : BitVec 1) : Statement (.rndstat d w) := by
  have hd := d.isLt
  have hw := w.isLt
  obtain ⟨ω, hω⟩ : ∃ ω, pack 0xDA000000 [(d.toNat, 20), (w.toNat, 0)] = ω := ⟨_, rfl⟩
  simp only [pack] at hω
  have h0 : bits ω 25 6 = 45 := by simp only [bits]; omega
  have c0 : bits ω 1 19 = 0 := by simp only [bits]; omega
  have f0 : fld ω 20 5 = d := fld_eq _ _ _ (by omega)
  have f1 : fld ω 0 1 = w := fld_eq _ _ _ (by omega)
  exact of_cPriv rfl ω hω (by omega) (by simp only [bits]; omega) (by rw [cPriv_45 h0]; simp [c0, f0, f1])

theorem rslot (d : BitVec 5) (a : BitVec 5) (b : BitVec 5) : Statement (.rslot d a b) := by
  have hd := d.isLt
  have ha := a.isLt
  have hb := b.isLt
  obtain ⟨ω, hω⟩ : ∃ ω, pack 0xE0000000 [(d.toNat, 20), (a.toNat, 15), (b.toNat, 10)] = ω := ⟨_, rfl⟩
  simp only [pack] at hω
  have h0 : bits ω 25 6 = 48 := by simp only [bits]; omega
  have c0 : bits ω 0 10 = 0 := by simp only [bits]; omega
  have f0 : fld ω 20 5 = d := fld_eq _ _ _ (by omega)
  have f1 : fld ω 15 5 = a := fld_eq _ _ _ (by omega)
  have f2 : fld ω 10 5 = b := fld_eq _ _ _ (by omega)
  exact of_cPriv rfl ω hω (by omega) (by simp only [bits]; omega) (by rw [cPriv_48 h0]; simp [c0, f0, f1, f2])

theorem rred (d : BitVec 5) (a : BitVec 5) (b : BitVec 5) : Statement (.rred d a b) := by
  have hd := d.isLt
  have ha := a.isLt
  have hb := b.isLt
  obtain ⟨ω, hω⟩ : ∃ ω, pack 0xE2000000 [(d.toNat, 20), (a.toNat, 15), (b.toNat, 10)] = ω := ⟨_, rfl⟩
  simp only [pack] at hω
  have h0 : bits ω 25 6 = 49 := by simp only [bits]; omega
  have c0 : bits ω 0 10 = 0 := by simp only [bits]; omega
  have f0 : fld ω 20 5 = d := fld_eq _ _ _ (by omega)
  have f1 : fld ω 15 5 = a := fld_eq _ _ _ (by omega)
  have f2 : fld ω 10 5 = b := fld_eq _ _ _ (by omega)
  exact of_cPriv rfl ω hω (by omega) (by simp only [bits]; omega) (by rw [cPriv_49 h0]; simp [c0, f0, f1, f2])

theorem rwait (d : BitVec 5) (a : BitVec 5) (b : BitVec 5) : Statement (.rwait d a b) := by
  have hd := d.isLt
  have ha := a.isLt
  have hb := b.isLt
  obtain ⟨ω, hω⟩ : ∃ ω, pack 0xE4000000 [(d.toNat, 20), (a.toNat, 15), (b.toNat, 10)] = ω := ⟨_, rfl⟩
  simp only [pack] at hω
  have h0 : bits ω 25 6 = 50 := by simp only [bits]; omega
  have c0 : bits ω 0 10 = 0 := by simp only [bits]; omega
  have f0 : fld ω 20 5 = d := fld_eq _ _ _ (by omega)
  have f1 : fld ω 15 5 = a := fld_eq _ _ _ (by omega)
  have f2 : fld ω 10 5 = b := fld_eq _ _ _ (by omega)
  exact of_cPriv rfl ω hω (by omega) (by simp only [bits]; omega) (by rw [cPriv_50 h0]; simp [c0, f0, f1, f2])

theorem rfree (a : BitVec 5) : Statement (.rfree a) := by
  have ha := a.isLt
  obtain ⟨ω, hω⟩ : ∃ ω, pack 0xE6000000 [(a.toNat, 15)] = ω := ⟨_, rfl⟩
  simp only [pack] at hω
  have h0 : bits ω 25 6 = 51 := by simp only [bits]; omega
  have c0 : bits ω 0 15 = 0 := by simp only [bits]; omega
  have c1 : bits ω 20 5 = 0 := by simp only [bits]; omega
  have f0 : fld ω 15 5 = a := fld_eq _ _ _ (by omega)
  exact of_cPriv rfl ω hω (by omega) (by simp only [bits]; omega) (by rw [cPriv_51 h0]; simp [c0, c1, f0])

theorem launch (d : BitVec 5) (a : BitVec 5) (b : BitVec 5) : Statement (.launch d a b) := by
  have hd := d.isLt
  have ha := a.isLt
  have hb := b.isLt
  obtain ⟨ω, hω⟩ : ∃ ω, pack 0xE8000000 [(d.toNat, 20), (a.toNat, 15), (b.toNat, 10)] = ω := ⟨_, rfl⟩
  simp only [pack] at hω
  have h0 : bits ω 25 6 = 52 := by simp only [bits]; omega
  have c0 : bits ω 0 10 = 0 := by simp only [bits]; omega
  have f0 : fld ω 20 5 = d := fld_eq _ _ _ (by omega)
  have f1 : fld ω 15 5 = a := fld_eq _ _ _ (by omega)
  have f2 : fld ω 10 5 = b := fld_eq _ _ _ (by omega)
  exact of_cPriv rfl ω hω (by omega) (by simp only [bits]; omega) (by rw [cPriv_52 h0]; simp [c0, f0, f1, f2])

theorem winbind (d : BitVec 5) (a : BitVec 5) (w : BitVec 6) : Statement (.winbind d a w) := by
  have hd := d.isLt
  have ha := a.isLt
  have hw := w.isLt
  obtain ⟨ω, hω⟩ : ∃ ω, pack 0xEA000000 [(d.toNat, 20), (a.toNat, 15), (w.toNat, 0)] = ω := ⟨_, rfl⟩
  simp only [pack] at hω
  have h0 : bits ω 25 6 = 53 := by simp only [bits]; omega
  have c0 : bits ω 6 9 = 0 := by simp only [bits]; omega
  have f0 : fld ω 20 5 = d := fld_eq _ _ _ (by omega)
  have f1 : fld ω 15 5 = a := fld_eq _ _ _ (by omega)
  have f2 : fld ω 0 6 = w := fld_eq _ _ _ (by omega)
  exact of_cPriv rfl ω hω (by omega) (by simp only [bits]; omega) (by rw [cPriv_53 h0]; simp [c0, f0, f1, f2])

theorem winbindUnbind (d : BitVec 5) (w : BitVec 6) : Statement (.winbindUnbind d w) := by
  have hd := d.isLt
  have hw := w.isLt
  obtain ⟨ω, hω⟩ : ∃ ω, pack 0xEA000040 [(d.toNat, 20), (w.toNat, 0)] = ω := ⟨_, rfl⟩
  simp only [pack] at hω
  have h0 : bits ω 25 6 = 53 := by simp only [bits]; omega
  have c0 : ¬ bits ω 6 9 = 0 := by simp only [bits]; omega
  have c1 : bits ω 6 14 = 1 := by simp only [bits]; omega
  have f0 : fld ω 20 5 = d := fld_eq _ _ _ (by omega)
  have f1 : fld ω 0 6 = w := fld_eq _ _ _ (by omega)
  exact of_cPriv rfl ω hω (by omega) (by simp only [bits]; omega) (by rw [cPriv_53 h0]; simp [c0, c1, f0, f1])

theorem vld (k : BitVec 4) (v : BitVec 4) (b : BitVec 3) (m : BitVec 2) (d : BitVec 12) : Statement (.vld k v b m d) := by
  have hk := k.isLt
  have hv := v.isLt
  have hb := b.isLt
  have hm := m.isLt
  have hd := d.isLt
  obtain ⟨ω, hω⟩ : ∃ ω, pack 0x80000000 [(k.toNat, 27), (v.toNat, 17), (b.toNat, 14), (m.toNat, 12), (d.toNat, 0)] = ω := ⟨_, rfl⟩
  simp only [pack] at hω
  have h0 : bits ω 21 6 = 0 := by simp only [bits]; omega
  have f0 : fld ω 27 4 = k := fld_eq _ _ _ (by omega)
  have f1 : fld ω 17 4 = v := fld_eq _ _ _ (by omega)
  have f2 : fld ω 14 3 = b := fld_eq _ _ _ (by omega)
  have f3 : fld ω 12 2 = m := fld_eq _ _ _ (by omega)
  have f4 : fld ω 0 12 = d := fld_eq _ _ _ (by omega)
  exact of_lPriv rfl ω hω (by omega) (by simp only [bits]; omega) (by rw [lPriv_0 h0]; simp [f0, f1, f2, f3, f4])

theorem vldu (k : BitVec 4) (v : BitVec 4) (b : BitVec 3) (m : BitVec 2) (d : BitVec 12) : Statement (.vldu k v b m d) := by
  have hk := k.isLt
  have hv := v.isLt
  have hb := b.isLt
  have hm := m.isLt
  have hd := d.isLt
  obtain ⟨ω, hω⟩ : ∃ ω, pack 0x80200000 [(k.toNat, 27), (v.toNat, 17), (b.toNat, 14), (m.toNat, 12), (d.toNat, 0)] = ω := ⟨_, rfl⟩
  simp only [pack] at hω
  have h0 : bits ω 21 6 = 1 := by simp only [bits]; omega
  have f0 : fld ω 27 4 = k := fld_eq _ _ _ (by omega)
  have f1 : fld ω 17 4 = v := fld_eq _ _ _ (by omega)
  have f2 : fld ω 14 3 = b := fld_eq _ _ _ (by omega)
  have f3 : fld ω 12 2 = m := fld_eq _ _ _ (by omega)
  have f4 : fld ω 0 12 = d := fld_eq _ _ _ (by omega)
  exact of_lPriv rfl ω hω (by omega) (by simp only [bits]; omega) (by rw [lPriv_1 h0]; simp [f0, f1, f2, f3, f4])

theorem vlds (k : BitVec 4) (v : BitVec 4) (b : BitVec 3) (r : BitVec 3) (w : BitVec 2) (m : BitVec 2) : Statement (.vlds k v b r w m) := by
  have hk := k.isLt
  have hv := v.isLt
  have hb := b.isLt
  have hr := r.isLt
  have hw := w.isLt
  have hm := m.isLt
  obtain ⟨ω, hω⟩ : ∃ ω, pack 0x80400000 [(k.toNat, 27), (v.toNat, 17), (b.toNat, 14), (r.toNat, 11), (w.toNat, 9), (m.toNat, 7)] = ω := ⟨_, rfl⟩
  simp only [pack] at hω
  have h0 : bits ω 21 6 = 2 := by simp only [bits]; omega
  have c0 : bits ω 0 7 = 0 := by simp only [bits]; omega
  have f0 : fld ω 27 4 = k := fld_eq _ _ _ (by omega)
  have f1 : fld ω 17 4 = v := fld_eq _ _ _ (by omega)
  have f2 : fld ω 14 3 = b := fld_eq _ _ _ (by omega)
  have f3 : fld ω 11 3 = r := fld_eq _ _ _ (by omega)
  have f4 : fld ω 9 2 = w := fld_eq _ _ _ (by omega)
  have f5 : fld ω 7 2 = m := fld_eq _ _ _ (by omega)
  exact of_lPriv rfl ω hω (by omega) (by simp only [bits]; omega) (by rw [lPriv_2 h0]; simp [c0, f0, f1, f2, f3, f4, f5])

theorem vldb (k : BitVec 4) (v : BitVec 4) (b : BitVec 3) (m : BitVec 2) (w : BitVec 2) (d : BitVec 10) : Statement (.vldb k v b m w d) := by
  have hk := k.isLt
  have hv := v.isLt
  have hb := b.isLt
  have hm := m.isLt
  have hw := w.isLt
  have hd := d.isLt
  obtain ⟨ω, hω⟩ : ∃ ω, pack 0x80800000 [(k.toNat, 27), (v.toNat, 17), (b.toNat, 14), (m.toNat, 12), (w.toNat, 10), (d.toNat, 0)] = ω := ⟨_, rfl⟩
  simp only [pack] at hω
  have h0 : bits ω 21 6 = 4 := by simp only [bits]; omega
  have f0 : fld ω 27 4 = k := fld_eq _ _ _ (by omega)
  have f1 : fld ω 17 4 = v := fld_eq _ _ _ (by omega)
  have f2 : fld ω 14 3 = b := fld_eq _ _ _ (by omega)
  have f3 : fld ω 12 2 = m := fld_eq _ _ _ (by omega)
  have f4 : fld ω 10 2 = w := fld_eq _ _ _ (by omega)
  have f5 : fld ω 0 10 = d := fld_eq _ _ _ (by omega)
  exact of_lPriv rfl ω hω (by omega) (by simp only [bits]; omega) (by rw [lPriv_4 h0]; simp [f0, f1, f2, f3, f4, f5])

theorem sldq (k : BitVec 4) (b : BitVec 3) (m : BitVec 2) (w : BitVec 2) (x : BitVec 1) (d : BitVec 9) : Statement (.sldq k b m w x d) := by
  have hk := k.isLt
  have hb := b.isLt
  have hm := m.isLt
  have hw := w.isLt
  have hx := x.isLt
  have hd := d.isLt
  obtain ⟨ω, hω⟩ : ∃ ω, pack 0x80A00000 [(k.toNat, 27), (b.toNat, 14), (m.toNat, 12), (w.toNat, 10), (x.toNat, 9), (d.toNat, 0)] = ω := ⟨_, rfl⟩
  simp only [pack] at hω
  have h0 : bits ω 21 6 = 5 := by simp only [bits]; omega
  have c0 : bits ω 17 4 = 0 := by simp only [bits]; omega
  have f0 : fld ω 27 4 = k := fld_eq _ _ _ (by omega)
  have f1 : fld ω 14 3 = b := fld_eq _ _ _ (by omega)
  have f2 : fld ω 12 2 = m := fld_eq _ _ _ (by omega)
  have f3 : fld ω 10 2 = w := fld_eq _ _ _ (by omega)
  have f4 : fld ω 9 1 = x := fld_eq _ _ _ (by omega)
  have f5 : fld ω 0 9 = d := fld_eq _ _ _ (by omega)
  exact of_lPriv rfl ω hω (by omega) (by simp only [bits]; omega) (by rw [lPriv_5 h0]; simp [c0, f0, f1, f2, f3, f4, f5])

theorem vst (k : BitVec 4) (v : BitVec 4) (b : BitVec 3) (m : BitVec 2) (d : BitVec 12) : Statement (.vst k v b m d) := by
  have hk := k.isLt
  have hv := v.isLt
  have hb := b.isLt
  have hm := m.isLt
  have hd := d.isLt
  obtain ⟨ω, hω⟩ : ∃ ω, pack 0x80000000 [(k.toNat, 27), (v.toNat, 17), (b.toNat, 14), (m.toNat, 12), (d.toNat, 0)] = ω := ⟨_, rfl⟩
  simp only [pack] at hω
  have h0 : bits ω 21 6 = 0 := by simp only [bits]; omega
  have f0 : fld ω 27 4 = k := fld_eq _ _ _ (by omega)
  have f1 : fld ω 17 4 = v := fld_eq _ _ _ (by omega)
  have f2 : fld ω 14 3 = b := fld_eq _ _ _ (by omega)
  have f3 : fld ω 12 2 = m := fld_eq _ _ _ (by omega)
  have f4 : fld ω 0 12 = d := fld_eq _ _ _ (by omega)
  exact of_sPriv rfl ω hω (by omega) (by simp only [bits]; omega) (by rw [sPriv_0 h0]; simp [f0, f1, f2, f3, f4])

theorem vstu (k : BitVec 4) (b : BitVec 3) (m : BitVec 2) (d : BitVec 12) : Statement (.vstu k b m d) := by
  have hk := k.isLt
  have hb := b.isLt
  have hm := m.isLt
  have hd := d.isLt
  obtain ⟨ω, hω⟩ : ∃ ω, pack 0x803E0000 [(k.toNat, 27), (b.toNat, 14), (m.toNat, 12), (d.toNat, 0)] = ω := ⟨_, rfl⟩
  simp only [pack] at hω
  have h0 : bits ω 21 6 = 1 := by simp only [bits]; omega
  have c0 : bits ω 17 4 = 15 := by simp only [bits]; omega
  have f0 : fld ω 27 4 = k := fld_eq _ _ _ (by omega)
  have f1 : fld ω 14 3 = b := fld_eq _ _ _ (by omega)
  have f2 : fld ω 12 2 = m := fld_eq _ _ _ (by omega)
  have f3 : fld ω 0 12 = d := fld_eq _ _ _ (by omega)
  exact of_sPriv rfl ω hω (by omega) (by simp only [bits]; omega) (by rw [sPriv_1 h0]; simp [c0, f0, f1, f2, f3])

theorem vsts (k : BitVec 4) (v : BitVec 4) (b : BitVec 3) (r : BitVec 3) (w : BitVec 2) (m : BitVec 2) : Statement (.vsts k v b r w m) := by
  have hk := k.isLt
  have hv := v.isLt
  have hb := b.isLt
  have hr := r.isLt
  have hw := w.isLt
  have hm := m.isLt
  obtain ⟨ω, hω⟩ : ∃ ω, pack 0x80400000 [(k.toNat, 27), (v.toNat, 17), (b.toNat, 14), (r.toNat, 11), (w.toNat, 9), (m.toNat, 7)] = ω := ⟨_, rfl⟩
  simp only [pack] at hω
  have h0 : bits ω 21 6 = 2 := by simp only [bits]; omega
  have c0 : bits ω 0 7 = 0 := by simp only [bits]; omega
  have f0 : fld ω 27 4 = k := fld_eq _ _ _ (by omega)
  have f1 : fld ω 17 4 = v := fld_eq _ _ _ (by omega)
  have f2 : fld ω 14 3 = b := fld_eq _ _ _ (by omega)
  have f3 : fld ω 11 3 = r := fld_eq _ _ _ (by omega)
  have f4 : fld ω 9 2 = w := fld_eq _ _ _ (by omega)
  have f5 : fld ω 7 2 = m := fld_eq _ _ _ (by omega)
  exact of_sPriv rfl ω hω (by omega) (by simp only [bits]; omega) (by rw [sPriv_2 h0]; simp [c0, f0, f1, f2, f3, f4, f5])

theorem cpin (k : BitVec 4) (d : BitVec 3) (a : BitVec 3) (n : BitVec 3) (b : BitVec 3) (i : BitVec 1) (q : BitVec 1) : Statement (.cpin k d a n b i q) := by
  have hk := k.isLt
  have hd := d.isLt
  have ha := a.isLt
  have hn := n.isLt
  have hb := b.isLt
  have hi := i.isLt
  have hq := q.isLt
  obtain ⟨ω, hω⟩ : ∃ ω, pack 0x81000000 [(k.toNat, 27), (d.toNat, 18), (a.toNat, 15), (n.toNat, 12), (b.toNat, 9), (i.toNat, 8), (q.toNat, 5)] = ω := ⟨_, rfl⟩
  simp only [pack] at hω
  have h0 : bits ω 21 6 = 8 := by simp only [bits]; omega
  have c0 : bits ω 0 5 = 0 := by simp only [bits]; omega
  have c1 : bits ω 6 2 = 0 := by simp only [bits]; omega
  have f0 : fld ω 27 4 = k := fld_eq _ _ _ (by omega)
  have f1 : fld ω 18 3 = d := fld_eq _ _ _ (by omega)
  have f2 : fld ω 15 3 = a := fld_eq _ _ _ (by omega)
  have f3 : fld ω 12 3 = n := fld_eq _ _ _ (by omega)
  have f4 : fld ω 9 3 = b := fld_eq _ _ _ (by omega)
  have f5 : fld ω 8 1 = i := fld_eq _ _ _ (by omega)
  have f6 : fld ω 5 1 = q := fld_eq _ _ _ (by omega)
  exact of_lPriv rfl ω hω (by omega) (by simp only [bits]; omega) (by rw [lPriv_8 h0]; simp [c0, c1, f0, f1, f2, f3, f4, f5, f6])

theorem cpinb (k : BitVec 4) (d : BitVec 3) (a : BitVec 3) (n : BitVec 3) (b : BitVec 3) (p : BitVec 1) (q : BitVec 1) : Statement (.cpinb k d a n b p q) := by
  have hk := k.isLt
  have hd := d.isLt
  have ha := a.isLt
  have hn := n.isLt
  have hb := b.isLt
  have hp := p.isLt
  have hq := q.isLt
  obtain ⟨ω, hω⟩ : ∃ ω, pack 0x81200000 [(k.toNat, 27), (d.toNat, 18), (a.toNat, 15), (n.toNat, 12), (b.toNat, 9), (p.toNat, 7), (q.toNat, 5)] = ω := ⟨_, rfl⟩
  simp only [pack] at hω
  have h0 : bits ω 21 6 = 9 := by simp only [bits]; omega
  have c0 : bits ω 0 5 = 0 := by simp only [bits]; omega
  have c1 : bits ω 6 1 = 0 := by simp only [bits]; omega
  have c2 : bits ω 8 1 = 0 := by simp only [bits]; omega
  have f0 : fld ω 27 4 = k := fld_eq _ _ _ (by omega)
  have f1 : fld ω 18 3 = d := fld_eq _ _ _ (by omega)
  have f2 : fld ω 15 3 = a := fld_eq _ _ _ (by omega)
  have f3 : fld ω 12 3 = n := fld_eq _ _ _ (by omega)
  have f4 : fld ω 9 3 = b := fld_eq _ _ _ (by omega)
  have f5 : fld ω 7 1 = p := fld_eq _ _ _ (by omega)
  have f6 : fld ω 5 1 = q := fld_eq _ _ _ (by omega)
  exact of_lPriv rfl ω hω (by omega) (by simp only [bits]; omega) (by rw [lPriv_9 h0]; simp [c0, c1, c2, f0, f1, f2, f3, f4, f5, f6])

theorem gather (k : BitVec 4) (d : BitVec 3) (a : BitVec 3) (b : BitVec 3) (p : BitVec 2) (q : BitVec 1) : Statement (.gather k d a b p q) := by
  have hk := k.isLt
  have hd := d.isLt
  have ha := a.isLt
  have hb := b.isLt
  have hp := p.isLt
  have hq := q.isLt
  obtain ⟨ω, hω⟩ : ∃ ω, pack 0x81400000 [(k.toNat, 27), (d.toNat, 18), (a.toNat, 15), (b.toNat, 9), (p.toNat, 6), (q.toNat, 5)] = ω := ⟨_, rfl⟩
  simp only [pack] at hω
  have h0 : bits ω 21 6 = 10 := by simp only [bits]; omega
  have c0 : bits ω 0 5 = 0 := by simp only [bits]; omega
  have c1 : bits ω 8 1 = 0 := by simp only [bits]; omega
  have c2 : bits ω 12 3 = 0 := by simp only [bits]; omega
  have f0 : fld ω 27 4 = k := fld_eq _ _ _ (by omega)
  have f1 : fld ω 18 3 = d := fld_eq _ _ _ (by omega)
  have f2 : fld ω 15 3 = a := fld_eq _ _ _ (by omega)
  have f3 : fld ω 9 3 = b := fld_eq _ _ _ (by omega)
  have f4 : fld ω 6 2 = p := fld_eq _ _ _ (by omega)
  have f5 : fld ω 5 1 = q := fld_eq _ _ _ (by omega)
  exact of_lPriv rfl ω hω (by omega) (by simp only [bits]; omega) (by rw [lPriv_10 h0]; simp [c0, c1, c2, f0, f1, f2, f3, f4, f5])

theorem wrset (k : BitVec 4) (a : BitVec 3) (r : BitVec 2) : Statement (.wrset k a r) := by
  have hk := k.isLt
  have ha := a.isLt
  have hr := r.isLt
  obtain ⟨ω, hω⟩ : ∃ ω, pack 0x81600000 [(k.toNat, 27), (a.toNat, 15), (r.toNat, 7)] = ω := ⟨_, rfl⟩
  simp only [pack] at hω
  have h0 : bits ω 21 6 = 11 := by simp only [bits]; omega
  have c0 : bits ω 0 7 = 0 := by simp only [bits]; omega
  have c1 : bits ω 9 6 = 0 := by simp only [bits]; omega
  have c2 : bits ω 18 3 = 0 := by simp only [bits]; omega
  have f0 : fld ω 27 4 = k := fld_eq _ _ _ (by omega)
  have f1 : fld ω 15 3 = a := fld_eq _ _ _ (by omega)
  have f2 : fld ω 7 2 = r := fld_eq _ _ _ (by omega)
  exact of_lPriv rfl ω hω (by omega) (by simp only [bits]; omega) (by rw [lPriv_11 h0]; simp [c0, c1, c2, f0, f1, f2])

theorem wradv (k : BitVec 4) (n : BitVec 10) (r : BitVec 2) : Statement (.wradv k n r) := by
  have hk := k.isLt
  have hn := n.isLt
  have hr := r.isLt
  obtain ⟨ω, hω⟩ : ∃ ω, pack 0x81800000 [(k.toNat, 27), (n.toNat, 11), (r.toNat, 7)] = ω := ⟨_, rfl⟩
  simp only [pack] at hω
  have h0 : bits ω 21 6 = 12 := by simp only [bits]; omega
  have c0 : bits ω 0 7 = 0 := by simp only [bits]; omega
  have c1 : bits ω 9 2 = 0 := by simp only [bits]; omega
  have f0 : fld ω 27 4 = k := fld_eq _ _ _ (by omega)
  have f1 : fld ω 11 10 = n := fld_eq _ _ _ (by omega)
  have f2 : fld ω 7 2 = r := fld_eq _ _ _ (by omega)
  exact of_lPriv rfl ω hω (by omega) (by simp only [bits]; omega) (by rw [lPriv_12 h0]; simp [c0, c1, f0, f1, f2])

theorem pref (k : BitVec 4) (b : BitVec 3) (c : BitVec 4) (m : BitVec 2) (d : BitVec 9) : Statement (.pref k b c m d) := by
  have hk := k.isLt
  have hb := b.isLt
  have hc := c.isLt
  have hm := m.isLt
  have hd := d.isLt
  obtain ⟨ω, hω⟩ : ∃ ω, pack 0x81A00000 [(k.toNat, 27), (b.toNat, 15), (c.toNat, 11), (m.toNat, 9), (d.toNat, 0)] = ω := ⟨_, rfl⟩
  simp only [pack] at hω
  have h0 : bits ω 21 6 = 13 := by simp only [bits]; omega
  have c0 : bits ω 18 3 = 0 := by simp only [bits]; omega
  have f0 : fld ω 27 4 = k := fld_eq _ _ _ (by omega)
  have f1 : fld ω 15 3 = b := fld_eq _ _ _ (by omega)
  have f2 : fld ω 11 4 = c := fld_eq _ _ _ (by omega)
  have f3 : fld ω 9 2 = m := fld_eq _ _ _ (by omega)
  have f4 : fld ω 0 9 = d := fld_eq _ _ _ (by omega)
  exact of_lPriv rfl ω hω (by omega) (by simp only [bits]; omega) (by rw [lPriv_13 h0]; simp [c0, f0, f1, f2, f3, f4])

theorem cpout (k : BitVec 4) (d : BitVec 3) (a : BitVec 3) (n : BitVec 3) (b : BitVec 3) (i : BitVec 1) : Statement (.cpout k d a n b i) := by
  have hk := k.isLt
  have hd := d.isLt
  have ha := a.isLt
  have hn := n.isLt
  have hb := b.isLt
  have hi := i.isLt
  obtain ⟨ω, hω⟩ : ∃ ω, pack 0x81000000 [(k.toNat, 27), (d.toNat, 18), (a.toNat, 15), (n.toNat, 12), (b.toNat, 9), (i.toNat, 8)] = ω := ⟨_, rfl⟩
  simp only [pack] at hω
  have h0 : bits ω 21 6 = 8 := by simp only [bits]; omega
  have c0 : bits ω 0 8 = 0 := by simp only [bits]; omega
  have f0 : fld ω 27 4 = k := fld_eq _ _ _ (by omega)
  have f1 : fld ω 18 3 = d := fld_eq _ _ _ (by omega)
  have f2 : fld ω 15 3 = a := fld_eq _ _ _ (by omega)
  have f3 : fld ω 12 3 = n := fld_eq _ _ _ (by omega)
  have f4 : fld ω 9 3 = b := fld_eq _ _ _ (by omega)
  have f5 : fld ω 8 1 = i := fld_eq _ _ _ (by omega)
  exact of_sPriv rfl ω hω (by omega) (by simp only [bits]; omega) (by rw [sPriv_8 h0]; simp [c0, f0, f1, f2, f3, f4, f5])

theorem cploc (k : BitVec 4) (d : BitVec 3) (a : BitVec 3) (n : BitVec 3) (b : BitVec 3) (i : BitVec 1) : Statement (.cploc k d a n b i) := by
  have hk := k.isLt
  have hd := d.isLt
  have ha := a.isLt
  have hn := n.isLt
  have hb := b.isLt
  have hi := i.isLt
  obtain ⟨ω, hω⟩ : ∃ ω, pack 0x81200000 [(k.toNat, 27), (d.toNat, 18), (a.toNat, 15), (n.toNat, 12), (b.toNat, 9), (i.toNat, 8)] = ω := ⟨_, rfl⟩
  simp only [pack] at hω
  have h0 : bits ω 21 6 = 9 := by simp only [bits]; omega
  have c0 : bits ω 0 8 = 0 := by simp only [bits]; omega
  have f0 : fld ω 27 4 = k := fld_eq _ _ _ (by omega)
  have f1 : fld ω 18 3 = d := fld_eq _ _ _ (by omega)
  have f2 : fld ω 15 3 = a := fld_eq _ _ _ (by omega)
  have f3 : fld ω 12 3 = n := fld_eq _ _ _ (by omega)
  have f4 : fld ω 9 3 = b := fld_eq _ _ _ (by omega)
  have f5 : fld ω 8 1 = i := fld_eq _ _ _ (by omega)
  exact of_sPriv rfl ω hω (by omega) (by simp only [bits]; omega) (by rw [sPriv_9 h0]; simp [c0, f0, f1, f2, f3, f4, f5])

theorem scatter (k : BitVec 4) (d : BitVec 3) (a : BitVec 3) (b : BitVec 3) : Statement (.scatter k d a b) := by
  have hk := k.isLt
  have hd := d.isLt
  have ha := a.isLt
  have hb := b.isLt
  obtain ⟨ω, hω⟩ : ∃ ω, pack 0x81400000 [(k.toNat, 27), (d.toNat, 18), (a.toNat, 15), (b.toNat, 9)] = ω := ⟨_, rfl⟩
  simp only [pack] at hω
  have h0 : bits ω 21 6 = 10 := by simp only [bits]; omega
  have c0 : bits ω 0 9 = 0 := by simp only [bits]; omega
  have c1 : bits ω 12 3 = 0 := by simp only [bits]; omega
  have f0 : fld ω 27 4 = k := fld_eq _ _ _ (by omega)
  have f1 : fld ω 18 3 = d := fld_eq _ _ _ (by omega)
  have f2 : fld ω 15 3 = a := fld_eq _ _ _ (by omega)
  have f3 : fld ω 9 3 = b := fld_eq _ _ _ (by omega)
  exact of_sPriv rfl ω hω (by omega) (by simp only [bits]; omega) (by rw [sPriv_10 h0]; simp [c0, c1, f0, f1, f2, f3])

theorem cprem (k : BitVec 4) (d : BitVec 3) (a : BitVec 3) (n : BitVec 3) (b : BitVec 3) (i : BitVec 1) : Statement (.cprem k d a n b i) := by
  have hk := k.isLt
  have hd := d.isLt
  have ha := a.isLt
  have hn := n.isLt
  have hb := b.isLt
  have hi := i.isLt
  obtain ⟨ω, hω⟩ : ∃ ω, pack 0x81600000 [(k.toNat, 27), (d.toNat, 18), (a.toNat, 15), (n.toNat, 12), (b.toNat, 9), (i.toNat, 8)] = ω := ⟨_, rfl⟩
  simp only [pack] at hω
  have h0 : bits ω 21 6 = 11 := by simp only [bits]; omega
  have c0 : bits ω 0 8 = 0 := by simp only [bits]; omega
  have f0 : fld ω 27 4 = k := fld_eq _ _ _ (by omega)
  have f1 : fld ω 18 3 = d := fld_eq _ _ _ (by omega)
  have f2 : fld ω 15 3 = a := fld_eq _ _ _ (by omega)
  have f3 : fld ω 12 3 = n := fld_eq _ _ _ (by omega)
  have f4 : fld ω 9 3 = b := fld_eq _ _ _ (by omega)
  have f5 : fld ω 8 1 = i := fld_eq _ _ _ (by omega)
  exact of_sPriv rfl ω hω (by omega) (by simp only [bits]; omega) (by rw [sPriv_11 h0]; simp [c0, f0, f1, f2, f3, f4, f5])

theorem wflush (k : BitVec 4) (w : BitVec 6) (l : BitVec 1) (c : BitVec 1) : Statement (.wflush k w l c) := by
  have hk := k.isLt
  have hw := w.isLt
  have hl := l.isLt
  have hc := c.isLt
  obtain ⟨ω, hω⟩ : ∃ ω, pack 0x81800000 [(k.toNat, 27), (w.toNat, 15), (l.toNat, 14), (c.toNat, 13)] = ω := ⟨_, rfl⟩
  simp only [pack] at hω
  have h0 : bits ω 21 6 = 12 := by simp only [bits]; omega
  have c0 : bits ω 0 13 = 0 := by simp only [bits]; omega
  have f0 : fld ω 27 4 = k := fld_eq _ _ _ (by omega)
  have f1 : fld ω 15 6 = w := fld_eq _ _ _ (by omega)
  have f2 : fld ω 14 1 = l := fld_eq _ _ _ (by omega)
  have f3 : fld ω 13 1 = c := fld_eq _ _ _ (by omega)
  exact of_sPriv rfl ω hω (by omega) (by simp only [bits]; omega) (by rw [sPriv_12 h0]; simp [c0, f0, f1, f2, f3])

theorem vadd (k : BitVec 4) (y : BitVec 3) (d : BitVec 4) (a : BitVec 4) (b : BitVec 4) (p : BitVec 4) : Statement (.vadd k y d a b p) := by
  have hk := k.isLt
  have hy := y.isLt
  have hd := d.isLt
  have ha := a.isLt
  have hb := b.isLt
  have hp := p.isLt
  obtain ⟨ω, hω⟩ : ∃ ω, pack 0x80000000 [(k.toNat, 27), (y.toNat, 18), (d.toNat, 14), (a.toNat, 10), (b.toNat, 6), (p.toNat, 2)] = ω := ⟨_, rfl⟩
  simp only [pack] at hω
  have h0 : bits ω 21 6 = 0 := by simp only [bits]; omega
  have c0 : bits ω 0 2 = 0 := by simp only [bits]; omega
  have f0 : fld ω 27 4 = k := fld_eq _ _ _ (by omega)
  have f1 : fld ω 18 3 = y := fld_eq _ _ _ (by omega)
  have f2 : fld ω 14 4 = d := fld_eq _ _ _ (by omega)
  have f3 : fld ω 10 4 = a := fld_eq _ _ _ (by omega)
  have f4 : fld ω 6 4 = b := fld_eq _ _ _ (by omega)
  have f5 : fld ω 2 4 = p := fld_eq _ _ _ (by omega)
  exact of_wPriv rfl ω hω (by omega) (by simp only [bits]; omega) (by rw [wPriv_0 h0]; simp [c0, f0, f1, f2, f3, f4, f5])

theorem vsub (k : BitVec 4) (y : BitVec 3) (d : BitVec 4) (a : BitVec 4) (b : BitVec 4) (p : BitVec 4) : Statement (.vsub k y d a b p) := by
  have hk := k.isLt
  have hy := y.isLt
  have hd := d.isLt
  have ha := a.isLt
  have hb := b.isLt
  have hp := p.isLt
  obtain ⟨ω, hω⟩ : ∃ ω, pack 0x80200000 [(k.toNat, 27), (y.toNat, 18), (d.toNat, 14), (a.toNat, 10), (b.toNat, 6), (p.toNat, 2)] = ω := ⟨_, rfl⟩
  simp only [pack] at hω
  have h0 : bits ω 21 6 = 1 := by simp only [bits]; omega
  have c0 : bits ω 0 2 = 0 := by simp only [bits]; omega
  have f0 : fld ω 27 4 = k := fld_eq _ _ _ (by omega)
  have f1 : fld ω 18 3 = y := fld_eq _ _ _ (by omega)
  have f2 : fld ω 14 4 = d := fld_eq _ _ _ (by omega)
  have f3 : fld ω 10 4 = a := fld_eq _ _ _ (by omega)
  have f4 : fld ω 6 4 = b := fld_eq _ _ _ (by omega)
  have f5 : fld ω 2 4 = p := fld_eq _ _ _ (by omega)
  exact of_wPriv rfl ω hω (by omega) (by simp only [bits]; omega) (by rw [wPriv_1 h0]; simp [c0, f0, f1, f2, f3, f4, f5])

theorem vmul (k : BitVec 4) (y : BitVec 3) (d : BitVec 4) (a : BitVec 4) (b : BitVec 4) (p : BitVec 4) : Statement (.vmul k y d a b p) := by
  have hk := k.isLt
  have hy := y.isLt
  have hd := d.isLt
  have ha := a.isLt
  have hb := b.isLt
  have hp := p.isLt
  obtain ⟨ω, hω⟩ : ∃ ω, pack 0x80400000 [(k.toNat, 27), (y.toNat, 18), (d.toNat, 14), (a.toNat, 10), (b.toNat, 6), (p.toNat, 2)] = ω := ⟨_, rfl⟩
  simp only [pack] at hω
  have h0 : bits ω 21 6 = 2 := by simp only [bits]; omega
  have c0 : bits ω 0 2 = 0 := by simp only [bits]; omega
  have f0 : fld ω 27 4 = k := fld_eq _ _ _ (by omega)
  have f1 : fld ω 18 3 = y := fld_eq _ _ _ (by omega)
  have f2 : fld ω 14 4 = d := fld_eq _ _ _ (by omega)
  have f3 : fld ω 10 4 = a := fld_eq _ _ _ (by omega)
  have f4 : fld ω 6 4 = b := fld_eq _ _ _ (by omega)
  have f5 : fld ω 2 4 = p := fld_eq _ _ _ (by omega)
  exact of_wPriv rfl ω hω (by omega) (by simp only [bits]; omega) (by rw [wPriv_2 h0]; simp [c0, f0, f1, f2, f3, f4, f5])

theorem vmulh (k : BitVec 4) (y : BitVec 3) (d : BitVec 4) (a : BitVec 4) (b : BitVec 4) (p : BitVec 4) : Statement (.vmulh k y d a b p) := by
  have hk := k.isLt
  have hy := y.isLt
  have hd := d.isLt
  have ha := a.isLt
  have hb := b.isLt
  have hp := p.isLt
  obtain ⟨ω, hω⟩ : ∃ ω, pack 0x80600000 [(k.toNat, 27), (y.toNat, 18), (d.toNat, 14), (a.toNat, 10), (b.toNat, 6), (p.toNat, 2)] = ω := ⟨_, rfl⟩
  simp only [pack] at hω
  have h0 : bits ω 21 6 = 3 := by simp only [bits]; omega
  have c0 : bits ω 0 2 = 0 := by simp only [bits]; omega
  have f0 : fld ω 27 4 = k := fld_eq _ _ _ (by omega)
  have f1 : fld ω 18 3 = y := fld_eq _ _ _ (by omega)
  have f2 : fld ω 14 4 = d := fld_eq _ _ _ (by omega)
  have f3 : fld ω 10 4 = a := fld_eq _ _ _ (by omega)
  have f4 : fld ω 6 4 = b := fld_eq _ _ _ (by omega)
  have f5 : fld ω 2 4 = p := fld_eq _ _ _ (by omega)
  exact of_wPriv rfl ω hω (by omega) (by simp only [bits]; omega) (by rw [wPriv_3 h0]; simp [c0, f0, f1, f2, f3, f4, f5])

theorem vmulhn (k : BitVec 4) (y : BitVec 3) (d : BitVec 4) (a : BitVec 4) (b : BitVec 4) (p : BitVec 4) : Statement (.vmulhn k y d a b p) := by
  have hk := k.isLt
  have hy := y.isLt
  have hd := d.isLt
  have ha := a.isLt
  have hb := b.isLt
  have hp := p.isLt
  obtain ⟨ω, hω⟩ : ∃ ω, pack 0x80600001 [(k.toNat, 27), (y.toNat, 18), (d.toNat, 14), (a.toNat, 10), (b.toNat, 6), (p.toNat, 2)] = ω := ⟨_, rfl⟩
  simp only [pack] at hω
  have h0 : bits ω 21 6 = 3 := by simp only [bits]; omega
  have c0 : bits ω 0 2 = 1 := by simp only [bits]; omega
  have f0 : fld ω 27 4 = k := fld_eq _ _ _ (by omega)
  have f1 : fld ω 18 3 = y := fld_eq _ _ _ (by omega)
  have f2 : fld ω 14 4 = d := fld_eq _ _ _ (by omega)
  have f3 : fld ω 10 4 = a := fld_eq _ _ _ (by omega)
  have f4 : fld ω 6 4 = b := fld_eq _ _ _ (by omega)
  have f5 : fld ω 2 4 = p := fld_eq _ _ _ (by omega)
  exact of_wPriv rfl ω hω (by omega) (by simp only [bits]; omega) (by rw [wPriv_3 h0]; simp [c0, f0, f1, f2, f3, f4, f5])

theorem vmin (k : BitVec 4) (y : BitVec 3) (d : BitVec 4) (a : BitVec 4) (b : BitVec 4) (p : BitVec 4) : Statement (.vmin k y d a b p) := by
  have hk := k.isLt
  have hy := y.isLt
  have hd := d.isLt
  have ha := a.isLt
  have hb := b.isLt
  have hp := p.isLt
  obtain ⟨ω, hω⟩ : ∃ ω, pack 0x80800000 [(k.toNat, 27), (y.toNat, 18), (d.toNat, 14), (a.toNat, 10), (b.toNat, 6), (p.toNat, 2)] = ω := ⟨_, rfl⟩
  simp only [pack] at hω
  have h0 : bits ω 21 6 = 4 := by simp only [bits]; omega
  have c0 : bits ω 0 2 = 0 := by simp only [bits]; omega
  have f0 : fld ω 27 4 = k := fld_eq _ _ _ (by omega)
  have f1 : fld ω 18 3 = y := fld_eq _ _ _ (by omega)
  have f2 : fld ω 14 4 = d := fld_eq _ _ _ (by omega)
  have f3 : fld ω 10 4 = a := fld_eq _ _ _ (by omega)
  have f4 : fld ω 6 4 = b := fld_eq _ _ _ (by omega)
  have f5 : fld ω 2 4 = p := fld_eq _ _ _ (by omega)
  exact of_wPriv rfl ω hω (by omega) (by simp only [bits]; omega) (by rw [wPriv_4 h0]; simp [c0, f0, f1, f2, f3, f4, f5])

theorem vminn (k : BitVec 4) (y : BitVec 3) (d : BitVec 4) (a : BitVec 4) (b : BitVec 4) (p : BitVec 4) : Statement (.vminn k y d a b p) := by
  have hk := k.isLt
  have hy := y.isLt
  have hd := d.isLt
  have ha := a.isLt
  have hb := b.isLt
  have hp := p.isLt
  obtain ⟨ω, hω⟩ : ∃ ω, pack 0x80800001 [(k.toNat, 27), (y.toNat, 18), (d.toNat, 14), (a.toNat, 10), (b.toNat, 6), (p.toNat, 2)] = ω := ⟨_, rfl⟩
  simp only [pack] at hω
  have h0 : bits ω 21 6 = 4 := by simp only [bits]; omega
  have c0 : bits ω 0 2 = 1 := by simp only [bits]; omega
  have f0 : fld ω 27 4 = k := fld_eq _ _ _ (by omega)
  have f1 : fld ω 18 3 = y := fld_eq _ _ _ (by omega)
  have f2 : fld ω 14 4 = d := fld_eq _ _ _ (by omega)
  have f3 : fld ω 10 4 = a := fld_eq _ _ _ (by omega)
  have f4 : fld ω 6 4 = b := fld_eq _ _ _ (by omega)
  have f5 : fld ω 2 4 = p := fld_eq _ _ _ (by omega)
  exact of_wPriv rfl ω hω (by omega) (by simp only [bits]; omega) (by rw [wPriv_4 h0]; simp [c0, f0, f1, f2, f3, f4, f5])

theorem vmax (k : BitVec 4) (y : BitVec 3) (d : BitVec 4) (a : BitVec 4) (b : BitVec 4) (p : BitVec 4) : Statement (.vmax k y d a b p) := by
  have hk := k.isLt
  have hy := y.isLt
  have hd := d.isLt
  have ha := a.isLt
  have hb := b.isLt
  have hp := p.isLt
  obtain ⟨ω, hω⟩ : ∃ ω, pack 0x80A00000 [(k.toNat, 27), (y.toNat, 18), (d.toNat, 14), (a.toNat, 10), (b.toNat, 6), (p.toNat, 2)] = ω := ⟨_, rfl⟩
  simp only [pack] at hω
  have h0 : bits ω 21 6 = 5 := by simp only [bits]; omega
  have c0 : bits ω 0 2 = 0 := by simp only [bits]; omega
  have f0 : fld ω 27 4 = k := fld_eq _ _ _ (by omega)
  have f1 : fld ω 18 3 = y := fld_eq _ _ _ (by omega)
  have f2 : fld ω 14 4 = d := fld_eq _ _ _ (by omega)
  have f3 : fld ω 10 4 = a := fld_eq _ _ _ (by omega)
  have f4 : fld ω 6 4 = b := fld_eq _ _ _ (by omega)
  have f5 : fld ω 2 4 = p := fld_eq _ _ _ (by omega)
  exact of_wPriv rfl ω hω (by omega) (by simp only [bits]; omega) (by rw [wPriv_5 h0]; simp [c0, f0, f1, f2, f3, f4, f5])

theorem vmaxn (k : BitVec 4) (y : BitVec 3) (d : BitVec 4) (a : BitVec 4) (b : BitVec 4) (p : BitVec 4) : Statement (.vmaxn k y d a b p) := by
  have hk := k.isLt
  have hy := y.isLt
  have hd := d.isLt
  have ha := a.isLt
  have hb := b.isLt
  have hp := p.isLt
  obtain ⟨ω, hω⟩ : ∃ ω, pack 0x80A00001 [(k.toNat, 27), (y.toNat, 18), (d.toNat, 14), (a.toNat, 10), (b.toNat, 6), (p.toNat, 2)] = ω := ⟨_, rfl⟩
  simp only [pack] at hω
  have h0 : bits ω 21 6 = 5 := by simp only [bits]; omega
  have c0 : bits ω 0 2 = 1 := by simp only [bits]; omega
  have f0 : fld ω 27 4 = k := fld_eq _ _ _ (by omega)
  have f1 : fld ω 18 3 = y := fld_eq _ _ _ (by omega)
  have f2 : fld ω 14 4 = d := fld_eq _ _ _ (by omega)
  have f3 : fld ω 10 4 = a := fld_eq _ _ _ (by omega)
  have f4 : fld ω 6 4 = b := fld_eq _ _ _ (by omega)
  have f5 : fld ω 2 4 = p := fld_eq _ _ _ (by omega)
  exact of_wPriv rfl ω hω (by omega) (by simp only [bits]; omega) (by rw [wPriv_5 h0]; simp [c0, f0, f1, f2, f3, f4, f5])

theorem vand (k : BitVec 4) (y : BitVec 3) (d : BitVec 4) (a : BitVec 4) (b : BitVec 4) (p : BitVec 4) : Statement (.vand k y d a b p) := by
  have hk := k.isLt
  have hy := y.isLt
  have hd := d.isLt
  have ha := a.isLt
  have hb := b.isLt
  have hp := p.isLt
  obtain ⟨ω, hω⟩ : ∃ ω, pack 0x80C00000 [(k.toNat, 27), (y.toNat, 18), (d.toNat, 14), (a.toNat, 10), (b.toNat, 6), (p.toNat, 2)] = ω := ⟨_, rfl⟩
  simp only [pack] at hω
  have h0 : bits ω 21 6 = 6 := by simp only [bits]; omega
  have c0 : bits ω 0 2 = 0 := by simp only [bits]; omega
  have f0 : fld ω 27 4 = k := fld_eq _ _ _ (by omega)
  have f1 : fld ω 18 3 = y := fld_eq _ _ _ (by omega)
  have f2 : fld ω 14 4 = d := fld_eq _ _ _ (by omega)
  have f3 : fld ω 10 4 = a := fld_eq _ _ _ (by omega)
  have f4 : fld ω 6 4 = b := fld_eq _ _ _ (by omega)
  have f5 : fld ω 2 4 = p := fld_eq _ _ _ (by omega)
  exact of_wPriv rfl ω hω (by omega) (by simp only [bits]; omega) (by rw [wPriv_6 h0]; simp [c0, f0, f1, f2, f3, f4, f5])

theorem vor (k : BitVec 4) (y : BitVec 3) (d : BitVec 4) (a : BitVec 4) (b : BitVec 4) (p : BitVec 4) : Statement (.vor k y d a b p) := by
  have hk := k.isLt
  have hy := y.isLt
  have hd := d.isLt
  have ha := a.isLt
  have hb := b.isLt
  have hp := p.isLt
  obtain ⟨ω, hω⟩ : ∃ ω, pack 0x80E00000 [(k.toNat, 27), (y.toNat, 18), (d.toNat, 14), (a.toNat, 10), (b.toNat, 6), (p.toNat, 2)] = ω := ⟨_, rfl⟩
  simp only [pack] at hω
  have h0 : bits ω 21 6 = 7 := by simp only [bits]; omega
  have c0 : bits ω 0 2 = 0 := by simp only [bits]; omega
  have f0 : fld ω 27 4 = k := fld_eq _ _ _ (by omega)
  have f1 : fld ω 18 3 = y := fld_eq _ _ _ (by omega)
  have f2 : fld ω 14 4 = d := fld_eq _ _ _ (by omega)
  have f3 : fld ω 10 4 = a := fld_eq _ _ _ (by omega)
  have f4 : fld ω 6 4 = b := fld_eq _ _ _ (by omega)
  have f5 : fld ω 2 4 = p := fld_eq _ _ _ (by omega)
  exact of_wPriv rfl ω hω (by omega) (by simp only [bits]; omega) (by rw [wPriv_7 h0]; simp [c0, f0, f1, f2, f3, f4, f5])

theorem vxor (k : BitVec 4) (y : BitVec 3) (d : BitVec 4) (a : BitVec 4) (b : BitVec 4) (p : BitVec 4) : Statement (.vxor k y d a b p) := by
  have hk := k.isLt
  have hy := y.isLt
  have hd := d.isLt
  have ha := a.isLt
  have hb := b.isLt
  have hp := p.isLt
  obtain ⟨ω, hω⟩ : ∃ ω, pack 0x81000000 [(k.toNat, 27), (y.toNat, 18), (d.toNat, 14), (a.toNat, 10), (b.toNat, 6), (p.toNat, 2)] = ω := ⟨_, rfl⟩
  simp only [pack] at hω
  have h0 : bits ω 21 6 = 8 := by simp only [bits]; omega
  have c0 : bits ω 0 2 = 0 := by simp only [bits]; omega
  have f0 : fld ω 27 4 = k := fld_eq _ _ _ (by omega)
  have f1 : fld ω 18 3 = y := fld_eq _ _ _ (by omega)
  have f2 : fld ω 14 4 = d := fld_eq _ _ _ (by omega)
  have f3 : fld ω 10 4 = a := fld_eq _ _ _ (by omega)
  have f4 : fld ω 6 4 = b := fld_eq _ _ _ (by omega)
  have f5 : fld ω 2 4 = p := fld_eq _ _ _ (by omega)
  exact of_wPriv rfl ω hω (by omega) (by simp only [bits]; omega) (by rw [wPriv_8 h0]; simp [c0, f0, f1, f2, f3, f4, f5])

theorem vshl (k : BitVec 4) (y : BitVec 3) (d : BitVec 4) (a : BitVec 4) (b : BitVec 4) (p : BitVec 4) : Statement (.vshl k y d a b p) := by
  have hk := k.isLt
  have hy := y.isLt
  have hd := d.isLt
  have ha := a.isLt
  have hb := b.isLt
  have hp := p.isLt
  obtain ⟨ω, hω⟩ : ∃ ω, pack 0x81200000 [(k.toNat, 27), (y.toNat, 18), (d.toNat, 14), (a.toNat, 10), (b.toNat, 6), (p.toNat, 2)] = ω := ⟨_, rfl⟩
  simp only [pack] at hω
  have h0 : bits ω 21 6 = 9 := by simp only [bits]; omega
  have c0 : bits ω 0 2 = 0 := by simp only [bits]; omega
  have f0 : fld ω 27 4 = k := fld_eq _ _ _ (by omega)
  have f1 : fld ω 18 3 = y := fld_eq _ _ _ (by omega)
  have f2 : fld ω 14 4 = d := fld_eq _ _ _ (by omega)
  have f3 : fld ω 10 4 = a := fld_eq _ _ _ (by omega)
  have f4 : fld ω 6 4 = b := fld_eq _ _ _ (by omega)
  have f5 : fld ω 2 4 = p := fld_eq _ _ _ (by omega)
  exact of_wPriv rfl ω hω (by omega) (by simp only [bits]; omega) (by rw [wPriv_9 h0]; simp [c0, f0, f1, f2, f3, f4, f5])

theorem vshr (k : BitVec 4) (y : BitVec 3) (d : BitVec 4) (a : BitVec 4) (b : BitVec 4) (p : BitVec 4) : Statement (.vshr k y d a b p) := by
  have hk := k.isLt
  have hy := y.isLt
  have hd := d.isLt
  have ha := a.isLt
  have hb := b.isLt
  have hp := p.isLt
  obtain ⟨ω, hω⟩ : ∃ ω, pack 0x81400000 [(k.toNat, 27), (y.toNat, 18), (d.toNat, 14), (a.toNat, 10), (b.toNat, 6), (p.toNat, 2)] = ω := ⟨_, rfl⟩
  simp only [pack] at hω
  have h0 : bits ω 21 6 = 10 := by simp only [bits]; omega
  have c0 : bits ω 0 2 = 0 := by simp only [bits]; omega
  have f0 : fld ω 27 4 = k := fld_eq _ _ _ (by omega)
  have f1 : fld ω 18 3 = y := fld_eq _ _ _ (by omega)
  have f2 : fld ω 14 4 = d := fld_eq _ _ _ (by omega)
  have f3 : fld ω 10 4 = a := fld_eq _ _ _ (by omega)
  have f4 : fld ω 6 4 = b := fld_eq _ _ _ (by omega)
  have f5 : fld ω 2 4 = p := fld_eq _ _ _ (by omega)
  exact of_wPriv rfl ω hω (by omega) (by simp only [bits]; omega) (by rw [wPriv_10 h0]; simp [c0, f0, f1, f2, f3, f4, f5])

theorem vsar (k : BitVec 4) (y : BitVec 3) (d : BitVec 4) (a : BitVec 4) (b : BitVec 4) (p : BitVec 4) : Statement (.vsar k y d a b p) := by
  have hk := k.isLt
  have hy := y.isLt
  have hd := d.isLt
  have ha := a.isLt
  have hb := b.isLt
  have hp := p.isLt
  obtain ⟨ω, hω⟩ : ∃ ω, pack 0x81400001 [(k.toNat, 27), (y.toNat, 18), (d.toNat, 14), (a.toNat, 10), (b.toNat, 6), (p.toNat, 2)] = ω := ⟨_, rfl⟩
  simp only [pack] at hω
  have h0 : bits ω 21 6 = 10 := by simp only [bits]; omega
  have c0 : bits ω 0 2 = 1 := by simp only [bits]; omega
  have f0 : fld ω 27 4 = k := fld_eq _ _ _ (by omega)
  have f1 : fld ω 18 3 = y := fld_eq _ _ _ (by omega)
  have f2 : fld ω 14 4 = d := fld_eq _ _ _ (by omega)
  have f3 : fld ω 10 4 = a := fld_eq _ _ _ (by omega)
  have f4 : fld ω 6 4 = b := fld_eq _ _ _ (by omega)
  have f5 : fld ω 2 4 = p := fld_eq _ _ _ (by omega)
  exact of_wPriv rfl ω hω (by omega) (by simp only [bits]; omega) (by rw [wPriv_10 h0]; simp [c0, f0, f1, f2, f3, f4, f5])

theorem vfshl (k : BitVec 4) (y : BitVec 3) (d : BitVec 4) (a : BitVec 4) (b : BitVec 4) (p : BitVec 4) : Statement (.vfshl k y d a b p) := by
  have hk := k.isLt
  have hy := y.isLt
  have hd := d.isLt
  have ha := a.isLt
  have hb := b.isLt
  have hp := p.isLt
  obtain ⟨ω, hω⟩ : ∃ ω, pack 0x81600000 [(k.toNat, 27), (y.toNat, 18), (d.toNat, 14), (a.toNat, 10), (b.toNat, 6), (p.toNat, 2)] = ω := ⟨_, rfl⟩
  simp only [pack] at hω
  have h0 : bits ω 21 6 = 11 := by simp only [bits]; omega
  have c0 : bits ω 0 2 = 0 := by simp only [bits]; omega
  have f0 : fld ω 27 4 = k := fld_eq _ _ _ (by omega)
  have f1 : fld ω 18 3 = y := fld_eq _ _ _ (by omega)
  have f2 : fld ω 14 4 = d := fld_eq _ _ _ (by omega)
  have f3 : fld ω 10 4 = a := fld_eq _ _ _ (by omega)
  have f4 : fld ω 6 4 = b := fld_eq _ _ _ (by omega)
  have f5 : fld ω 2 4 = p := fld_eq _ _ _ (by omega)
  exact of_wPriv rfl ω hω (by omega) (by simp only [bits]; omega) (by rw [wPriv_11 h0]; simp [c0, f0, f1, f2, f3, f4, f5])

theorem vfshr (k : BitVec 4) (y : BitVec 3) (d : BitVec 4) (a : BitVec 4) (b : BitVec 4) (p : BitVec 4) : Statement (.vfshr k y d a b p) := by
  have hk := k.isLt
  have hy := y.isLt
  have hd := d.isLt
  have ha := a.isLt
  have hb := b.isLt
  have hp := p.isLt
  obtain ⟨ω, hω⟩ : ∃ ω, pack 0x81600001 [(k.toNat, 27), (y.toNat, 18), (d.toNat, 14), (a.toNat, 10), (b.toNat, 6), (p.toNat, 2)] = ω := ⟨_, rfl⟩
  simp only [pack] at hω
  have h0 : bits ω 21 6 = 11 := by simp only [bits]; omega
  have c0 : bits ω 0 2 = 1 := by simp only [bits]; omega
  have f0 : fld ω 27 4 = k := fld_eq _ _ _ (by omega)
  have f1 : fld ω 18 3 = y := fld_eq _ _ _ (by omega)
  have f2 : fld ω 14 4 = d := fld_eq _ _ _ (by omega)
  have f3 : fld ω 10 4 = a := fld_eq _ _ _ (by omega)
  have f4 : fld ω 6 4 = b := fld_eq _ _ _ (by omega)
  have f5 : fld ω 2 4 = p := fld_eq _ _ _ (by omega)
  exact of_wPriv rfl ω hω (by omega) (by simp only [bits]; omega) (by rw [wPriv_11 h0]; simp [c0, f0, f1, f2, f3, f4, f5])

theorem vclz (k : BitVec 4) (y : BitVec 3) (d : BitVec 4) (a : BitVec 4) (p : BitVec 4) : Statement (.vclz k y d a p) := by
  have hk := k.isLt
  have hy := y.isLt
  have hd := d.isLt
  have ha := a.isLt
  have hp := p.isLt
  obtain ⟨ω, hω⟩ : ∃ ω, pack 0x81800000 [(k.toNat, 27), (y.toNat, 18), (d.toNat, 14), (a.toNat, 10), (p.toNat, 2)] = ω := ⟨_, rfl⟩
  simp only [pack] at hω
  have h0 : bits ω 21 6 = 12 := by simp only [bits]; omega
  have c0 : bits ω 0 2 = 0 := by simp only [bits]; omega
  have c1 : bits ω 6 4 = 0 := by simp only [bits]; omega
  have f0 : fld ω 27 4 = k := fld_eq _ _ _ (by omega)
  have f1 : fld ω 18 3 = y := fld_eq _ _ _ (by omega)
  have f2 : fld ω 14 4 = d := fld_eq _ _ _ (by omega)
  have f3 : fld ω 10 4 = a := fld_eq _ _ _ (by omega)
  have f4 : fld ω 2 4 = p := fld_eq _ _ _ (by omega)
  exact of_wPriv rfl ω hω (by omega) (by simp only [bits]; omega) (by rw [wPriv_12 h0]; simp [c0, c1, f0, f1, f2, f3, f4])

theorem vpopc (k : BitVec 4) (y : BitVec 3) (d : BitVec 4) (a : BitVec 4) (p : BitVec 4) : Statement (.vpopc k y d a p) := by
  have hk := k.isLt
  have hy := y.isLt
  have hd := d.isLt
  have ha := a.isLt
  have hp := p.isLt
  obtain ⟨ω, hω⟩ : ∃ ω, pack 0x81A00000 [(k.toNat, 27), (y.toNat, 18), (d.toNat, 14), (a.toNat, 10), (p.toNat, 2)] = ω := ⟨_, rfl⟩
  simp only [pack] at hω
  have h0 : bits ω 21 6 = 13 := by simp only [bits]; omega
  have c0 : bits ω 0 2 = 0 := by simp only [bits]; omega
  have c1 : bits ω 6 4 = 0 := by simp only [bits]; omega
  have f0 : fld ω 27 4 = k := fld_eq _ _ _ (by omega)
  have f1 : fld ω 18 3 = y := fld_eq _ _ _ (by omega)
  have f2 : fld ω 14 4 = d := fld_eq _ _ _ (by omega)
  have f3 : fld ω 10 4 = a := fld_eq _ _ _ (by omega)
  have f4 : fld ω 2 4 = p := fld_eq _ _ _ (by omega)
  exact of_wPriv rfl ω hω (by omega) (by simp only [bits]; omega) (by rw [wPriv_13 h0]; simp [c0, c1, f0, f1, f2, f3, f4])

theorem vadds (k : BitVec 4) (y : BitVec 3) (d : BitVec 4) (a : BitVec 4) (b : BitVec 4) (p : BitVec 4) : Statement (.vadds k y d a b p) := by
  have hk := k.isLt
  have hy := y.isLt
  have hd := d.isLt
  have ha := a.isLt
  have hb := b.isLt
  have hp := p.isLt
  obtain ⟨ω, hω⟩ : ∃ ω, pack 0x81C00000 [(k.toNat, 27), (y.toNat, 18), (d.toNat, 14), (a.toNat, 10), (b.toNat, 6), (p.toNat, 2)] = ω := ⟨_, rfl⟩
  simp only [pack] at hω
  have h0 : bits ω 21 6 = 14 := by simp only [bits]; omega
  have c0 : bits ω 0 2 = 0 := by simp only [bits]; omega
  have f0 : fld ω 27 4 = k := fld_eq _ _ _ (by omega)
  have f1 : fld ω 18 3 = y := fld_eq _ _ _ (by omega)
  have f2 : fld ω 14 4 = d := fld_eq _ _ _ (by omega)
  have f3 : fld ω 10 4 = a := fld_eq _ _ _ (by omega)
  have f4 : fld ω 6 4 = b := fld_eq _ _ _ (by omega)
  have f5 : fld ω 2 4 = p := fld_eq _ _ _ (by omega)
  exact of_wPriv rfl ω hω (by omega) (by simp only [bits]; omega) (by rw [wPriv_14 h0]; simp [c0, f0, f1, f2, f3, f4, f5])

theorem vaddsn (k : BitVec 4) (y : BitVec 3) (d : BitVec 4) (a : BitVec 4) (b : BitVec 4) (p : BitVec 4) : Statement (.vaddsn k y d a b p) := by
  have hk := k.isLt
  have hy := y.isLt
  have hd := d.isLt
  have ha := a.isLt
  have hb := b.isLt
  have hp := p.isLt
  obtain ⟨ω, hω⟩ : ∃ ω, pack 0x81C00001 [(k.toNat, 27), (y.toNat, 18), (d.toNat, 14), (a.toNat, 10), (b.toNat, 6), (p.toNat, 2)] = ω := ⟨_, rfl⟩
  simp only [pack] at hω
  have h0 : bits ω 21 6 = 14 := by simp only [bits]; omega
  have c0 : bits ω 0 2 = 1 := by simp only [bits]; omega
  have f0 : fld ω 27 4 = k := fld_eq _ _ _ (by omega)
  have f1 : fld ω 18 3 = y := fld_eq _ _ _ (by omega)
  have f2 : fld ω 14 4 = d := fld_eq _ _ _ (by omega)
  have f3 : fld ω 10 4 = a := fld_eq _ _ _ (by omega)
  have f4 : fld ω 6 4 = b := fld_eq _ _ _ (by omega)
  have f5 : fld ω 2 4 = p := fld_eq _ _ _ (by omega)
  exact of_wPriv rfl ω hω (by omega) (by simp only [bits]; omega) (by rw [wPriv_14 h0]; simp [c0, f0, f1, f2, f3, f4, f5])

theorem vsubs (k : BitVec 4) (y : BitVec 3) (d : BitVec 4) (a : BitVec 4) (b : BitVec 4) (p : BitVec 4) : Statement (.vsubs k y d a b p) := by
  have hk := k.isLt
  have hy := y.isLt
  have hd := d.isLt
  have ha := a.isLt
  have hb := b.isLt
  have hp := p.isLt
  obtain ⟨ω, hω⟩ : ∃ ω, pack 0x81E00000 [(k.toNat, 27), (y.toNat, 18), (d.toNat, 14), (a.toNat, 10), (b.toNat, 6), (p.toNat, 2)] = ω := ⟨_, rfl⟩
  simp only [pack] at hω
  have h0 : bits ω 21 6 = 15 := by simp only [bits]; omega
  have c0 : bits ω 0 2 = 0 := by simp only [bits]; omega
  have f0 : fld ω 27 4 = k := fld_eq _ _ _ (by omega)
  have f1 : fld ω 18 3 = y := fld_eq _ _ _ (by omega)
  have f2 : fld ω 14 4 = d := fld_eq _ _ _ (by omega)
  have f3 : fld ω 10 4 = a := fld_eq _ _ _ (by omega)
  have f4 : fld ω 6 4 = b := fld_eq _ _ _ (by omega)
  have f5 : fld ω 2 4 = p := fld_eq _ _ _ (by omega)
  exact of_wPriv rfl ω hω (by omega) (by simp only [bits]; omega) (by rw [wPriv_15 h0]; simp [c0, f0, f1, f2, f3, f4, f5])

theorem vsubsn (k : BitVec 4) (y : BitVec 3) (d : BitVec 4) (a : BitVec 4) (b : BitVec 4) (p : BitVec 4) : Statement (.vsubsn k y d a b p) := by
  have hk := k.isLt
  have hy := y.isLt
  have hd := d.isLt
  have ha := a.isLt
  have hb := b.isLt
  have hp := p.isLt
  obtain ⟨ω, hω⟩ : ∃ ω, pack 0x81E00001 [(k.toNat, 27), (y.toNat, 18), (d.toNat, 14), (a.toNat, 10), (b.toNat, 6), (p.toNat, 2)] = ω := ⟨_, rfl⟩
  simp only [pack] at hω
  have h0 : bits ω 21 6 = 15 := by simp only [bits]; omega
  have c0 : bits ω 0 2 = 1 := by simp only [bits]; omega
  have f0 : fld ω 27 4 = k := fld_eq _ _ _ (by omega)
  have f1 : fld ω 18 3 = y := fld_eq _ _ _ (by omega)
  have f2 : fld ω 14 4 = d := fld_eq _ _ _ (by omega)
  have f3 : fld ω 10 4 = a := fld_eq _ _ _ (by omega)
  have f4 : fld ω 6 4 = b := fld_eq _ _ _ (by omega)
  have f5 : fld ω 2 4 = p := fld_eq _ _ _ (by omega)
  exact of_wPriv rfl ω hω (by omega) (by simp only [bits]; omega) (by rw [wPriv_15 h0]; simp [c0, f0, f1, f2, f3, f4, f5])

theorem vabs (k : BitVec 4) (y : BitVec 3) (d : BitVec 4) (a : BitVec 4) (p : BitVec 4) : Statement (.vabs k y d a p) := by
  have hk := k.isLt
  have hy := y.isLt
  have hd := d.isLt
  have ha := a.isLt
  have hp := p.isLt
  obtain ⟨ω, hω⟩ : ∃ ω, pack 0x82000000 [(k.toNat, 27), (y.toNat, 18), (d.toNat, 14), (a.toNat, 10), (p.toNat, 2)] = ω := ⟨_, rfl⟩
  simp only [pack] at hω
  have h0 : bits ω 21 6 = 16 := by simp only [bits]; omega
  have c0 : bits ω 0 2 = 0 := by simp only [bits]; omega
  have c1 : bits ω 6 4 = 0 := by simp only [bits]; omega
  have f0 : fld ω 27 4 = k := fld_eq _ _ _ (by omega)
  have f1 : fld ω 18 3 = y := fld_eq _ _ _ (by omega)
  have f2 : fld ω 14 4 = d := fld_eq _ _ _ (by omega)
  have f3 : fld ω 10 4 = a := fld_eq _ _ _ (by omega)
  have f4 : fld ω 2 4 = p := fld_eq _ _ _ (by omega)
  exact of_wPriv rfl ω hω (by omega) (by simp only [bits]; omega) (by rw [wPriv_16 h0]; simp [c0, c1, f0, f1, f2, f3, f4])

theorem vabss (k : BitVec 4) (y : BitVec 3) (d : BitVec 4) (a : BitVec 4) (p : BitVec 4) : Statement (.vabss k y d a p) := by
  have hk := k.isLt
  have hy := y.isLt
  have hd := d.isLt
  have ha := a.isLt
  have hp := p.isLt
  obtain ⟨ω, hω⟩ : ∃ ω, pack 0x82000001 [(k.toNat, 27), (y.toNat, 18), (d.toNat, 14), (a.toNat, 10), (p.toNat, 2)] = ω := ⟨_, rfl⟩
  simp only [pack] at hω
  have h0 : bits ω 21 6 = 16 := by simp only [bits]; omega
  have c0 : bits ω 0 2 = 1 := by simp only [bits]; omega
  have c1 : bits ω 6 4 = 0 := by simp only [bits]; omega
  have f0 : fld ω 27 4 = k := fld_eq _ _ _ (by omega)
  have f1 : fld ω 18 3 = y := fld_eq _ _ _ (by omega)
  have f2 : fld ω 14 4 = d := fld_eq _ _ _ (by omega)
  have f3 : fld ω 10 4 = a := fld_eq _ _ _ (by omega)
  have f4 : fld ω 2 4 = p := fld_eq _ _ _ (by omega)
  exact of_wPriv rfl ω hω (by omega) (by simp only [bits]; omega) (by rw [wPriv_16 h0]; simp [c0, c1, f0, f1, f2, f3, f4])

theorem vcmp (k : BitVec 4) (y : BitVec 3) (d : BitVec 4) (a : BitVec 4) (b : BitVec 4) (p : BitVec 4) (c : BitVec 2) : Statement (.vcmp k y d a b p c) := by
  have hk := k.isLt
  have hy := y.isLt
  have hd := d.isLt
  have ha := a.isLt
  have hb := b.isLt
  have hp := p.isLt
  have hc := c.isLt
  obtain ⟨ω, hω⟩ : ∃ ω, pack 0x82200000 [(k.toNat, 27), (y.toNat, 18), (d.toNat, 14), (a.toNat, 10), (b.toNat, 6), (p.toNat, 2), (c.toNat, 0)] = ω := ⟨_, rfl⟩
  simp only [pack] at hω
  have h0 : bits ω 21 6 = 17 := by simp only [bits]; omega
  have f0 : fld ω 27 4 = k := fld_eq _ _ _ (by omega)
  have f1 : fld ω 18 3 = y := fld_eq _ _ _ (by omega)
  have f2 : fld ω 14 4 = d := fld_eq _ _ _ (by omega)
  have f3 : fld ω 10 4 = a := fld_eq _ _ _ (by omega)
  have f4 : fld ω 6 4 = b := fld_eq _ _ _ (by omega)
  have f5 : fld ω 2 4 = p := fld_eq _ _ _ (by omega)
  have f6 : fld ω 0 2 = c := fld_eq _ _ _ (by omega)
  exact of_wPriv rfl ω hω (by omega) (by simp only [bits]; omega) (by rw [wPriv_17 h0]; simp [f0, f1, f2, f3, f4, f5, f6])

theorem vcmpn (k : BitVec 4) (y : BitVec 3) (d : BitVec 4) (a : BitVec 4) (b : BitVec 4) (p : BitVec 4) (c : BitVec 2) : Statement (.vcmpn k y d a b p c) := by
  have hk := k.isLt
  have hy := y.isLt
  have hd := d.isLt
  have ha := a.isLt
  have hb := b.isLt
  have hp := p.isLt
  have hc := c.isLt
  obtain ⟨ω, hω⟩ : ∃ ω, pack 0x82400000 [(k.toNat, 27), (y.toNat, 18), (d.toNat, 14), (a.toNat, 10), (b.toNat, 6), (p.toNat, 2), (c.toNat, 0)] = ω := ⟨_, rfl⟩
  simp only [pack] at hω
  have h0 : bits ω 21 6 = 18 := by simp only [bits]; omega
  have f0 : fld ω 27 4 = k := fld_eq _ _ _ (by omega)
  have f1 : fld ω 18 3 = y := fld_eq _ _ _ (by omega)
  have f2 : fld ω 14 4 = d := fld_eq _ _ _ (by omega)
  have f3 : fld ω 10 4 = a := fld_eq _ _ _ (by omega)
  have f4 : fld ω 6 4 = b := fld_eq _ _ _ (by omega)
  have f5 : fld ω 2 4 = p := fld_eq _ _ _ (by omega)
  have f6 : fld ω 0 2 = c := fld_eq _ _ _ (by omega)
  exact of_wPriv rfl ω hω (by omega) (by simp only [bits]; omega) (by rw [wPriv_18 h0]; simp [f0, f1, f2, f3, f4, f5, f6])

theorem vsel (k : BitVec 4) (y : BitVec 3) (d : BitVec 4) (a : BitVec 4) (b : BitVec 4) (p : BitVec 4) : Statement (.vsel k y d a b p) := by
  have hk := k.isLt
  have hy := y.isLt
  have hd := d.isLt
  have ha := a.isLt
  have hb := b.isLt
  have hp := p.isLt
  obtain ⟨ω, hω⟩ : ∃ ω, pack 0x82600000 [(k.toNat, 27), (y.toNat, 18), (d.toNat, 14), (a.toNat, 10), (b.toNat, 6), (p.toNat, 2)] = ω := ⟨_, rfl⟩
  simp only [pack] at hω
  have h0 : bits ω 21 6 = 19 := by simp only [bits]; omega
  have c0 : bits ω 0 2 = 0 := by simp only [bits]; omega
  have f0 : fld ω 27 4 = k := fld_eq _ _ _ (by omega)
  have f1 : fld ω 18 3 = y := fld_eq _ _ _ (by omega)
  have f2 : fld ω 14 4 = d := fld_eq _ _ _ (by omega)
  have f3 : fld ω 10 4 = a := fld_eq _ _ _ (by omega)
  have f4 : fld ω 6 4 = b := fld_eq _ _ _ (by omega)
  have f5 : fld ω 2 4 = p := fld_eq _ _ _ (by omega)
  exact of_wPriv rfl ω hω (by omega) (by simp only [bits]; omega) (by rw [wPriv_19 h0]; simp [c0, f0, f1, f2, f3, f4, f5])

theorem vaddi (k : BitVec 4) (y : BitVec 3) (d : BitVec 4) (a : BitVec 4) (i : BitVec 8) (p : BitVec 2) : Statement (.vaddi k y d a i p) := by
  have hk := k.isLt
  have hy := y.isLt
  have hd := d.isLt
  have ha := a.isLt
  have hi := i.isLt
  have hp := p.isLt
  obtain ⟨ω, hω⟩ : ∃ ω, pack 0x82800000 [(k.toNat, 27), (y.toNat, 18), (d.toNat, 14), (a.toNat, 10), (i.toNat, 2), (p.toNat, 0)] = ω := ⟨_, rfl⟩
  simp only [pack] at hω
  have h0 : bits ω 21 6 = 20 := by simp only [bits]; omega
  have f0 : fld ω 27 4 = k := fld_eq _ _ _ (by omega)
  have f1 : fld ω 18 3 = y := fld_eq _ _ _ (by omega)
  have f2 : fld ω 14 4 = d := fld_eq _ _ _ (by omega)
  have f3 : fld ω 10 4 = a := fld_eq _ _ _ (by omega)
  have f4 : fld ω 2 8 = i := fld_eq _ _ _ (by omega)
  have f5 : fld ω 0 2 = p := fld_eq _ _ _ (by omega)
  exact of_wPriv rfl ω hω (by omega) (by simp only [bits]; omega) (by rw [wPriv_20 h0]; simp [f0, f1, f2, f3, f4, f5])

theorem vshli (k : BitVec 4) (y : BitVec 3) (d : BitVec 4) (a : BitVec 4) (s : BitVec 6) (p : BitVec 2) : Statement (.vshli k y d a s p) := by
  have hk := k.isLt
  have hy := y.isLt
  have hd := d.isLt
  have ha := a.isLt
  have hs := s.isLt
  have hp := p.isLt
  obtain ⟨ω, hω⟩ : ∃ ω, pack 0x82A00000 [(k.toNat, 27), (y.toNat, 18), (d.toNat, 14), (a.toNat, 10), (s.toNat, 2), (p.toNat, 0)] = ω := ⟨_, rfl⟩
  simp only [pack] at hω
  have h0 : bits ω 21 6 = 21 := by simp only [bits]; omega
  have c0 : bits ω 8 2 = 0 := by simp only [bits]; omega
  have f0 : fld ω 27 4 = k := fld_eq _ _ _ (by omega)
  have f1 : fld ω 18 3 = y := fld_eq _ _ _ (by omega)
  have f2 : fld ω 14 4 = d := fld_eq _ _ _ (by omega)
  have f3 : fld ω 10 4 = a := fld_eq _ _ _ (by omega)
  have f4 : fld ω 2 6 = s := fld_eq _ _ _ (by omega)
  have f5 : fld ω 0 2 = p := fld_eq _ _ _ (by omega)
  exact of_wPriv rfl ω hω (by omega) (by simp only [bits]; omega) (by rw [wPriv_21 h0]; simp [c0, f0, f1, f2, f3, f4, f5])

theorem vshri (k : BitVec 4) (y : BitVec 3) (d : BitVec 4) (a : BitVec 4) (s : BitVec 6) (p : BitVec 2) : Statement (.vshri k y d a s p) := by
  have hk := k.isLt
  have hy := y.isLt
  have hd := d.isLt
  have ha := a.isLt
  have hs := s.isLt
  have hp := p.isLt
  obtain ⟨ω, hω⟩ : ∃ ω, pack 0x82A00100 [(k.toNat, 27), (y.toNat, 18), (d.toNat, 14), (a.toNat, 10), (s.toNat, 2), (p.toNat, 0)] = ω := ⟨_, rfl⟩
  simp only [pack] at hω
  have h0 : bits ω 21 6 = 21 := by simp only [bits]; omega
  have c0 : bits ω 8 2 = 1 := by simp only [bits]; omega
  have f0 : fld ω 27 4 = k := fld_eq _ _ _ (by omega)
  have f1 : fld ω 18 3 = y := fld_eq _ _ _ (by omega)
  have f2 : fld ω 14 4 = d := fld_eq _ _ _ (by omega)
  have f3 : fld ω 10 4 = a := fld_eq _ _ _ (by omega)
  have f4 : fld ω 2 6 = s := fld_eq _ _ _ (by omega)
  have f5 : fld ω 0 2 = p := fld_eq _ _ _ (by omega)
  exact of_wPriv rfl ω hω (by omega) (by simp only [bits]; omega) (by rw [wPriv_21 h0]; simp [c0, f0, f1, f2, f3, f4, f5])

theorem vsari (k : BitVec 4) (y : BitVec 3) (d : BitVec 4) (a : BitVec 4) (s : BitVec 6) (p : BitVec 2) : Statement (.vsari k y d a s p) := by
  have hk := k.isLt
  have hy := y.isLt
  have hd := d.isLt
  have ha := a.isLt
  have hs := s.isLt
  have hp := p.isLt
  obtain ⟨ω, hω⟩ : ∃ ω, pack 0x82A00200 [(k.toNat, 27), (y.toNat, 18), (d.toNat, 14), (a.toNat, 10), (s.toNat, 2), (p.toNat, 0)] = ω := ⟨_, rfl⟩
  simp only [pack] at hω
  have h0 : bits ω 21 6 = 21 := by simp only [bits]; omega
  have c0 : bits ω 8 2 = 2 := by simp only [bits]; omega
  have f0 : fld ω 27 4 = k := fld_eq _ _ _ (by omega)
  have f1 : fld ω 18 3 = y := fld_eq _ _ _ (by omega)
  have f2 : fld ω 14 4 = d := fld_eq _ _ _ (by omega)
  have f3 : fld ω 10 4 = a := fld_eq _ _ _ (by omega)
  have f4 : fld ω 2 6 = s := fld_eq _ _ _ (by omega)
  have f5 : fld ω 0 2 = p := fld_eq _ _ _ (by omega)
  exact of_wPriv rfl ω hω (by omega) (by simp only [bits]; omega) (by rw [wPriv_21 h0]; simp [c0, f0, f1, f2, f3, f4, f5])

theorem vbcast (k : BitVec 4) (y : BitVec 3) (d : BitVec 4) (a : BitVec 4) (p : BitVec 4) : Statement (.vbcast k y d a p) := by
  have hk := k.isLt
  have hy := y.isLt
  have hd := d.isLt
  have ha := a.isLt
  have hp := p.isLt
  obtain ⟨ω, hω⟩ : ∃ ω, pack 0x82C00000 [(k.toNat, 27), (y.toNat, 18), (d.toNat, 14), (a.toNat, 10), (p.toNat, 2)] = ω := ⟨_, rfl⟩
  simp only [pack] at hω
  have h0 : bits ω 21 6 = 22 := by simp only [bits]; omega
  have c0 : bits ω 0 2 = 0 := by simp only [bits]; omega
  have c1 : bits ω 6 4 = 0 := by simp only [bits]; omega
  have f0 : fld ω 27 4 = k := fld_eq _ _ _ (by omega)
  have f1 : fld ω 18 3 = y := fld_eq _ _ _ (by omega)
  have f2 : fld ω 14 4 = d := fld_eq _ _ _ (by omega)
  have f3 : fld ω 10 4 = a := fld_eq _ _ _ (by omega)
  have f4 : fld ω 2 4 = p := fld_eq _ _ _ (by omega)
  exact of_wPriv rfl ω hω (by omega) (by simp only [bits]; omega) (by rw [wPriv_22 h0]; simp [c0, c1, f0, f1, f2, f3, f4])

theorem vbcastVec (k : BitVec 4) (y : BitVec 3) (d : BitVec 4) (a : BitVec 4) (p : BitVec 4) : Statement (.vbcastVec k y d a p) := by
  have hk := k.isLt
  have hy := y.isLt
  have hd := d.isLt
  have ha := a.isLt
  have hp := p.isLt
  obtain ⟨ω, hω⟩ : ∃ ω, pack 0x82C00001 [(k.toNat, 27), (y.toNat, 18), (d.toNat, 14), (a.toNat, 10), (p.toNat, 2)] = ω := ⟨_, rfl⟩
  simp only [pack] at hω
  have h0 : bits ω 21 6 = 22 := by simp only [bits]; omega
  have c0 : bits ω 0 2 = 1 := by simp only [bits]; omega
  have c1 : bits ω 6 4 = 0 := by simp only [bits]; omega
  have f0 : fld ω 27 4 = k := fld_eq _ _ _ (by omega)
  have f1 : fld ω 18 3 = y := fld_eq _ _ _ (by omega)
  have f2 : fld ω 14 4 = d := fld_eq _ _ _ (by omega)
  have f3 : fld ω 10 4 = a := fld_eq _ _ _ (by omega)
  have f4 : fld ω 2 4 = p := fld_eq _ _ _ (by omega)
  exact of_wPriv rfl ω hω (by omega) (by simp only [bits]; omega) (by rw [wPriv_22 h0]; simp [c0, c1, f0, f1, f2, f3, f4])

theorem viota (k : BitVec 4) (y : BitVec 3) (d : BitVec 4) (p : BitVec 4) : Statement (.viota k y d p) := by
  have hk := k.isLt
  have hy := y.isLt
  have hd := d.isLt
  have hp := p.isLt
  obtain ⟨ω, hω⟩ : ∃ ω, pack 0x82E00000 [(k.toNat, 27), (y.toNat, 18), (d.toNat, 14), (p.toNat, 2)] = ω := ⟨_, rfl⟩
  simp only [pack] at hω
  have h0 : bits ω 21 6 = 23 := by simp only [bits]; omega
  have c0 : bits ω 0 2 = 0 := by simp only [bits]; omega
  have c1 : bits ω 6 8 = 0 := by simp only [bits]; omega
  have f0 : fld ω 27 4 = k := fld_eq _ _ _ (by omega)
  have f1 : fld ω 18 3 = y := fld_eq _ _ _ (by omega)
  have f2 : fld ω 14 4 = d := fld_eq _ _ _ (by omega)
  have f3 : fld ω 2 4 = p := fld_eq _ _ _ (by omega)
  exact of_wPriv rfl ω hω (by omega) (by simp only [bits]; omega) (by rw [wPriv_23 h0]; simp [c0, c1, f0, f1, f2, f3])

theorem viotaRank (k : BitVec 4) (y : BitVec 3) (d : BitVec 4) (p : BitVec 4) : Statement (.viotaRank k y d p) := by
  have hk := k.isLt
  have hy := y.isLt
  have hd := d.isLt
  have hp := p.isLt
  obtain ⟨ω, hω⟩ : ∃ ω, pack 0x82E00001 [(k.toNat, 27), (y.toNat, 18), (d.toNat, 14), (p.toNat, 2)] = ω := ⟨_, rfl⟩
  simp only [pack] at hω
  have h0 : bits ω 21 6 = 23 := by simp only [bits]; omega
  have c0 : bits ω 0 2 = 1 := by simp only [bits]; omega
  have c1 : bits ω 6 8 = 0 := by simp only [bits]; omega
  have f0 : fld ω 27 4 = k := fld_eq _ _ _ (by omega)
  have f1 : fld ω 18 3 = y := fld_eq _ _ _ (by omega)
  have f2 : fld ω 14 4 = d := fld_eq _ _ _ (by omega)
  have f3 : fld ω 2 4 = p := fld_eq _ _ _ (by omega)
  exact of_wPriv rfl ω hω (by omega) (by simp only [bits]; omega) (by rw [wPriv_23 h0]; simp [c0, c1, f0, f1, f2, f3])

theorem vfadd (k : BitVec 4) (y : BitVec 3) (d : BitVec 4) (a : BitVec 4) (b : BitVec 4) (p : BitVec 4) (r : BitVec 2) : Statement (.vfadd k y d a b p r) := by
  have hk := k.isLt
  have hy := y.isLt
  have hd := d.isLt
  have ha := a.isLt
  have hb := b.isLt
  have hp := p.isLt
  have hr := r.isLt
  obtain ⟨ω, hω⟩ : ∃ ω, pack 0x83000000 [(k.toNat, 27), (y.toNat, 18), (d.toNat, 14), (a.toNat, 10), (b.toNat, 6), (p.toNat, 2), (r.toNat, 0)] = ω := ⟨_, rfl⟩
  simp only [pack] at hω
  have h0 : bits ω 21 6 = 24 := by simp only [bits]; omega
  have f0 : fld ω 27 4 = k := fld_eq _ _ _ (by omega)
  have f1 : fld ω 18 3 = y := fld_eq _ _ _ (by omega)
  have f2 : fld ω 14 4 = d := fld_eq _ _ _ (by omega)
  have f3 : fld ω 10 4 = a := fld_eq _ _ _ (by omega)
  have f4 : fld ω 6 4 = b := fld_eq _ _ _ (by omega)
  have f5 : fld ω 2 4 = p := fld_eq _ _ _ (by omega)
  have f6 : fld ω 0 2 = r := fld_eq _ _ _ (by omega)
  exact of_wPriv rfl ω hω (by omega) (by simp only [bits]; omega) (by rw [wPriv_24 h0]; simp [f0, f1, f2, f3, f4, f5, f6])

theorem vfsub (k : BitVec 4) (y : BitVec 3) (d : BitVec 4) (a : BitVec 4) (b : BitVec 4) (p : BitVec 4) (r : BitVec 2) : Statement (.vfsub k y d a b p r) := by
  have hk := k.isLt
  have hy := y.isLt
  have hd := d.isLt
  have ha := a.isLt
  have hb := b.isLt
  have hp := p.isLt
  have hr := r.isLt
  obtain ⟨ω, hω⟩ : ∃ ω, pack 0x83200000 [(k.toNat, 27), (y.toNat, 18), (d.toNat, 14), (a.toNat, 10), (b.toNat, 6), (p.toNat, 2), (r.toNat, 0)] = ω := ⟨_, rfl⟩
  simp only [pack] at hω
  have h0 : bits ω 21 6 = 25 := by simp only [bits]; omega
  have f0 : fld ω 27 4 = k := fld_eq _ _ _ (by omega)
  have f1 : fld ω 18 3 = y := fld_eq _ _ _ (by omega)
  have f2 : fld ω 14 4 = d := fld_eq _ _ _ (by omega)
  have f3 : fld ω 10 4 = a := fld_eq _ _ _ (by omega)
  have f4 : fld ω 6 4 = b := fld_eq _ _ _ (by omega)
  have f5 : fld ω 2 4 = p := fld_eq _ _ _ (by omega)
  have f6 : fld ω 0 2 = r := fld_eq _ _ _ (by omega)
  exact of_wPriv rfl ω hω (by omega) (by simp only [bits]; omega) (by rw [wPriv_25 h0]; simp [f0, f1, f2, f3, f4, f5, f6])

theorem vfmul (k : BitVec 4) (y : BitVec 3) (d : BitVec 4) (a : BitVec 4) (b : BitVec 4) (p : BitVec 4) (r : BitVec 2) : Statement (.vfmul k y d a b p r) := by
  have hk := k.isLt
  have hy := y.isLt
  have hd := d.isLt
  have ha := a.isLt
  have hb := b.isLt
  have hp := p.isLt
  have hr := r.isLt
  obtain ⟨ω, hω⟩ : ∃ ω, pack 0x83400000 [(k.toNat, 27), (y.toNat, 18), (d.toNat, 14), (a.toNat, 10), (b.toNat, 6), (p.toNat, 2), (r.toNat, 0)] = ω := ⟨_, rfl⟩
  simp only [pack] at hω
  have h0 : bits ω 21 6 = 26 := by simp only [bits]; omega
  have f0 : fld ω 27 4 = k := fld_eq _ _ _ (by omega)
  have f1 : fld ω 18 3 = y := fld_eq _ _ _ (by omega)
  have f2 : fld ω 14 4 = d := fld_eq _ _ _ (by omega)
  have f3 : fld ω 10 4 = a := fld_eq _ _ _ (by omega)
  have f4 : fld ω 6 4 = b := fld_eq _ _ _ (by omega)
  have f5 : fld ω 2 4 = p := fld_eq _ _ _ (by omega)
  have f6 : fld ω 0 2 = r := fld_eq _ _ _ (by omega)
  exact of_wPriv rfl ω hω (by omega) (by simp only [bits]; omega) (by rw [wPriv_26 h0]; simp [f0, f1, f2, f3, f4, f5, f6])

theorem vfma (k : BitVec 4) (y : BitVec 3) (d : BitVec 4) (a : BitVec 4) (b : BitVec 4) (p : BitVec 4) (r : BitVec 2) : Statement (.vfma k y d a b p r) := by
  have hk := k.isLt
  have hy := y.isLt
  have hd := d.isLt
  have ha := a.isLt
  have hb := b.isLt
  have hp := p.isLt
  have hr := r.isLt
  obtain ⟨ω, hω⟩ : ∃ ω, pack 0x83600000 [(k.toNat, 27), (y.toNat, 18), (d.toNat, 14), (a.toNat, 10), (b.toNat, 6), (p.toNat, 2), (r.toNat, 0)] = ω := ⟨_, rfl⟩
  simp only [pack] at hω
  have h0 : bits ω 21 6 = 27 := by simp only [bits]; omega
  have f0 : fld ω 27 4 = k := fld_eq _ _ _ (by omega)
  have f1 : fld ω 18 3 = y := fld_eq _ _ _ (by omega)
  have f2 : fld ω 14 4 = d := fld_eq _ _ _ (by omega)
  have f3 : fld ω 10 4 = a := fld_eq _ _ _ (by omega)
  have f4 : fld ω 6 4 = b := fld_eq _ _ _ (by omega)
  have f5 : fld ω 2 4 = p := fld_eq _ _ _ (by omega)
  have f6 : fld ω 0 2 = r := fld_eq _ _ _ (by omega)
  exact of_wPriv rfl ω hω (by omega) (by simp only [bits]; omega) (by rw [wPriv_27 h0]; simp [f0, f1, f2, f3, f4, f5, f6])

theorem vfmin (k : BitVec 4) (y : BitVec 3) (d : BitVec 4) (a : BitVec 4) (b : BitVec 4) (p : BitVec 4) (n : BitVec 1) : Statement (.vfmin k y d a b p n) := by
  have hk := k.isLt
  have hy := y.isLt
  have hd := d.isLt
  have ha := a.isLt
  have hb := b.isLt
  have hp := p.isLt
  have hn := n.isLt
  obtain ⟨ω, hω⟩ : ∃ ω, pack 0x83800000 [(k.toNat, 27), (y.toNat, 18), (d.toNat, 14), (a.toNat, 10), (b.toNat, 6), (p.toNat, 2), (n.toNat, 0)] = ω := ⟨_, rfl⟩
  simp only [pack] at hω
  have h0 : bits ω 21 6 = 28 := by simp only [bits]; omega
  have c0 : bits ω 1 1 = 0 := by simp only [bits]; omega
  have f0 : fld ω 27 4 = k := fld_eq _ _ _ (by omega)
  have f1 : fld ω 18 3 = y := fld_eq _ _ _ (by omega)
  have f2 : fld ω 14 4 = d := fld_eq _ _ _ (by omega)
  have f3 : fld ω 10 4 = a := fld_eq _ _ _ (by omega)
  have f4 : fld ω 6 4 = b := fld_eq _ _ _ (by omega)
  have f5 : fld ω 2 4 = p := fld_eq _ _ _ (by omega)
  have f6 : fld ω 0 1 = n := fld_eq _ _ _ (by omega)
  exact of_wPriv rfl ω hω (by omega) (by simp only [bits]; omega) (by rw [wPriv_28 h0]; simp [c0, f0, f1, f2, f3, f4, f5, f6])

theorem vfmax (k : BitVec 4) (y : BitVec 3) (d : BitVec 4) (a : BitVec 4) (b : BitVec 4) (p : BitVec 4) (n : BitVec 1) : Statement (.vfmax k y d a b p n) := by
  have hk := k.isLt
  have hy := y.isLt
  have hd := d.isLt
  have ha := a.isLt
  have hb := b.isLt
  have hp := p.isLt
  have hn := n.isLt
  obtain ⟨ω, hω⟩ : ∃ ω, pack 0x83A00000 [(k.toNat, 27), (y.toNat, 18), (d.toNat, 14), (a.toNat, 10), (b.toNat, 6), (p.toNat, 2), (n.toNat, 0)] = ω := ⟨_, rfl⟩
  simp only [pack] at hω
  have h0 : bits ω 21 6 = 29 := by simp only [bits]; omega
  have c0 : bits ω 1 1 = 0 := by simp only [bits]; omega
  have f0 : fld ω 27 4 = k := fld_eq _ _ _ (by omega)
  have f1 : fld ω 18 3 = y := fld_eq _ _ _ (by omega)
  have f2 : fld ω 14 4 = d := fld_eq _ _ _ (by omega)
  have f3 : fld ω 10 4 = a := fld_eq _ _ _ (by omega)
  have f4 : fld ω 6 4 = b := fld_eq _ _ _ (by omega)
  have f5 : fld ω 2 4 = p := fld_eq _ _ _ (by omega)
  have f6 : fld ω 0 1 = n := fld_eq _ _ _ (by omega)
  exact of_wPriv rfl ω hω (by omega) (by simp only [bits]; omega) (by rw [wPriv_29 h0]; simp [c0, f0, f1, f2, f3, f4, f5, f6])

theorem vfdiv (k : BitVec 4) (y : BitVec 3) (d : BitVec 4) (a : BitVec 4) (b : BitVec 4) (p : BitVec 4) (r : BitVec 2) : Statement (.vfdiv k y d a b p r) := by
  have hk := k.isLt
  have hy := y.isLt
  have hd := d.isLt
  have ha := a.isLt
  have hb := b.isLt
  have hp := p.isLt
  have hr := r.isLt
  obtain ⟨ω, hω⟩ : ∃ ω, pack 0x83C00000 [(k.toNat, 27), (y.toNat, 18), (d.toNat, 14), (a.toNat, 10), (b.toNat, 6), (p.toNat, 2), (r.toNat, 0)] = ω := ⟨_, rfl⟩
  simp only [pack] at hω
  have h0 : bits ω 21 6 = 30 := by simp only [bits]; omega
  have f0 : fld ω 27 4 = k := fld_eq _ _ _ (by omega)
  have f1 : fld ω 18 3 = y := fld_eq _ _ _ (by omega)
  have f2 : fld ω 14 4 = d := fld_eq _ _ _ (by omega)
  have f3 : fld ω 10 4 = a := fld_eq _ _ _ (by omega)
  have f4 : fld ω 6 4 = b := fld_eq _ _ _ (by omega)
  have f5 : fld ω 2 4 = p := fld_eq _ _ _ (by omega)
  have f6 : fld ω 0 2 = r := fld_eq _ _ _ (by omega)
  exact of_wPriv rfl ω hω (by omega) (by simp only [bits]; omega) (by rw [wPriv_30 h0]; simp [f0, f1, f2, f3, f4, f5, f6])

theorem vfsqrt (k : BitVec 4) (y : BitVec 3) (d : BitVec 4) (a : BitVec 4) (p : BitVec 4) (r : BitVec 2) : Statement (.vfsqrt k y d a p r) := by
  have hk := k.isLt
  have hy := y.isLt
  have hd := d.isLt
  have ha := a.isLt
  have hp := p.isLt
  have hr := r.isLt
  obtain ⟨ω, hω⟩ : ∃ ω, pack 0x83E00000 [(k.toNat, 27), (y.toNat, 18), (d.toNat, 14), (a.toNat, 10), (p.toNat, 2), (r.toNat, 0)] = ω := ⟨_, rfl⟩
  simp only [pack] at hω
  have h0 : bits ω 21 6 = 31 := by simp only [bits]; omega
  have c0 : bits ω 6 4 = 0 := by simp only [bits]; omega
  have f0 : fld ω 27 4 = k := fld_eq _ _ _ (by omega)
  have f1 : fld ω 18 3 = y := fld_eq _ _ _ (by omega)
  have f2 : fld ω 14 4 = d := fld_eq _ _ _ (by omega)
  have f3 : fld ω 10 4 = a := fld_eq _ _ _ (by omega)
  have f4 : fld ω 2 4 = p := fld_eq _ _ _ (by omega)
  have f5 : fld ω 0 2 = r := fld_eq _ _ _ (by omega)
  exact of_wPriv rfl ω hω (by omega) (by simp only [bits]; omega) (by rw [wPriv_31 h0]; simp [c0, f0, f1, f2, f3, f4, f5])

theorem vfrsqrt (k : BitVec 4) (y : BitVec 3) (d : BitVec 4) (a : BitVec 4) (p : BitVec 4) (r : BitVec 2) : Statement (.vfrsqrt k y d a p r) := by
  have hk := k.isLt
  have hy := y.isLt
  have hd := d.isLt
  have ha := a.isLt
  have hp := p.isLt
  have hr := r.isLt
  obtain ⟨ω, hω⟩ : ∃ ω, pack 0x84000000 [(k.toNat, 27), (y.toNat, 18), (d.toNat, 14), (a.toNat, 10), (p.toNat, 2), (r.toNat, 0)] = ω := ⟨_, rfl⟩
  simp only [pack] at hω
  have h0 : bits ω 21 6 = 32 := by simp only [bits]; omega
  have c0 : bits ω 6 4 = 0 := by simp only [bits]; omega
  have f0 : fld ω 27 4 = k := fld_eq _ _ _ (by omega)
  have f1 : fld ω 18 3 = y := fld_eq _ _ _ (by omega)
  have f2 : fld ω 14 4 = d := fld_eq _ _ _ (by omega)
  have f3 : fld ω 10 4 = a := fld_eq _ _ _ (by omega)
  have f4 : fld ω 2 4 = p := fld_eq _ _ _ (by omega)
  have f5 : fld ω 0 2 = r := fld_eq _ _ _ (by omega)
  exact of_wPriv rfl ω hω (by omega) (by simp only [bits]; omega) (by rw [wPriv_32 h0]; simp [c0, f0, f1, f2, f3, f4, f5])

theorem vfexp2 (k : BitVec 4) (y : BitVec 3) (d : BitVec 4) (a : BitVec 4) (p : BitVec 4) (r : BitVec 2) : Statement (.vfexp2 k y d a p r) := by
  have hk := k.isLt
  have hy := y.isLt
  have hd := d.isLt
  have ha := a.isLt
  have hp := p.isLt
  have hr := r.isLt
  obtain ⟨ω, hω⟩ : ∃ ω, pack 0x84200000 [(k.toNat, 27), (y.toNat, 18), (d.toNat, 14), (a.toNat, 10), (p.toNat, 2), (r.toNat, 0)] = ω := ⟨_, rfl⟩
  simp only [pack] at hω
  have h0 : bits ω 21 6 = 33 := by simp only [bits]; omega
  have c0 : bits ω 6 4 = 0 := by simp only [bits]; omega
  have f0 : fld ω 27 4 = k := fld_eq _ _ _ (by omega)
  have f1 : fld ω 18 3 = y := fld_eq _ _ _ (by omega)
  have f2 : fld ω 14 4 = d := fld_eq _ _ _ (by omega)
  have f3 : fld ω 10 4 = a := fld_eq _ _ _ (by omega)
  have f4 : fld ω 2 4 = p := fld_eq _ _ _ (by omega)
  have f5 : fld ω 0 2 = r := fld_eq _ _ _ (by omega)
  exact of_wPriv rfl ω hω (by omega) (by simp only [bits]; omega) (by rw [wPriv_33 h0]; simp [c0, f0, f1, f2, f3, f4, f5])

theorem vflog2 (k : BitVec 4) (y : BitVec 3) (d : BitVec 4) (a : BitVec 4) (p : BitVec 4) (r : BitVec 2) : Statement (.vflog2 k y d a p r) := by
  have hk := k.isLt
  have hy := y.isLt
  have hd := d.isLt
  have ha := a.isLt
  have hp := p.isLt
  have hr := r.isLt
  obtain ⟨ω, hω⟩ : ∃ ω, pack 0x84400000 [(k.toNat, 27), (y.toNat, 18), (d.toNat, 14), (a.toNat, 10), (p.toNat, 2), (r.toNat, 0)] = ω := ⟨_, rfl⟩
  simp only [pack] at hω
  have h0 : bits ω 21 6 = 34 := by simp only [bits]; omega
  have c0 : bits ω 6 4 = 0 := by simp only [bits]; omega
  have f0 : fld ω 27 4 = k := fld_eq _ _ _ (by omega)
  have f1 : fld ω 18 3 = y := fld_eq _ _ _ (by omega)
  have f2 : fld ω 14 4 = d := fld_eq _ _ _ (by omega)
  have f3 : fld ω 10 4 = a := fld_eq _ _ _ (by omega)
  have f4 : fld ω 2 4 = p := fld_eq _ _ _ (by omega)
  have f5 : fld ω 0 2 = r := fld_eq _ _ _ (by omega)
  exact of_wPriv rfl ω hω (by omega) (by simp only [bits]; omega) (by rw [wPriv_34 h0]; simp [c0, f0, f1, f2, f3, f4, f5])

theorem vfcmp (k : BitVec 4) (y : BitVec 3) (d : BitVec 4) (a : BitVec 4) (b : BitVec 4) (p : BitVec 4) (c : BitVec 2) : Statement (.vfcmp k y d a b p c) := by
  have hk := k.isLt
  have hy := y.isLt
  have hd := d.isLt
  have ha := a.isLt
  have hb := b.isLt
  have hp := p.isLt
  have hc := c.isLt
  obtain ⟨ω, hω⟩ : ∃ ω, pack 0x84600000 [(k.toNat, 27), (y.toNat, 18), (d.toNat, 14), (a.toNat, 10), (b.toNat, 6), (p.toNat, 2), (c.toNat, 0)] = ω := ⟨_, rfl⟩
  simp only [pack] at hω
  have h0 : bits ω 21 6 = 35 := by simp only [bits]; omega
  have f0 : fld ω 27 4 = k := fld_eq _ _ _ (by omega)
  have f1 : fld ω 18 3 = y := fld_eq _ _ _ (by omega)
  have f2 : fld ω 14 4 = d := fld_eq _ _ _ (by omega)
  have f3 : fld ω 10 4 = a := fld_eq _ _ _ (by omega)
  have f4 : fld ω 6 4 = b := fld_eq _ _ _ (by omega)
  have f5 : fld ω 2 4 = p := fld_eq _ _ _ (by omega)
  have f6 : fld ω 0 2 = c := fld_eq _ _ _ (by omega)
  exact of_wPriv rfl ω hω (by omega) (by simp only [bits]; omega) (by rw [wPriv_35 h0]; simp [f0, f1, f2, f3, f4, f5, f6])

theorem vfabs (k : BitVec 4) (y : BitVec 3) (d : BitVec 4) (a : BitVec 4) (p : BitVec 4) : Statement (.vfabs k y d a p) := by
  have hk := k.isLt
  have hy := y.isLt
  have hd := d.isLt
  have ha := a.isLt
  have hp := p.isLt
  obtain ⟨ω, hω⟩ : ∃ ω, pack 0x84800000 [(k.toNat, 27), (y.toNat, 18), (d.toNat, 14), (a.toNat, 10), (p.toNat, 2)] = ω := ⟨_, rfl⟩
  simp only [pack] at hω
  have h0 : bits ω 21 6 = 36 := by simp only [bits]; omega
  have c0 : bits ω 0 2 = 0 := by simp only [bits]; omega
  have c1 : bits ω 6 4 = 0 := by simp only [bits]; omega
  have f0 : fld ω 27 4 = k := fld_eq _ _ _ (by omega)
  have f1 : fld ω 18 3 = y := fld_eq _ _ _ (by omega)
  have f2 : fld ω 14 4 = d := fld_eq _ _ _ (by omega)
  have f3 : fld ω 10 4 = a := fld_eq _ _ _ (by omega)
  have f4 : fld ω 2 4 = p := fld_eq _ _ _ (by omega)
  exact of_wPriv rfl ω hω (by omega) (by simp only [bits]; omega) (by rw [wPriv_36 h0]; simp [c0, c1, f0, f1, f2, f3, f4])

theorem vfneg (k : BitVec 4) (y : BitVec 3) (d : BitVec 4) (a : BitVec 4) (p : BitVec 4) : Statement (.vfneg k y d a p) := by
  have hk := k.isLt
  have hy := y.isLt
  have hd := d.isLt
  have ha := a.isLt
  have hp := p.isLt
  obtain ⟨ω, hω⟩ : ∃ ω, pack 0x84800001 [(k.toNat, 27), (y.toNat, 18), (d.toNat, 14), (a.toNat, 10), (p.toNat, 2)] = ω := ⟨_, rfl⟩
  simp only [pack] at hω
  have h0 : bits ω 21 6 = 36 := by simp only [bits]; omega
  have c0 : bits ω 0 2 = 1 := by simp only [bits]; omega
  have c1 : bits ω 6 4 = 0 := by simp only [bits]; omega
  have f0 : fld ω 27 4 = k := fld_eq _ _ _ (by omega)
  have f1 : fld ω 18 3 = y := fld_eq _ _ _ (by omega)
  have f2 : fld ω 14 4 = d := fld_eq _ _ _ (by omega)
  have f3 : fld ω 10 4 = a := fld_eq _ _ _ (by omega)
  have f4 : fld ω 2 4 = p := fld_eq _ _ _ (by omega)
  exact of_wPriv rfl ω hω (by omega) (by simp only [bits]; omega) (by rw [wPriv_36 h0]; simp [c0, c1, f0, f1, f2, f3, f4])

theorem vfclass (k : BitVec 4) (y : BitVec 3) (d : BitVec 4) (a : BitVec 4) (p : BitVec 4) : Statement (.vfclass k y d a p) := by
  have hk := k.isLt
  have hy := y.isLt
  have hd := d.isLt
  have ha := a.isLt
  have hp := p.isLt
  obtain ⟨ω, hω⟩ : ∃ ω, pack 0x84A00000 [(k.toNat, 27), (y.toNat, 18), (d.toNat, 14), (a.toNat, 10), (p.toNat, 2)] = ω := ⟨_, rfl⟩
  simp only [pack] at hω
  have h0 : bits ω 21 6 = 37 := by simp only [bits]; omega
  have c0 : bits ω 0 2 = 0 := by simp only [bits]; omega
  have c1 : bits ω 6 4 = 0 := by simp only [bits]; omega
  have f0 : fld ω 27 4 = k := fld_eq _ _ _ (by omega)
  have f1 : fld ω 18 3 = y := fld_eq _ _ _ (by omega)
  have f2 : fld ω 14 4 = d := fld_eq _ _ _ (by omega)
  have f3 : fld ω 10 4 = a := fld_eq _ _ _ (by omega)
  have f4 : fld ω 2 4 = p := fld_eq _ _ _ (by omega)
  exact of_wPriv rfl ω hω (by omega) (by simp only [bits]; omega) (by rw [wPriv_37 h0]; simp [c0, c1, f0, f1, f2, f3, f4])

theorem vcvt (k : BitVec 4) (f : BitVec 4) (s : BitVec 4) (d : BitVec 4) (a : BitVec 4) (p : BitVec 4) (m : BitVec 1) : Statement (.vcvt k f s d a p m) := by
  have hk := k.isLt
  have hf := f.isLt
  have hs := s.isLt
  have hd := d.isLt
  have ha := a.isLt
  have hp := p.isLt
  have hm := m.isLt
  obtain ⟨ω, hω⟩ : ∃ ω, pack 0x84C00000 [(k.toNat, 27), (f.toNat, 17), (s.toNat, 13), (d.toNat, 9), (a.toNat, 5), (p.toNat, 1), (m.toNat, 0)] = ω := ⟨_, rfl⟩
  simp only [pack] at hω
  have h0 : bits ω 21 6 = 38 := by simp only [bits]; omega
  have f0 : fld ω 27 4 = k := fld_eq _ _ _ (by omega)
  have f1 : fld ω 17 4 = f := fld_eq _ _ _ (by omega)
  have f2 : fld ω 13 4 = s := fld_eq _ _ _ (by omega)
  have f3 : fld ω 9 4 = d := fld_eq _ _ _ (by omega)
  have f4 : fld ω 5 4 = a := fld_eq _ _ _ (by omega)
  have f5 : fld ω 1 4 = p := fld_eq _ _ _ (by omega)
  have f6 : fld ω 0 1 = m := fld_eq _ _ _ (by omega)
  exact of_wPriv rfl ω hω (by omega) (by simp only [bits]; omega) (by rw [wPriv_38 h0]; simp [f0, f1, f2, f3, f4, f5, f6])

theorem vquant (k : BitVec 4) (y : BitVec 3) (d : BitVec 4) (a : BitVec 4) (q : BitVec 1) : Statement (.vquant k y d a q) := by
  have hk := k.isLt
  have hy := y.isLt
  have hd := d.isLt
  have ha := a.isLt
  have hq := q.isLt
  obtain ⟨ω, hω⟩ : ∃ ω, pack 0x84E00000 [(k.toNat, 27), (y.toNat, 18), (d.toNat, 14), (a.toNat, 10), (q.toNat, 0)] = ω := ⟨_, rfl⟩
  simp only [pack] at hω
  have h0 : bits ω 21 6 = 39 := by simp only [bits]; omega
  have c0 : bits ω 1 9 = 0 := by simp only [bits]; omega
  have f0 : fld ω 27 4 = k := fld_eq _ _ _ (by omega)
  have f1 : fld ω 18 3 = y := fld_eq _ _ _ (by omega)
  have f2 : fld ω 14 4 = d := fld_eq _ _ _ (by omega)
  have f3 : fld ω 10 4 = a := fld_eq _ _ _ (by omega)
  have f4 : fld ω 0 1 = q := fld_eq _ _ _ (by omega)
  exact of_wPriv rfl ω hω (by omega) (by simp only [bits]; omega) (by rw [wPriv_39 h0]; simp [c0, f0, f1, f2, f3, f4])

theorem vdequant (k : BitVec 4) (y : BitVec 3) (d : BitVec 4) (a : BitVec 4) (q : BitVec 1) : Statement (.vdequant k y d a q) := by
  have hk := k.isLt
  have hy := y.isLt
  have hd := d.isLt
  have ha := a.isLt
  have hq := q.isLt
  obtain ⟨ω, hω⟩ : ∃ ω, pack 0x85000000 [(k.toNat, 27), (y.toNat, 18), (d.toNat, 14), (a.toNat, 10), (q.toNat, 0)] = ω := ⟨_, rfl⟩
  simp only [pack] at hω
  have h0 : bits ω 21 6 = 40 := by simp only [bits]; omega
  have c0 : bits ω 1 9 = 0 := by simp only [bits]; omega
  have f0 : fld ω 27 4 = k := fld_eq _ _ _ (by omega)
  have f1 : fld ω 18 3 = y := fld_eq _ _ _ (by omega)
  have f2 : fld ω 14 4 = d := fld_eq _ _ _ (by omega)
  have f3 : fld ω 10 4 = a := fld_eq _ _ _ (by omega)
  have f4 : fld ω 0 1 = q := fld_eq _ _ _ (by omega)
  exact of_wPriv rfl ω hω (by omega) (by simp only [bits]; omega) (by rw [wPriv_40 h0]; simp [c0, f0, f1, f2, f3, f4])

theorem vred (k : BitVec 4) (y : BitVec 3) (d : BitVec 4) (a : BitVec 4) (o : BitVec 4) (p : BitVec 4) (n : BitVec 1) : Statement (.vred k y d a o p n) := by
  have hk := k.isLt
  have hy := y.isLt
  have hd := d.isLt
  have ha := a.isLt
  have ho := o.isLt
  have hp := p.isLt
  have hn := n.isLt
  obtain ⟨ω, hω⟩ : ∃ ω, pack 0x85400000 [(k.toNat, 27), (y.toNat, 18), (d.toNat, 14), (a.toNat, 10), (o.toNat, 6), (p.toNat, 2), (n.toNat, 0)] = ω := ⟨_, rfl⟩
  simp only [pack] at hω
  have h0 : bits ω 21 6 = 42 := by simp only [bits]; omega
  have c0 : bits ω 1 1 = 0 := by simp only [bits]; omega
  have f0 : fld ω 27 4 = k := fld_eq _ _ _ (by omega)
  have f1 : fld ω 18 3 = y := fld_eq _ _ _ (by omega)
  have f2 : fld ω 14 4 = d := fld_eq _ _ _ (by omega)
  have f3 : fld ω 10 4 = a := fld_eq _ _ _ (by omega)
  have f4 : fld ω 6 4 = o := fld_eq _ _ _ (by omega)
  have f5 : fld ω 2 4 = p := fld_eq _ _ _ (by omega)
  have f6 : fld ω 0 1 = n := fld_eq _ _ _ (by omega)
  exact of_wPriv rfl ω hω (by omega) (by simp only [bits]; omega) (by rw [wPriv_42 h0]; simp [c0, f0, f1, f2, f3, f4, f5, f6])

theorem vgred (k : BitVec 4) (y : BitVec 3) (d : BitVec 4) (a : BitVec 4) (o : BitVec 4) (g : BitVec 4) (c : BitVec 1) (n : BitVec 1) : Statement (.vgred k y d a o g c n) := by
  have hk := k.isLt
  have hy := y.isLt
  have hd := d.isLt
  have ha := a.isLt
  have ho := o.isLt
  have hg := g.isLt
  have hc := c.isLt
  have hn := n.isLt
  obtain ⟨ω, hω⟩ : ∃ ω, pack 0x85600000 [(k.toNat, 27), (y.toNat, 18), (d.toNat, 14), (a.toNat, 10), (o.toNat, 6), (g.toNat, 2), (c.toNat, 1), (n.toNat, 0)] = ω := ⟨_, rfl⟩
  simp only [pack] at hω
  have h0 : bits ω 21 6 = 43 := by simp only [bits]; omega
  have f0 : fld ω 27 4 = k := fld_eq _ _ _ (by omega)
  have f1 : fld ω 18 3 = y := fld_eq _ _ _ (by omega)
  have f2 : fld ω 14 4 = d := fld_eq _ _ _ (by omega)
  have f3 : fld ω 10 4 = a := fld_eq _ _ _ (by omega)
  have f4 : fld ω 6 4 = o := fld_eq _ _ _ (by omega)
  have f5 : fld ω 2 4 = g := fld_eq _ _ _ (by omega)
  have f6 : fld ω 1 1 = c := fld_eq _ _ _ (by omega)
  have f7 : fld ω 0 1 = n := fld_eq _ _ _ (by omega)
  exact of_wPriv rfl ω hω (by omega) (by simp only [bits]; omega) (by rw [wPriv_43 h0]; simp [f0, f1, f2, f3, f4, f5, f6, f7])

theorem vscan (k : BitVec 4) (y : BitVec 3) (d : BitVec 4) (a : BitVec 4) (o : BitVec 4) (p : BitVec 4) (e : BitVec 1) (n : BitVec 1) : Statement (.vscan k y d a o p e n) := by
  have hk := k.isLt
  have hy := y.isLt
  have hd := d.isLt
  have ha := a.isLt
  have ho := o.isLt
  have hp := p.isLt
  have he := e.isLt
  have hn := n.isLt
  obtain ⟨ω, hω⟩ : ∃ ω, pack 0x85800000 [(k.toNat, 27), (y.toNat, 18), (d.toNat, 14), (a.toNat, 10), (o.toNat, 6), (p.toNat, 2), (e.toNat, 1), (n.toNat, 0)] = ω := ⟨_, rfl⟩
  simp only [pack] at hω
  have h0 : bits ω 21 6 = 44 := by simp only [bits]; omega
  have f0 : fld ω 27 4 = k := fld_eq _ _ _ (by omega)
  have f1 : fld ω 18 3 = y := fld_eq _ _ _ (by omega)
  have f2 : fld ω 14 4 = d := fld_eq _ _ _ (by omega)
  have f3 : fld ω 10 4 = a := fld_eq _ _ _ (by omega)
  have f4 : fld ω 6 4 = o := fld_eq _ _ _ (by omega)
  have f5 : fld ω 2 4 = p := fld_eq _ _ _ (by omega)
  have f6 : fld ω 1 1 = e := fld_eq _ _ _ (by omega)
  have f7 : fld ω 0 1 = n := fld_eq _ _ _ (by omega)
  exact of_wPriv rfl ω hω (by omega) (by simp only [bits]; omega) (by rw [wPriv_44 h0]; simp [f0, f1, f2, f3, f4, f5, f6, f7])

theorem vslideup (k : BitVec 4) (y : BitVec 3) (d : BitVec 4) (a : BitVec 4) (b : BitVec 4) (s : BitVec 4) (c : BitVec 1) : Statement (.vslideup k y d a b s c) := by
  have hk := k.isLt
  have hy := y.isLt
  have hd := d.isLt
  have ha := a.isLt
  have hb := b.isLt
  have hs := s.isLt
  have hc := c.isLt
  obtain ⟨ω, hω⟩ : ∃ ω, pack 0x85A00000 [(k.toNat, 27), (y.toNat, 18), (d.toNat, 14), (a.toNat, 10), (b.toNat, 6), (s.toNat, 2), (c.toNat, 1)] = ω := ⟨_, rfl⟩
  simp only [pack] at hω
  have h0 : bits ω 21 6 = 45 := by simp only [bits]; omega
  have c0 : bits ω 0 1 = 0 := by simp only [bits]; omega
  have f0 : fld ω 27 4 = k := fld_eq _ _ _ (by omega)
  have f1 : fld ω 18 3 = y := fld_eq _ _ _ (by omega)
  have f2 : fld ω 14 4 = d := fld_eq _ _ _ (by omega)
  have f3 : fld ω 10 4 = a := fld_eq _ _ _ (by omega)
  have f4 : fld ω 6 4 = b := fld_eq _ _ _ (by omega)
  have f5 : fld ω 2 4 = s := fld_eq _ _ _ (by omega)
  have f6 : fld ω 1 1 = c := fld_eq _ _ _ (by omega)
  exact of_wPriv rfl ω hω (by omega) (by simp only [bits]; omega) (by rw [wPriv_45 h0]; simp [c0, f0, f1, f2, f3, f4, f5, f6])

theorem vslidedn (k : BitVec 4) (y : BitVec 3) (d : BitVec 4) (a : BitVec 4) (b : BitVec 4) (s : BitVec 4) (c : BitVec 1) : Statement (.vslidedn k y d a b s c) := by
  have hk := k.isLt
  have hy := y.isLt
  have hd := d.isLt
  have ha := a.isLt
  have hb := b.isLt
  have hs := s.isLt
  have hc := c.isLt
  obtain ⟨ω, hω⟩ : ∃ ω, pack 0x85A00001 [(k.toNat, 27), (y.toNat, 18), (d.toNat, 14), (a.toNat, 10), (b.toNat, 6), (s.toNat, 2), (c.toNat, 1)] = ω := ⟨_, rfl⟩
  simp only [pack] at hω
  have h0 : bits ω 21 6 = 45 := by simp only [bits]; omega
  have c0 : bits ω 0 1 = 1 := by simp only [bits]; omega
  have f0 : fld ω 27 4 = k := fld_eq _ _ _ (by omega)
  have f1 : fld ω 18 3 = y := fld_eq _ _ _ (by omega)
  have f2 : fld ω 14 4 = d := fld_eq _ _ _ (by omega)
  have f3 : fld ω 10 4 = a := fld_eq _ _ _ (by omega)
  have f4 : fld ω 6 4 = b := fld_eq _ _ _ (by omega)
  have f5 : fld ω 2 4 = s := fld_eq _ _ _ (by omega)
  have f6 : fld ω 1 1 = c := fld_eq _ _ _ (by omega)
  exact of_wPriv rfl ω hω (by omega) (by simp only [bits]; omega) (by rw [wPriv_45 h0]; simp [c0, f0, f1, f2, f3, f4, f5, f6])

theorem vperm (k : BitVec 4) (y : BitVec 3) (d : BitVec 4) (a : BitVec 4) (b : BitVec 4) (p : BitVec 4) (z : BitVec 1) : Statement (.vperm k y d a b p z) := by
  have hk := k.isLt
  have hy := y.isLt
  have hd := d.isLt
  have ha := a.isLt
  have hb := b.isLt
  have hp := p.isLt
  have hz := z.isLt
  obtain ⟨ω, hω⟩ : ∃ ω, pack 0x85C00000 [(k.toNat, 27), (y.toNat, 18), (d.toNat, 14), (a.toNat, 10), (b.toNat, 6), (p.toNat, 2), (z.toNat, 0)] = ω := ⟨_, rfl⟩
  simp only [pack] at hω
  have h0 : bits ω 21 6 = 46 := by simp only [bits]; omega
  have c0 : bits ω 1 1 = 0 := by simp only [bits]; omega
  have f0 : fld ω 27 4 = k := fld_eq _ _ _ (by omega)
  have f1 : fld ω 18 3 = y := fld_eq _ _ _ (by omega)
  have f2 : fld ω 14 4 = d := fld_eq _ _ _ (by omega)
  have f3 : fld ω 10 4 = a := fld_eq _ _ _ (by omega)
  have f4 : fld ω 6 4 = b := fld_eq _ _ _ (by omega)
  have f5 : fld ω 2 4 = p := fld_eq _ _ _ (by omega)
  have f6 : fld ω 0 1 = z := fld_eq _ _ _ (by omega)
  exact of_wPriv rfl ω hω (by omega) (by simp only [bits]; omega) (by rw [wPriv_46 h0]; simp [c0, f0, f1, f2, f3, f4, f5, f6])

theorem vziplo (k : BitVec 4) (y : BitVec 3) (d : BitVec 4) (a : BitVec 4) (b : BitVec 4) (p : BitVec 4) : Statement (.vziplo k y d a b p) := by
  have hk := k.isLt
  have hy := y.isLt
  have hd := d.isLt
  have ha := a.isLt
  have hb := b.isLt
  have hp := p.isLt
  obtain ⟨ω, hω⟩ : ∃ ω, pack 0x85E00000 [(k.toNat, 27), (y.toNat, 18), (d.toNat, 14), (a.toNat, 10), (b.toNat, 6), (p.toNat, 2)] = ω := ⟨_, rfl⟩
  simp only [pack] at hω
  have h0 : bits ω 21 6 = 47 := by simp only [bits]; omega
  have c0 : bits ω 0 2 = 0 := by simp only [bits]; omega
  have f0 : fld ω 27 4 = k := fld_eq _ _ _ (by omega)
  have f1 : fld ω 18 3 = y := fld_eq _ _ _ (by omega)
  have f2 : fld ω 14 4 = d := fld_eq _ _ _ (by omega)
  have f3 : fld ω 10 4 = a := fld_eq _ _ _ (by omega)
  have f4 : fld ω 6 4 = b := fld_eq _ _ _ (by omega)
  have f5 : fld ω 2 4 = p := fld_eq _ _ _ (by omega)
  exact of_wPriv rfl ω hω (by omega) (by simp only [bits]; omega) (by rw [wPriv_47 h0]; simp [c0, f0, f1, f2, f3, f4, f5])

theorem vziphi (k : BitVec 4) (y : BitVec 3) (d : BitVec 4) (a : BitVec 4) (b : BitVec 4) (p : BitVec 4) : Statement (.vziphi k y d a b p) := by
  have hk := k.isLt
  have hy := y.isLt
  have hd := d.isLt
  have ha := a.isLt
  have hb := b.isLt
  have hp := p.isLt
  obtain ⟨ω, hω⟩ : ∃ ω, pack 0x85E00001 [(k.toNat, 27), (y.toNat, 18), (d.toNat, 14), (a.toNat, 10), (b.toNat, 6), (p.toNat, 2)] = ω := ⟨_, rfl⟩
  simp only [pack] at hω
  have h0 : bits ω 21 6 = 47 := by simp only [bits]; omega
  have c0 : bits ω 0 2 = 1 := by simp only [bits]; omega
  have f0 : fld ω 27 4 = k := fld_eq _ _ _ (by omega)
  have f1 : fld ω 18 3 = y := fld_eq _ _ _ (by omega)
  have f2 : fld ω 14 4 = d := fld_eq _ _ _ (by omega)
  have f3 : fld ω 10 4 = a := fld_eq _ _ _ (by omega)
  have f4 : fld ω 6 4 = b := fld_eq _ _ _ (by omega)
  have f5 : fld ω 2 4 = p := fld_eq _ _ _ (by omega)
  exact of_wPriv rfl ω hω (by omega) (by simp only [bits]; omega) (by rw [wPriv_47 h0]; simp [c0, f0, f1, f2, f3, f4, f5])

theorem vunzipe (k : BitVec 4) (y : BitVec 3) (d : BitVec 4) (a : BitVec 4) (b : BitVec 4) (p : BitVec 4) : Statement (.vunzipe k y d a b p) := by
  have hk := k.isLt
  have hy := y.isLt
  have hd := d.isLt
  have ha := a.isLt
  have hb := b.isLt
  have hp := p.isLt
  obtain ⟨ω, hω⟩ : ∃ ω, pack 0x85E00002 [(k.toNat, 27), (y.toNat, 18), (d.toNat, 14), (a.toNat, 10), (b.toNat, 6), (p.toNat, 2)] = ω := ⟨_, rfl⟩
  simp only [pack] at hω
  have h0 : bits ω 21 6 = 47 := by simp only [bits]; omega
  have c0 : bits ω 0 2 = 2 := by simp only [bits]; omega
  have f0 : fld ω 27 4 = k := fld_eq _ _ _ (by omega)
  have f1 : fld ω 18 3 = y := fld_eq _ _ _ (by omega)
  have f2 : fld ω 14 4 = d := fld_eq _ _ _ (by omega)
  have f3 : fld ω 10 4 = a := fld_eq _ _ _ (by omega)
  have f4 : fld ω 6 4 = b := fld_eq _ _ _ (by omega)
  have f5 : fld ω 2 4 = p := fld_eq _ _ _ (by omega)
  exact of_wPriv rfl ω hω (by omega) (by simp only [bits]; omega) (by rw [wPriv_47 h0]; simp [c0, f0, f1, f2, f3, f4, f5])

theorem vunzipo (k : BitVec 4) (y : BitVec 3) (d : BitVec 4) (a : BitVec 4) (b : BitVec 4) (p : BitVec 4) : Statement (.vunzipo k y d a b p) := by
  have hk := k.isLt
  have hy := y.isLt
  have hd := d.isLt
  have ha := a.isLt
  have hb := b.isLt
  have hp := p.isLt
  obtain ⟨ω, hω⟩ : ∃ ω, pack 0x85E00003 [(k.toNat, 27), (y.toNat, 18), (d.toNat, 14), (a.toNat, 10), (b.toNat, 6), (p.toNat, 2)] = ω := ⟨_, rfl⟩
  simp only [pack] at hω
  have h0 : bits ω 21 6 = 47 := by simp only [bits]; omega
  have c0 : bits ω 0 2 = 3 := by simp only [bits]; omega
  have f0 : fld ω 27 4 = k := fld_eq _ _ _ (by omega)
  have f1 : fld ω 18 3 = y := fld_eq _ _ _ (by omega)
  have f2 : fld ω 14 4 = d := fld_eq _ _ _ (by omega)
  have f3 : fld ω 10 4 = a := fld_eq _ _ _ (by omega)
  have f4 : fld ω 6 4 = b := fld_eq _ _ _ (by omega)
  have f5 : fld ω 2 4 = p := fld_eq _ _ _ (by omega)
  exact of_wPriv rfl ω hω (by omega) (by simp only [bits]; omega) (by rw [wPriv_47 h0]; simp [c0, f0, f1, f2, f3, f4, f5])

theorem vcompress (k : BitVec 4) (y : BitVec 3) (d : BitVec 4) (a : BitVec 4) (p : BitVec 4) (e : BitVec 1) : Statement (.vcompress k y d a p e) := by
  have hk := k.isLt
  have hy := y.isLt
  have hd := d.isLt
  have ha := a.isLt
  have hp := p.isLt
  have he := e.isLt
  obtain ⟨ω, hω⟩ : ∃ ω, pack 0x86000000 [(k.toNat, 27), (y.toNat, 18), (d.toNat, 14), (a.toNat, 10), (p.toNat, 2), (e.toNat, 0)] = ω := ⟨_, rfl⟩
  simp only [pack] at hω
  have h0 : bits ω 21 6 = 48 := by simp only [bits]; omega
  have c0 : bits ω 1 1 = 0 := by simp only [bits]; omega
  have c1 : bits ω 6 4 = 0 := by simp only [bits]; omega
  have f0 : fld ω 27 4 = k := fld_eq _ _ _ (by omega)
  have f1 : fld ω 18 3 = y := fld_eq _ _ _ (by omega)
  have f2 : fld ω 14 4 = d := fld_eq _ _ _ (by omega)
  have f3 : fld ω 10 4 = a := fld_eq _ _ _ (by omega)
  have f4 : fld ω 2 4 = p := fld_eq _ _ _ (by omega)
  have f5 : fld ω 0 1 = e := fld_eq _ _ _ (by omega)
  exact of_wPriv rfl ω hω (by omega) (by simp only [bits]; omega) (by rw [wPriv_48 h0]; simp [c0, c1, f0, f1, f2, f3, f4, f5])

theorem vexpand (k : BitVec 4) (y : BitVec 3) (d : BitVec 4) (a : BitVec 4) (p : BitVec 4) (e : BitVec 1) : Statement (.vexpand k y d a p e) := by
  have hk := k.isLt
  have hy := y.isLt
  have hd := d.isLt
  have ha := a.isLt
  have hp := p.isLt
  have he := e.isLt
  obtain ⟨ω, hω⟩ : ∃ ω, pack 0x86200000 [(k.toNat, 27), (y.toNat, 18), (d.toNat, 14), (a.toNat, 10), (p.toNat, 2), (e.toNat, 0)] = ω := ⟨_, rfl⟩
  simp only [pack] at hω
  have h0 : bits ω 21 6 = 49 := by simp only [bits]; omega
  have c0 : bits ω 1 1 = 0 := by simp only [bits]; omega
  have c1 : bits ω 6 4 = 0 := by simp only [bits]; omega
  have f0 : fld ω 27 4 = k := fld_eq _ _ _ (by omega)
  have f1 : fld ω 18 3 = y := fld_eq _ _ _ (by omega)
  have f2 : fld ω 14 4 = d := fld_eq _ _ _ (by omega)
  have f3 : fld ω 10 4 = a := fld_eq _ _ _ (by omega)
  have f4 : fld ω 2 4 = p := fld_eq _ _ _ (by omega)
  have f5 : fld ω 0 1 = e := fld_eq _ _ _ (by omega)
  exact of_wPriv rfl ω hω (by omega) (by simp only [bits]; omega) (by rw [wPriv_49 h0]; simp [c0, c1, f0, f1, f2, f3, f4, f5])

theorem plogic (k : BitVec 4) (f : BitVec 3) (d : BitVec 4) (a : BitVec 4) (b : BitVec 4) : Statement (.plogic k f d a b) := by
  have hk := k.isLt
  have hf := f.isLt
  have hd := d.isLt
  have ha := a.isLt
  have hb := b.isLt
  obtain ⟨ω, hω⟩ : ∃ ω, pack 0x86400000 [(k.toNat, 27), (f.toNat, 18), (d.toNat, 14), (a.toNat, 10), (b.toNat, 6)] = ω := ⟨_, rfl⟩
  simp only [pack] at hω
  have h0 : bits ω 21 6 = 50 := by simp only [bits]; omega
  have c0 : bits ω 0 6 = 0 := by simp only [bits]; omega
  have f0 : fld ω 27 4 = k := fld_eq _ _ _ (by omega)
  have f1 : fld ω 18 3 = f := fld_eq _ _ _ (by omega)
  have f2 : fld ω 14 4 = d := fld_eq _ _ _ (by omega)
  have f3 : fld ω 10 4 = a := fld_eq _ _ _ (by omega)
  have f4 : fld ω 6 4 = b := fld_eq _ _ _ (by omega)
  exact of_wPriv rfl ω hω (by omega) (by simp only [bits]; omega) (by rw [wPriv_50 h0]; simp [c0, f0, f1, f2, f3, f4])

theorem psetFirsti (k : BitVec 4) (y : BitVec 3) (d : BitVec 4) (i : BitVec 8) : Statement (.psetFirsti k y d i) := by
  have hk := k.isLt
  have hy := y.isLt
  have hd := d.isLt
  have hi := i.isLt
  obtain ⟨ω, hω⟩ : ∃ ω, pack 0x86600000 [(k.toNat, 27), (y.toNat, 18), (d.toNat, 14), (i.toNat, 2)] = ω := ⟨_, rfl⟩
  simp only [pack] at hω
  have h0 : bits ω 21 6 = 51 := by simp only [bits]; omega
  have c0 : bits ω 0 2 = 0 := by simp only [bits]; omega
  have c1 : bits ω 10 4 = 0 := by simp only [bits]; omega
  have f0 : fld ω 27 4 = k := fld_eq _ _ _ (by omega)
  have f1 : fld ω 18 3 = y := fld_eq _ _ _ (by omega)
  have f2 : fld ω 14 4 = d := fld_eq _ _ _ (by omega)
  have f3 : fld ω 2 8 = i := fld_eq _ _ _ (by omega)
  exact of_wPriv rfl ω hω (by omega) (by simp only [bits]; omega) (by rw [wPriv_51 h0]; simp [c0, c1, f0, f1, f2, f3])

theorem psetFirst (k : BitVec 4) (y : BitVec 3) (d : BitVec 4) (a : BitVec 4) : Statement (.psetFirst k y d a) := by
  have hk := k.isLt
  have hy := y.isLt
  have hd := d.isLt
  have ha := a.isLt
  obtain ⟨ω, hω⟩ : ∃ ω, pack 0x86600001 [(k.toNat, 27), (y.toNat, 18), (d.toNat, 14), (a.toNat, 10)] = ω := ⟨_, rfl⟩
  simp only [pack] at hω
  have h0 : bits ω 21 6 = 51 := by simp only [bits]; omega
  have c0 : ¬ bits ω 0 2 = 0 := by simp only [bits]; omega
  have c1 : bits ω 0 10 = 1 := by simp only [bits]; omega
  have f0 : fld ω 27 4 = k := fld_eq _ _ _ (by omega)
  have f1 : fld ω 18 3 = y := fld_eq _ _ _ (by omega)
  have f2 : fld ω 14 4 = d := fld_eq _ _ _ (by omega)
  have f3 : fld ω 10 4 = a := fld_eq _ _ _ (by omega)
  exact of_wPriv rfl ω hω (by omega) (by simp only [bits]; omega) (by rw [wPriv_51 h0]; simp [c0, c1, f0, f1, f2, f3])

theorem psetRange (k : BitVec 4) (y : BitVec 3) (d : BitVec 4) (a : BitVec 4) (c : BitVec 4) : Statement (.psetRange k y d a c) := by
  have hk := k.isLt
  have hy := y.isLt
  have hd := d.isLt
  have ha := a.isLt
  have hc := c.isLt
  obtain ⟨ω, hω⟩ : ∃ ω, pack 0x86600002 [(k.toNat, 27), (y.toNat, 18), (d.toNat, 14), (a.toNat, 10), (c.toNat, 2)] = ω := ⟨_, rfl⟩
  simp only [pack] at hω
  have h0 : bits ω 21 6 = 51 := by simp only [bits]; omega
  have c0 : ¬ bits ω 0 10 = 1 := by simp only [bits]; omega
  have c1 : bits ω 0 2 = 2 := by simp only [bits]; omega
  have c2 : bits ω 6 4 = 0 := by simp only [bits]; omega
  have f0 : fld ω 27 4 = k := fld_eq _ _ _ (by omega)
  have f1 : fld ω 18 3 = y := fld_eq _ _ _ (by omega)
  have f2 : fld ω 14 4 = d := fld_eq _ _ _ (by omega)
  have f3 : fld ω 10 4 = a := fld_eq _ _ _ (by omega)
  have f4 : fld ω 2 4 = c := fld_eq _ _ _ (by omega)
  exact of_wPriv rfl ω hω (by omega) (by simp only [bits]; omega) (by rw [wPriv_51 h0]; simp [c0, c1, c2, f0, f1, f2, f3, f4])

theorem pcnt (k : BitVec 4) (y : BitVec 3) (d : BitVec 4) (a : BitVec 4) (p : BitVec 4) : Statement (.pcnt k y d a p) := by
  have hk := k.isLt
  have hy := y.isLt
  have hd := d.isLt
  have ha := a.isLt
  have hp := p.isLt
  obtain ⟨ω, hω⟩ : ∃ ω, pack 0x86800000 [(k.toNat, 27), (y.toNat, 18), (d.toNat, 14), (a.toNat, 10), (p.toNat, 2)] = ω := ⟨_, rfl⟩
  simp only [pack] at hω
  have h0 : bits ω 21 6 = 52 := by simp only [bits]; omega
  have c0 : bits ω 0 2 = 0 := by simp only [bits]; omega
  have c1 : bits ω 6 4 = 0 := by simp only [bits]; omega
  have f0 : fld ω 27 4 = k := fld_eq _ _ _ (by omega)
  have f1 : fld ω 18 3 = y := fld_eq _ _ _ (by omega)
  have f2 : fld ω 14 4 = d := fld_eq _ _ _ (by omega)
  have f3 : fld ω 10 4 = a := fld_eq _ _ _ (by omega)
  have f4 : fld ω 2 4 = p := fld_eq _ _ _ (by omega)
  exact of_wPriv rfl ω hω (by omega) (by simp only [bits]; omega) (by rw [wPriv_52 h0]; simp [c0, c1, f0, f1, f2, f3, f4])

theorem pfirst (k : BitVec 4) (y : BitVec 3) (d : BitVec 4) (a : BitVec 4) (p : BitVec 4) : Statement (.pfirst k y d a p) := by
  have hk := k.isLt
  have hy := y.isLt
  have hd := d.isLt
  have ha := a.isLt
  have hp := p.isLt
  obtain ⟨ω, hω⟩ : ∃ ω, pack 0x86A00000 [(k.toNat, 27), (y.toNat, 18), (d.toNat, 14), (a.toNat, 10), (p.toNat, 2)] = ω := ⟨_, rfl⟩
  simp only [pack] at hω
  have h0 : bits ω 21 6 = 53 := by simp only [bits]; omega
  have c0 : bits ω 0 2 = 0 := by simp only [bits]; omega
  have c1 : bits ω 6 4 = 0 := by simp only [bits]; omega
  have f0 : fld ω 27 4 = k := fld_eq _ _ _ (by omega)
  have f1 : fld ω 18 3 = y := fld_eq _ _ _ (by omega)
  have f2 : fld ω 14 4 = d := fld_eq _ _ _ (by omega)
  have f3 : fld ω 10 4 = a := fld_eq _ _ _ (by omega)
  have f4 : fld ω 2 4 = p := fld_eq _ _ _ (by omega)
  exact of_wPriv rfl ω hω (by omega) (by simp only [bits]; omega) (by rw [wPriv_53 h0]; simp [c0, c1, f0, f1, f2, f3, f4])

theorem pfirstLast (k : BitVec 4) (y : BitVec 3) (d : BitVec 4) (a : BitVec 4) (p : BitVec 4) : Statement (.pfirstLast k y d a p) := by
  have hk := k.isLt
  have hy := y.isLt
  have hd := d.isLt
  have ha := a.isLt
  have hp := p.isLt
  obtain ⟨ω, hω⟩ : ∃ ω, pack 0x86A00001 [(k.toNat, 27), (y.toNat, 18), (d.toNat, 14), (a.toNat, 10), (p.toNat, 2)] = ω := ⟨_, rfl⟩
  simp only [pack] at hω
  have h0 : bits ω 21 6 = 53 := by simp only [bits]; omega
  have c0 : bits ω 0 2 = 1 := by simp only [bits]; omega
  have c1 : bits ω 6 4 = 0 := by simp only [bits]; omega
  have f0 : fld ω 27 4 = k := fld_eq _ _ _ (by omega)
  have f1 : fld ω 18 3 = y := fld_eq _ _ _ (by omega)
  have f2 : fld ω 14 4 = d := fld_eq _ _ _ (by omega)
  have f3 : fld ω 10 4 = a := fld_eq _ _ _ (by omega)
  have f4 : fld ω 2 4 = p := fld_eq _ _ _ (by omega)
  exact of_wPriv rfl ω hω (by omega) (by simp only [bits]; omega) (by rw [wPriv_53 h0]; simp [c0, c1, f0, f1, f2, f3, f4])

theorem vmovwPtov (k : BitVec 4) (y : BitVec 3) (d : BitVec 4) (a : BitVec 4) (b : BitVec 4) : Statement (.vmovwPtov k y d a b) := by
  have hk := k.isLt
  have hy := y.isLt
  have hd := d.isLt
  have ha := a.isLt
  have hb := b.isLt
  obtain ⟨ω, hω⟩ : ∃ ω, pack 0x86C00000 [(k.toNat, 27), (y.toNat, 18), (d.toNat, 14), (a.toNat, 10), (b.toNat, 6)] = ω := ⟨_, rfl⟩
  simp only [pack] at hω
  have h0 : bits ω 21 6 = 54 := by simp only [bits]; omega
  have c0 : bits ω 0 6 = 0 := by simp only [bits]; omega
  have f0 : fld ω 27 4 = k := fld_eq _ _ _ (by omega)
  have f1 : fld ω 18 3 = y := fld_eq _ _ _ (by omega)
  have f2 : fld ω 14 4 = d := fld_eq _ _ _ (by omega)
  have f3 : fld ω 10 4 = a := fld_eq _ _ _ (by omega)
  have f4 : fld ω 6 4 = b := fld_eq _ _ _ (by omega)
  exact of_wPriv rfl ω hω (by omega) (by simp only [bits]; omega) (by rw [wPriv_54 h0]; simp [c0, f0, f1, f2, f3, f4])

theorem vmovwVtop (k : BitVec 4) (y : BitVec 3) (d : BitVec 4) (a : BitVec 4) (b : BitVec 4) : Statement (.vmovwVtop k y d a b) := by
  have hk := k.isLt
  have hy := y.isLt
  have hd := d.isLt
  have ha := a.isLt
  have hb := b.isLt
  obtain ⟨ω, hω⟩ : ∃ ω, pack 0x86C00001 [(k.toNat, 27), (y.toNat, 18), (d.toNat, 14), (a.toNat, 10), (b.toNat, 6)] = ω := ⟨_, rfl⟩
  simp only [pack] at hω
  have h0 : bits ω 21 6 = 54 := by simp only [bits]; omega
  have c0 : bits ω 0 6 = 1 := by simp only [bits]; omega
  have f0 : fld ω 27 4 = k := fld_eq _ _ _ (by omega)
  have f1 : fld ω 18 3 = y := fld_eq _ _ _ (by omega)
  have f2 : fld ω 14 4 = d := fld_eq _ _ _ (by omega)
  have f3 : fld ω 10 4 = a := fld_eq _ _ _ (by omega)
  have f4 : fld ω 6 4 = b := fld_eq _ _ _ (by omega)
  exact of_wPriv rfl ω hω (by omega) (by simp only [bits]; omega) (by rw [wPriv_54 h0]; simp [c0, f0, f1, f2, f3, f4])

theorem vmovwVtow (k : BitVec 4) (y : BitVec 3) (d : BitVec 4) (a : BitVec 4) : Statement (.vmovwVtow k y d a) := by
  have hk := k.isLt
  have hy := y.isLt
  have hd := d.isLt
  have ha := a.isLt
  obtain ⟨ω, hω⟩ : ∃ ω, pack 0x86C00002 [(k.toNat, 27), (y.toNat, 18), (d.toNat, 14), (a.toNat, 10)] = ω := ⟨_, rfl⟩
  simp only [pack] at hω
  have h0 : bits ω 21 6 = 54 := by simp only [bits]; omega
  have c0 : ¬ bits ω 0 6 = 0 := by simp only [bits]; omega
  have c1 : ¬ bits ω 0 6 = 1 := by simp only [bits]; omega
  have c2 : bits ω 0 10 = 2 := by simp only [bits]; omega
  have f0 : fld ω 27 4 = k := fld_eq _ _ _ (by omega)
  have f1 : fld ω 18 3 = y := fld_eq _ _ _ (by omega)
  have f2 : fld ω 14 4 = d := fld_eq _ _ _ (by omega)
  have f3 : fld ω 10 4 = a := fld_eq _ _ _ (by omega)
  exact of_wPriv rfl ω hω (by omega) (by simp only [bits]; omega) (by rw [wPriv_54 h0]; simp [c0, c1, c2, f0, f1, f2, f3])

theorem mgo (k : BitVec 4) (x : BitVec 4) (w : BitVec 3) (z : BitVec 1) : Statement (.mgo k x w z) := by
  have hk := k.isLt
  have hx := x.isLt
  have hw := w.isLt
  have hz := z.isLt
  obtain ⟨ω, hω⟩ : ∃ ω, pack 0x87000000 [(k.toNat, 27), (x.toNat, 14), (w.toNat, 11), (z.toNat, 0)] = ω := ⟨_, rfl⟩
  simp only [pack] at hω
  have h0 : bits ω 21 6 = 56 := by simp only [bits]; omega
  have c0 : bits ω 1 10 = 0 := by simp only [bits]; omega
  have c1 : bits ω 18 3 = 0 := by simp only [bits]; omega
  have f0 : fld ω 27 4 = k := fld_eq _ _ _ (by omega)
  have f1 : fld ω 14 4 = x := fld_eq _ _ _ (by omega)
  have f2 : fld ω 11 3 = w := fld_eq _ _ _ (by omega)
  have f3 : fld ω 0 1 = z := fld_eq _ _ _ (by omega)
  exact of_wPriv rfl ω hω (by omega) (by simp only [bits]; omega) (by rw [wPriv_56 h0]; simp [c0, c1, f0, f1, f2, f3])

theorem mgog (k : BitVec 4) (x : BitVec 4) (w : BitVec 3) (g : BitVec 6) (z : BitVec 1) : Statement (.mgog k x w g z) := by
  have hk := k.isLt
  have hx := x.isLt
  have hw := w.isLt
  have hg := g.isLt
  have hz := z.isLt
  obtain ⟨ω, hω⟩ : ∃ ω, pack 0x87200000 [(k.toNat, 27), (x.toNat, 14), (w.toNat, 11), (g.toNat, 2), (z.toNat, 0)] = ω := ⟨_, rfl⟩
  simp only [pack] at hω
  have h0 : bits ω 21 6 = 57 := by simp only [bits]; omega
  have c0 : bits ω 1 1 = 0 := by simp only [bits]; omega
  have c1 : bits ω 8 3 = 0 := by simp only [bits]; omega
  have c2 : bits ω 18 3 = 0 := by simp only [bits]; omega
  have f0 : fld ω 27 4 = k := fld_eq _ _ _ (by omega)
  have f1 : fld ω 14 4 = x := fld_eq _ _ _ (by omega)
  have f2 : fld ω 11 3 = w := fld_eq _ _ _ (by omega)
  have f3 : fld ω 2 6 = g := fld_eq _ _ _ (by omega)
  have f4 : fld ω 0 1 = z := fld_eq _ _ _ (by omega)
  exact of_wPriv rfl ω hω (by omega) (by simp only [bits]; omega) (by rw [wPriv_57 h0]; simp [c0, c1, c2, f0, f1, f2, f3, f4])

theorem mouter (k : BitVec 4) (y : BitVec 3) (l : BitVec 6) (a : BitVec 4) (b : BitVec 4) (h : BitVec 1) (j : BitVec 1) : Statement (.mouter k y l a b h j) := by
  have hk := k.isLt
  have hy := y.isLt
  have hl := l.isLt
  have ha := a.isLt
  have hb := b.isLt
  have hh := h.isLt
  have hj := j.isLt
  obtain ⟨ω, hω⟩ : ∃ ω, pack 0x87400000 [(k.toNat, 27), (y.toNat, 18), (l.toNat, 10), (a.toNat, 6), (b.toNat, 2), (h.toNat, 1), (j.toNat, 0)] = ω := ⟨_, rfl⟩
  simp only [pack] at hω
  have h0 : bits ω 21 6 = 58 := by simp only [bits]; omega
  have c0 : bits ω 16 2 = 0 := by simp only [bits]; omega
  have f0 : fld ω 27 4 = k := fld_eq _ _ _ (by omega)
  have f1 : fld ω 18 3 = y := fld_eq _ _ _ (by omega)
  have f2 : fld ω 10 6 = l := fld_eq _ _ _ (by omega)
  have f3 : fld ω 6 4 = a := fld_eq _ _ _ (by omega)
  have f4 : fld ω 2 4 = b := fld_eq _ _ _ (by omega)
  have f5 : fld ω 1 1 = h := fld_eq _ _ _ (by omega)
  have f6 : fld ω 0 1 = j := fld_eq _ _ _ (by omega)
  exact of_wPriv rfl ω hω (by omega) (by simp only [bits]; omega) (by rw [wPriv_58 h0]; simp [c0, f0, f1, f2, f3, f4, f5, f6])

theorem mvec (k : BitVec 4) (y : BitVec 3) (l : BitVec 6) (d : BitVec 4) (b : BitVec 4) (h : BitVec 1) (j : BitVec 1) : Statement (.mvec k y l d b h j) := by
  have hk := k.isLt
  have hy := y.isLt
  have hl := l.isLt
  have hd := d.isLt
  have hb := b.isLt
  have hh := h.isLt
  have hj := j.isLt
  obtain ⟨ω, hω⟩ : ∃ ω, pack 0x87600000 [(k.toNat, 27), (y.toNat, 18), (l.toNat, 10), (d.toNat, 6), (b.toNat, 2), (h.toNat, 1), (j.toNat, 0)] = ω := ⟨_, rfl⟩
  simp only [pack] at hω
  have h0 : bits ω 21 6 = 59 := by simp only [bits]; omega
  have c0 : bits ω 16 2 = 0 := by simp only [bits]; omega
  have f0 : fld ω 27 4 = k := fld_eq _ _ _ (by omega)
  have f1 : fld ω 18 3 = y := fld_eq _ _ _ (by omega)
  have f2 : fld ω 10 6 = l := fld_eq _ _ _ (by omega)
  have f3 : fld ω 6 4 = d := fld_eq _ _ _ (by omega)
  have f4 : fld ω 2 4 = b := fld_eq _ _ _ (by omega)
  have f5 : fld ω 1 1 = h := fld_eq _ _ _ (by omega)
  have f6 : fld ω 0 1 = j := fld_eq _ _ _ (by omega)
  exact of_wPriv rfl ω hω (by omega) (by simp only [bits]; omega) (by rw [wPriv_59 h0]; simp [c0, f0, f1, f2, f3, f4, f5, f6])

theorem aczero (k : BitVec 4) (n : BitVec 6) (l : BitVec 6) : Statement (.aczero k n l) := by
  have hk := k.isLt
  have hn := n.isLt
  have hl := l.isLt
  obtain ⟨ω, hω⟩ : ∃ ω, pack 0x87800000 [(k.toNat, 27), (n.toNat, 8), (l.toNat, 2)] = ω := ⟨_, rfl⟩
  simp only [pack] at hω
  have h0 : bits ω 21 6 = 60 := by simp only [bits]; omega
  have c0 : bits ω 0 2 = 0 := by simp only [bits]; omega
  have c1 : bits ω 14 7 = 0 := by simp only [bits]; omega
  have f0 : fld ω 27 4 = k := fld_eq _ _ _ (by omega)
  have f1 : fld ω 8 6 = n := fld_eq _ _ _ (by omega)
  have f2 : fld ω 2 6 = l := fld_eq _ _ _ (by omega)
  exact of_wPriv rfl ω hω (by omega) (by simp only [bits]; omega) (by rw [wPriv_60 h0]; simp [c0, c1, f0, f1, f2])

theorem acrd (k : BitVec 4) (n : BitVec 6) (l : BitVec 6) : Statement (.acrd k n l) := by
  have hk := k.isLt
  have hn := n.isLt
  have hl := l.isLt
  obtain ⟨ω, hω⟩ : ∃ ω, pack 0x87800001 [(k.toNat, 27), (n.toNat, 8), (l.toNat, 2)] = ω := ⟨_, rfl⟩
  simp only [pack] at hω
  have h0 : bits ω 21 6 = 60 := by simp only [bits]; omega
  have c0 : bits ω 0 2 = 1 := by simp only [bits]; omega
  have c1 : bits ω 14 7 = 0 := by simp only [bits]; omega
  have f0 : fld ω 27 4 = k := fld_eq _ _ _ (by omega)
  have f1 : fld ω 8 6 = n := fld_eq _ _ _ (by omega)
  have f2 : fld ω 2 6 = l := fld_eq _ _ _ (by omega)
  exact of_wPriv rfl ω hω (by omega) (by simp only [bits]; omega) (by rw [wPriv_60 h0]; simp [c0, c1, f0, f1, f2])

theorem acwr (k : BitVec 4) (n : BitVec 6) (l : BitVec 6) : Statement (.acwr k n l) := by
  have hk := k.isLt
  have hn := n.isLt
  have hl := l.isLt
  obtain ⟨ω, hω⟩ : ∃ ω, pack 0x87800002 [(k.toNat, 27), (n.toNat, 8), (l.toNat, 2)] = ω := ⟨_, rfl⟩
  simp only [pack] at hω
  have h0 : bits ω 21 6 = 60 := by simp only [bits]; omega
  have c0 : bits ω 0 2 = 2 := by simp only [bits]; omega
  have c1 : bits ω 14 7 = 0 := by simp only [bits]; omega
  have f0 : fld ω 27 4 = k := fld_eq _ _ _ (by omega)
  have f1 : fld ω 8 6 = n := fld_eq _ _ _ (by omega)
  have f2 : fld ω 2 6 = l := fld_eq _ _ _ (by omega)
  exact of_wPriv rfl ω hω (by omega) (by simp only [bits]; omega) (by rw [wPriv_60 h0]; simp [c0, c1, f0, f1, f2])

theorem acpin (k : BitVec 4) (x : BitVec 3) (w : BitVec 3) (n : BitVec 6) (l : BitVec 6) : Statement (.acpin k x w n l) := by
  have hk := k.isLt
  have hx := x.isLt
  have hw := w.isLt
  have hn := n.isLt
  have hl := l.isLt
  obtain ⟨ω, hω⟩ : ∃ ω, pack 0x87A00000 [(k.toNat, 27), (x.toNat, 17), (w.toNat, 14), (n.toNat, 8), (l.toNat, 2)] = ω := ⟨_, rfl⟩
  simp only [pack] at hω
  have h0 : bits ω 21 6 = 61 := by simp only [bits]; omega
  have c0 : bits ω 0 2 = 0 := by simp only [bits]; omega
  have c1 : bits ω 20 1 = 0 := by simp only [bits]; omega
  have f0 : fld ω 27 4 = k := fld_eq _ _ _ (by omega)
  have f1 : fld ω 17 3 = x := fld_eq _ _ _ (by omega)
  have f2 : fld ω 14 3 = w := fld_eq _ _ _ (by omega)
  have f3 : fld ω 8 6 = n := fld_eq _ _ _ (by omega)
  have f4 : fld ω 2 6 = l := fld_eq _ _ _ (by omega)
  exact of_wPriv rfl ω hω (by omega) (by simp only [bits]; omega) (by rw [wPriv_61 h0]; simp [c0, c1, f0, f1, f2, f3, f4])

theorem acfree (k : BitVec 4) (n : BitVec 6) (l : BitVec 6) : Statement (.acfree k n l) := by
  have hk := k.isLt
  have hn := n.isLt
  have hl := l.isLt
  obtain ⟨ω, hω⟩ : ∃ ω, pack 0x87A00001 [(k.toNat, 27), (n.toNat, 8), (l.toNat, 2)] = ω := ⟨_, rfl⟩
  simp only [pack] at hω
  have h0 : bits ω 21 6 = 61 := by simp only [bits]; omega
  have c0 : bits ω 0 2 = 1 := by simp only [bits]; omega
  have c1 : bits ω 14 7 = 0 := by simp only [bits]; omega
  have f0 : fld ω 27 4 = k := fld_eq _ _ _ (by omega)
  have f1 : fld ω 8 6 = n := fld_eq _ _ _ (by omega)
  have f2 : fld ω 2 6 = l := fld_eq _ _ _ (by omega)
  exact of_wPriv rfl ω hω (by omega) (by simp only [bits]; omega) (by rw [wPriv_61 h0]; simp [c0, c1, f0, f1, f2])

theorem acspill (k : BitVec 4) (n : BitVec 6) (l : BitVec 6) : Statement (.acspill k n l) := by
  have hk := k.isLt
  have hn := n.isLt
  have hl := l.isLt
  obtain ⟨ω, hω⟩ : ∃ ω, pack 0x87A00002 [(k.toNat, 27), (n.toNat, 8), (l.toNat, 2)] = ω := ⟨_, rfl⟩
  simp only [pack] at hω
  have h0 : bits ω 21 6 = 61 := by simp only [bits]; omega
  have c0 : bits ω 0 2 = 2 := by simp only [bits]; omega
  have c1 : bits ω 14 7 = 0 := by simp only [bits]; omega
  have f0 : fld ω 27 4 = k := fld_eq _ _ _ (by omega)
  have f1 : fld ω 8 6 = n := fld_eq _ _ _ (by omega)
  have f2 : fld ω 2 6 = l := fld_eq _ _ _ (by omega)
  exact of_wPriv rfl ω hω (by omega) (by simp only [bits]; omega) (by rw [wPriv_61 h0]; simp [c0, c1, f0, f1, f2])

theorem acfill (k : BitVec 4) (w : BitVec 3) (n : BitVec 6) (l : BitVec 6) : Statement (.acfill k w n l) := by
  have hk := k.isLt
  have hw := w.isLt
  have hn := n.isLt
  have hl := l.isLt
  obtain ⟨ω, hω⟩ : ∃ ω, pack 0x87A00003 [(k.toNat, 27), (w.toNat, 14), (n.toNat, 8), (l.toNat, 2)] = ω := ⟨_, rfl⟩
  simp only [pack] at hω
  have h0 : bits ω 21 6 = 61 := by simp only [bits]; omega
  have c0 : bits ω 0 2 = 3 := by simp only [bits]; omega
  have c1 : bits ω 17 4 = 0 := by simp only [bits]; omega
  have f0 : fld ω 27 4 = k := fld_eq _ _ _ (by omega)
  have f1 : fld ω 14 3 = w := fld_eq _ _ _ (by omega)
  have f2 : fld ω 8 6 = n := fld_eq _ _ _ (by omega)
  have f3 : fld ω 2 6 = l := fld_eq _ _ _ (by omega)
  exact of_wPriv rfl ω hω (by omega) (by simp only [bits]; omega) (by rw [wPriv_61 h0]; simp [c0, c1, f0, f1, f2, f3])

theorem fwstep (k : BitVec 4) (f : BitVec 2) : Statement (.fwstep k f) := by
  have hk := k.isLt
  have hf := f.isLt
  obtain ⟨ω, hω⟩ : ∃ ω, pack 0x87C00000 [(k.toNat, 27), (f.toNat, 2)] = ω := ⟨_, rfl⟩
  simp only [pack] at hω
  have h0 : bits ω 21 6 = 62 := by simp only [bits]; omega
  have c0 : bits ω 0 2 = 0 := by simp only [bits]; omega
  have c1 : bits ω 4 17 = 0 := by simp only [bits]; omega
  have f0 : fld ω 27 4 = k := fld_eq _ _ _ (by omega)
  have f1 : fld ω 2 2 = f := fld_eq _ _ _ (by omega)
  exact of_wPriv rfl ω hω (by omega) (by simp only [bits]; omega) (by rw [wPriv_62 h0]; simp [c0, c1, f0, f1])

theorem fwchunk (k : BitVec 4) (c : BitVec 6) (m : BitVec 4) : Statement (.fwchunk k c m) := by
  have hk := k.isLt
  have hc := c.isLt
  have hm := m.isLt
  obtain ⟨ω, hω⟩ : ∃ ω, pack 0x87C00001 [(k.toNat, 27), (c.toNat, 6), (m.toNat, 2)] = ω := ⟨_, rfl⟩
  simp only [pack] at hω
  have h0 : bits ω 21 6 = 62 := by simp only [bits]; omega
  have c0 : bits ω 0 2 = 1 := by simp only [bits]; omega
  have c1 : bits ω 12 9 = 0 := by simp only [bits]; omega
  have f0 : fld ω 27 4 = k := fld_eq _ _ _ (by omega)
  have f1 : fld ω 6 6 = c := fld_eq _ _ _ (by omega)
  have f2 : fld ω 2 4 = m := fld_eq _ _ _ (by omega)
  exact of_wPriv rfl ω hω (by omega) (by simp only [bits]; omega) (by rw [wPriv_62 h0]; simp [c0, c1, f0, f1, f2])

theorem assay (k : BitVec 4) (w : BitVec 3) (f : BitVec 1) (g : BitVec 2) : Statement (.assay k w f g) := by
  have hk := k.isLt
  have hw := w.isLt
  have hf := f.isLt
  have hg := g.isLt
  obtain ⟨ω, hω⟩ : ∃ ω, pack 0x87E00000 [(k.toNat, 27), (w.toNat, 11), (f.toNat, 4), (g.toNat, 2)] = ω := ⟨_, rfl⟩
  simp only [pack] at hω
  have h0 : bits ω 21 6 = 63 := by simp only [bits]; omega
  have c0 : bits ω 0 2 = 0 := by simp only [bits]; omega
  have c1 : bits ω 5 6 = 0 := by simp only [bits]; omega
  have c2 : bits ω 14 7 = 0 := by simp only [bits]; omega
  have f0 : fld ω 27 4 = k := fld_eq _ _ _ (by omega)
  have f1 : fld ω 11 3 = w := fld_eq _ _ _ (by omega)
  have f2 : fld ω 4 1 = f := fld_eq _ _ _ (by omega)
  have f3 : fld ω 2 2 = g := fld_eq _ _ _ (by omega)
  exact of_wPriv rfl ω hω (by omega) (by simp only [bits]; omega) (by rw [wPriv_63 h0]; simp [c0, c1, c2, f0, f1, f2, f3])

theorem mremap (k : BitVec 4) (w : BitVec 3) (i : BitVec 9) (d : BitVec 1) (s : BitVec 1) : Statement (.mremap k w i d s) := by
  have hk := k.isLt
  have hw := w.isLt
  have hi := i.isLt
  have hd := d.isLt
  have hs := s.isLt
  obtain ⟨ω, hω⟩ : ∃ ω, pack 0x87E00001 [(k.toNat, 27), (w.toNat, 14), (i.toNat, 4), (d.toNat, 3), (s.toNat, 2)] = ω := ⟨_, rfl⟩
  simp only [pack] at hω
  have h0 : bits ω 21 6 = 63 := by simp only [bits]; omega
  have c0 : bits ω 0 2 = 1 := by simp only [bits]; omega
  have c1 : bits ω 13 1 = 0 := by simp only [bits]; omega
  have c2 : bits ω 17 4 = 0 := by simp only [bits]; omega
  have f0 : fld ω 27 4 = k := fld_eq _ _ _ (by omega)
  have f1 : fld ω 14 3 = w := fld_eq _ _ _ (by omega)
  have f2 : fld ω 4 9 = i := fld_eq _ _ _ (by omega)
  have f3 : fld ω 3 1 = d := fld_eq _ _ _ (by omega)
  have f4 : fld ω 2 1 = s := fld_eq _ _ _ (by omega)
  exact of_wPriv rfl ω hω (by omega) (by simp only [bits]; omega) (by rw [wPriv_63 h0]; simp [c0, c1, c2, f0, f1, f2, f3, f4])

theorem mshrink (k : BitVec 4) (w : BitVec 3) (i : BitVec 9) (d : BitVec 1) : Statement (.mshrink k w i d) := by
  have hk := k.isLt
  have hw := w.isLt
  have hi := i.isLt
  have hd := d.isLt
  obtain ⟨ω, hω⟩ : ∃ ω, pack 0x87E00002 [(k.toNat, 27), (w.toNat, 14), (i.toNat, 4), (d.toNat, 3)] = ω := ⟨_, rfl⟩
  simp only [pack] at hω
  have h0 : bits ω 21 6 = 63 := by simp only [bits]; omega
  have c0 : ¬ bits ω 0 2 = 0 := by simp only [bits]; omega
  have c1 : ¬ bits ω 0 2 = 1 := by simp only [bits]; omega
  have c2 : bits ω 0 3 = 2 := by simp only [bits]; omega
  have c3 : bits ω 13 1 = 0 := by simp only [bits]; omega
  have c4 : bits ω 17 4 = 0 := by simp only [bits]; omega
  have f0 : fld ω 27 4 = k := fld_eq _ _ _ (by omega)
  have f1 : fld ω 14 3 = w := fld_eq _ _ _ (by omega)
  have f2 : fld ω 4 9 = i := fld_eq _ _ _ (by omega)
  have f3 : fld ω 3 1 = d := fld_eq _ _ _ (by omega)
  exact of_wPriv rfl ω hω (by omega) (by simp only [bits]; omega) (by rw [wPriv_63 h0]; simp [c0, c1, c2, c3, c4, f0, f1, f2, f3])

theorem issueBundle : Statement .issueBundle := of_event rfl rfl

theorem wfiWake : Statement .wfiWake := of_event rfl rfl

theorem threadEnd : Statement .threadEnd := of_event rfl rfl

theorem shufStep : Statement .shufStep := of_event rfl rfl

theorem segDeadline : Statement .segDeadline := of_event rfl rfl

theorem sectorLand : Statement .sectorLand := of_event rfl rfl

theorem remoteBarrierSignal : Statement .remoteBarrierSignal := of_event rfl rfl

theorem nestComplete : Statement .nestComplete := of_event rfl rfl

theorem queueDeadlock : Statement .queueDeadlock := of_event rfl rfl

theorem uiDelivery : Statement .uiDelivery := of_event rfl rfl

theorem clpmQuiesce : Statement .clpmQuiesce := of_event rfl rfl

theorem clpmSave : Statement .clpmSave := of_event rfl rfl

theorem gateClk : Statement .gateClk := of_event rfl rfl

theorem gateRail : Statement .gateRail := of_event rfl rfl

theorem ungateRail : Statement .ungateRail := of_event rfl rfl

theorem ungateClk : Statement .ungateClk := of_event rfl rfl

theorem clpmRestore : Statement .clpmRestore := of_event rfl rfl

theorem clpmRelease : Statement .clpmRelease := of_event rfl rfl

theorem clpmCommandComplete : Statement .clpmCommandComplete := of_event rfl rfl

theorem pgoodTimeout : Statement .pgoodTimeout := of_event rfl rfl

theorem clpmWake : Statement .clpmWake := of_event rfl rfl

theorem fwtimerExpire : Statement .fwtimerExpire := of_event rfl rfl

theorem bar0MirrorWrite : Statement .bar0MirrorWrite := of_event rfl rfl

theorem modrst : Statement .modrst := of_event rfl rfl

theorem fwdoorbell : Statement .fwdoorbell := of_event rfl rfl

theorem read64 : Statement .read64 := of_event rfl rfl

theorem write64 : Statement .write64 := of_event rfl rfl

theorem mgmtOwnerWrite : Statement .mgmtOwnerWrite := of_event rfl rfl

theorem linkdown : Statement .linkdown := of_event rfl rfl

theorem powerOnReset : Statement .powerOnReset := of_event rfl rfl

theorem railPgoodTimeout : Statement .railPgoodTimeout := of_event rfl rfl

theorem moduleReset : Statement .moduleReset := of_event rfl rfl

theorem fireflyReset : Statement .fireflyReset := of_event rfl rfl

theorem bootRom : Statement .bootRom := of_event rfl rfl

theorem attestRequest : Statement .attestRequest := of_event rfl rfl

theorem throttlePeriod : Statement .throttlePeriod := of_event rfl rfl

theorem fastlim : Statement .fastlim := of_event rfl rfl

theorem thermlim : Statement .thermlim := of_event rfl rfl

theorem thermalCut : Statement .thermalCut := of_event rfl rfl

theorem securityAlarm : Statement .securityAlarm := of_event rfl rfl

theorem hostBar2Write : Statement .hostBar2Write := of_event rfl rfl

theorem launchDoorbell : Statement .launchDoorbell := of_event rfl rfl

theorem launchReceive : Statement .launchReceive := of_event rfl rfl

theorem launchReplyTimeout : Statement .launchReplyTimeout := of_event rfl rfl

theorem dispatchSelect : Statement .dispatchSelect := of_event rfl rfl

theorem nodeComplete : Statement .nodeComplete := of_event rfl rfl

theorem cooperativePoint : Statement .cooperativePoint := of_event rfl rfl

theorem forcedPreempt : Statement .forcedPreempt := of_event rfl rfl

theorem saveDeadline : Statement .saveDeadline := of_event rfl rfl

theorem deathwatch : Statement .deathwatch := of_event rfl rfl

theorem createCtx : Statement .createCtx := of_event rfl rfl

theorem teardownCtx : Statement .teardownCtx := of_event rfl rfl

theorem preemptCtx : Statement .preemptCtx := of_event rfl rfl

theorem haltCtx : Statement .haltCtx := of_event rfl rfl

theorem resumeCtx : Statement .resumeCtx := of_event rfl rfl

theorem stepThread : Statement .stepThread := of_event rfl rfl

theorem tlbinv : Statement .tlbinv := of_event rfl rfl

theorem tlbinvDone : Statement .tlbinvDone := of_event rfl rfl

theorem fqresp : Statement .fqresp := of_event rfl rfl

theorem repairOnRead : Statement .repairOnRead := of_event rfl rfl

theorem repairTimeout : Statement .repairTimeout := of_event rfl rfl

theorem planishVisit : Statement .planishVisit := of_event rfl rfl

theorem combineTimeout : Statement .combineTimeout := of_event rfl rfl

theorem lineDepart : Statement .lineDepart := of_event rfl rfl

theorem postedWriteReceive : Statement .postedWriteReceive := of_event rfl rfl

theorem postedAck : Statement .postedAck := of_event rfl rfl

theorem postedTimeout : Statement .postedTimeout := of_event rfl rfl

theorem remoteLoadReceive : Statement .remoteLoadReceive := of_event rfl rfl

theorem remoteLoadTimeout : Statement .remoteLoadTimeout := of_event rfl rfl

theorem flitReceive : Statement .flitReceive := of_event rfl rfl

theorem linkDown : Statement .linkDown := of_event rfl rfl

theorem fabSwitch : Statement .fabSwitch := of_event rfl rfl

theorem fabSwitchApply : Statement .fabSwitchApply := of_event rfl rfl

theorem reductionContribution : Statement .reductionContribution := of_event rfl rfl

theorem reductionDeadline : Statement .reductionDeadline := of_event rfl rfl

theorem reductionResult : Statement .reductionResult := of_event rfl rfl

theorem rfreeFrameEnd : Statement .rfreeFrameEnd := of_event rfl rfl

theorem deltaReceive : Statement .deltaReceive := of_event rfl rfl

theorem deltaAck : Statement .deltaAck := of_event rfl rfl

theorem voteReceive : Statement .voteReceive := of_event rfl rfl

theorem decisionReceive : Statement .decisionReceive := of_event rfl rfl

theorem decisionApply : Statement .decisionApply := of_event rfl rfl

theorem heartbeatReceive : Statement .heartbeatReceive := of_event rfl rfl

theorem lossDeclare : Statement .lossDeclare := of_event rfl rfl

theorem lostNotice : Statement .lostNotice := of_event rfl rfl

theorem recoveryReport : Statement .recoveryReport := of_event rfl rfl

theorem joinGroup : Statement .joinGroup := of_event rfl rfl

theorem leaveGroup : Statement .leaveGroup := of_event rfl rfl

theorem startSource : Statement .startSource := of_event rfl rfl

theorem stopSource : Statement .stopSource := of_event rfl rfl

theorem recastUnit : Statement .recastUnit := of_event rfl rfl

theorem exportShard : Statement .exportShard := of_event rfl rfl

theorem restoreShard : Statement .restoreShard := of_event rfl rfl

theorem cancelExport : Statement .cancelExport := of_event rfl rfl

theorem healthEvent : Statement .healthEvent := of_event rfl rfl

theorem ffReadHallmark : Statement .ffReadHallmark := of_event rfl rfl

theorem ffReadInfield : Statement .ffReadInfield := of_event rfl rfl

theorem ffReadHealth : Statement .ffReadHealth := of_event rfl rfl

theorem vmargWrite : Statement .vmargWrite := of_event rfl rfl

theorem vmargSettled : Statement .vmargSettled := of_event rfl rfl

theorem linkMarginStart : Statement .linkMarginStart := of_event rfl rfl

theorem linkMarginDone : Statement .linkMarginDone := of_event rfl rfl

theorem hostLinkRecovery : Statement .hostLinkRecovery := of_event rfl rfl

theorem fabricLinkUp : Statement .fabricLinkUp := of_event rfl rfl

theorem heartbeatSend : Statement .heartbeatSend := of_event rfl rfl

theorem frameTick : Statement .frameTick := of_event rfl rfl

theorem powerLoss : Statement .powerLoss := of_event rfl rfl

theorem fireflyMailbox : Statement .fireflyMailbox := of_event rfl rfl

theorem arrayFault : Statement .arrayFault := of_event rfl rfl

theorem pageRequestResponse : Statement .pageRequestResponse := of_event rfl rfl

theorem reconstructRequest : Statement .reconstructRequest := of_event rfl rfl

end Sys2Proof.Laws.Enc
end

