-- ==== Sys2Proof/Laws/Run.lean ====
section
/-! SUPPORT. A syllable that a stream runs is the meaning that the dispatch gives it. -/

namespace Sys2Proof.Machine

/-- `runSyl`, by which the issue logic tests a syllable, is `exec` on every instruction that has an encoding. -/
theorem runSyl_eq_exec (i : Instr) (s : State) (h : i.kind ≠ .event) : runSyl i s = exec i s := by
  cases i <;> first | exact absurd rfl h | rfl

end Sys2Proof.Machine
end

