-- ==== Sys2Proof/Machine/Loader.lean ====
section
/-! DEFINITION. The object file and its loader (R50 to R56): the tables, the checks, the relocations and what is loaded. The loader is software of the host; it stands
beside the machine and changes no state of it. What it loads lies at the addresses that the host gives the sections. -/

namespace Sys2Proof.Machine

/-- The tables of an object, as a refusal names them (R56). -/
inductive ObjTable where
  | header | sections | symbols | relocations | kernels
  deriving DecidableEq, Repr

/-- A section's entry (R51): kind 0 text, 1 data, 2 rodata, 3 bss; `align` is the logarithm of the alignment; `at` the place of the contents in the file. -/
structure ObjSect where
  name  : Nat
  kind  : Nat
  align : Nat
  size  : Nat
  place : Nat
  deriving DecidableEq, Repr

/-- A symbol's entry (R51): section 0xFFFF absolute, 0xFFFE undefined, 0xFFFD a window handle. -/
structure ObjSym where
  name    : Nat
  sect    : Nat
  binding : Nat
  kind    : Nat
  value   : Word
  size    : Nat
  deriving DecidableEq, Repr

/-- A relocation's entry (R51). -/
structure ObjRel where
  sect   : Nat
  kind   : Nat
  sym    : Nat
  off    : Nat
  addend : Int
  deriving DecidableEq, Repr

/-- A kernel's entry with its view records: CSR numbers and values (R52). -/
structure ObjKernel where
  sym   : Nat
  len   : Nat
  views : List (Nat × Word)
  deriving DecidableEq, Repr

/-- An object file's tables and its strings, which run from `stroff` to the end of the file (R50). -/
structure Obj where
  sections : List ObjSect
  symbols  : List ObjSym
  rels     : List ObjRel
  kernels  : List ObjKernel
  strings  : List Byte
  deriving DecidableEq, Repr

/-- The name at an offset of the string table, up to its zero byte (R51). -/
def Obj.name (o : Obj) (n : Nat) : List Byte := (o.strings.drop n).takeWhile (· != 0)

/-- Why the loader refuses an object: a table and an entry of it (R56), or the symbol, the section and the offset of a relocation (R55). -/
inductive ObjErr where
  | entry (table : ObjTable) (index : Nat)
  | reloc (sym sect off : Nat)
  deriving DecidableEq, Repr

/-! ## The tables (R50, R51, R52, R56) -/

/-- Entry `i` of a table of `w`-byte entries read by `f`, for `i` from `i` on; `f` answers `none` for a refused entry, and so does an entry that the file does not hold. -/
def readTable {α : Type} (bs : List Byte) (off w : Nat) (t : ObjTable) (f : List Byte → Option α) : Nat → Nat → Except ObjErr (List α)
  | _, 0 => .ok []
  | i, n + 1 => do
    let e := (bs.drop (off + w * i)).take w
    match if e.length = w then f e else none with
    | none => .error (.entry t i)
    | some a => return a :: (← readTable bs off w t f (i + 1) n)

/-- A section's entry: its reserved fields are 0, its alignment is 2^4 to 2^16 bytes, and the file holds its contents. That another section than a text section is refused for its alignment, and that
contents past the end of the file are refused: DESIGN CHOICE, log entry 157. -/
def readSect (bs : List Byte) (e : List Byte) : Option ObjSect :=
  if leAt e 6 2 != 0 || leAt e 24 8 != 0 || 3 < leAt e 4 1 || leAt e 5 1 < 4 || 16 < leAt e 5 1 || leAt e 4 1 != 3 && bs.length < leAt e 16 8 + leAt e 8 8 then none
  else some ⟨leAt e 0 4, leAt e 4 1, leAt e 5 1, leAt e 8 8, leAt e 16 8⟩

def readSym (e : List Byte) : Option ObjSym :=
  some ⟨leAt e 0 4, leAt e 4 2, leAt e 6 1, leAt e 7 1, BitVec.ofNat 64 (leAt e 8 8), leAt e 16 8⟩

/-- A relocation's entry. Its addend is signed. -/
def readRel (e : List Byte) : Option ObjRel :=
  if leAt e 3 1 != 0 then none else some ⟨leAt e 0 2, leAt e 2 1, leAt e 4 4, leAt e 8 8, sextInt (leAt e 16 8) 64⟩

/-- The CSRs that a view record may name: VVIEW, TVIEW0 to TVIEW15 and AVIEW (R48, R56). -/
def viewCsr (n : Nat) : Bool := n == 0x100 || 0x110 ≤ n && n ≤ 0x11F || n == 0x120

/-- `n` view records from an offset of the file. -/
def readViews (bs : List Byte) : Nat → Nat → Option (List (Nat × Word))
  | _, 0 => some []
  | off, n + 1 => do
    let e := (bs.drop off).take 16
    if e.length != 16 || leAt e 2 6 != 0 || !viewCsr (leAt e 0 2) then none
    else
      let r ← readViews bs (off + 16) n
      if r.any (·.1 == leAt e 0 2) then none else some ((leAt e 0 2, BitVec.ofNat 64 (leAt e 8 8)) :: r)

/-- A kernel's entry: its reserved fields are 0, its view records name view registers, no register twice, and its bundles lie in the section of its entry symbol. -/
def readKernel (bs : List Byte) (sections : List ObjSect) (symbols : List ObjSym) (e : List Byte) : Option ObjKernel := do
  let y ← symbols[leAt e 0 4]?
  let t ← sections[y.sect]?
  let vs ← readViews bs (leAt e 16 8) (leAt e 4 2)
  if leAt e 6 2 != 0 || leAt e 12 4 != 0 || t.size < y.value.toNat + 16 * leAt e 8 4 then none
  else some ⟨leAt e 0 4, leAt e 8 4, vs⟩

/-- The tables of an object file, or the first entry that R56 refuses, in the order header, sections, symbols, relocations, kernels, entry by entry (DESIGN CHOICE, log entry 157: R56 gives no order). DESIGN CHOICE (log entry 157), unsafe. -/
def Obj.read (bs : List Byte) : Except ObjErr Obj := do
  if bs.length < 64 || bs.take 4 != [0x43, 0x47, 0x4F, 0x42] || leAt bs 4 2 != 1 || leAt bs 6 2 != 0 then .error (.entry .header 0)
  let sects ← readTable bs (leAt bs 24 8) 32 .sections (readSect bs) 0 (leAt bs 8 4)
  let syms ← readTable bs (leAt bs 32 8) 24 .symbols readSym 0 (leAt bs 12 4)
  let rels ← readTable bs (leAt bs 40 8) 24 .relocations readRel 0 (leAt bs 16 4)
  let kerns ← readTable bs (leAt bs 48 8) 24 .kernels (readKernel bs sects syms) 0 (leAt bs 20 4)
  return ⟨sects, syms, rels, kerns, bs.drop (leAt bs 56 8)⟩

/-- The bytes of a section before relocation: those of the file, or zeros for bss. Contents that run past the end of the file are refused before this (DESIGN CHOICE, log entry 157: R56 does not say). -/
def ObjSect.bytes (x : ObjSect) (bs : List Byte) : List Byte :=
  if x.kind = 3 then List.replicate x.size 0 else (bs.drop x.place).take x.size

/-! ## Relocation (R53, R54, R55) -/

/-- A symbol's final value: its offset moved to the address of its section, or, for an absolute symbol and a window handle, its value. `base` are the addresses that the
host gives the sections. DESIGN CHOICE, log entry 157. -/
def ObjSym.final (y : ObjSym) (base : List Nat) : Option Int :=
  if y.sect = 0xFFFF ∨ y.sect = 0xFFFD then some y.value.toInt
  else if y.sect = 0xFFFE then none
  else base[y.sect]?.map (fun b => (b : Int) + y.value.toNat)

/-- The low part of a value, Sext(V[14:0], 15), and the high part, which LIH takes (R54). -/
def splitLo (v : Int) : Int := sextInt (truncInt v 15) 15
def splitHi (v : Int) : Int := (v - splitLo v) / 2 ^ 15

/-- Whether `q` is the second half of the pair that `r` begins (R54). -/
def pairs (r q : ObjRel) : Bool :=
  r.kind == 5 && q.kind == 4 && q.sym == r.sym && q.addend == r.addend && q.sect == r.sect && r.off < q.off

/-- Whether a syllable zero-extends its immediate: ORI and XORI, in any slot (R24, R64). -/
def zeroExtends (w : Nat) : Bool := w / 2 ^ 31 == 0 && (w / 2 ^ 25 % 64 == 6 || w / 2 ^ 25 % 64 == 7)

/-- The number with its low `n` bits replaced by those of `v`. -/
def patchLow (w n : Nat) (v : Int) : Nat := w / 2 ^ n * 2 ^ n + truncInt v n

/-- A value within bounds, or nothing. -/
def within (v lo hi : Int) : Option Int := if lo ≤ v ∧ v ≤ hi then some v else none

/-- The bundle displacement of OFF15 and OFF20: a multiple of 16, divided by 16. -/
def bundles (v : Int) : Option Int := if v % 16 = 0 then some (v / 16) else none

/-- The bytes that a relocation puts in its place: `s` is S, `p` the address P, `old` the number that stands there; `handle` whether
the symbol is a window handle, `ends` and `begins` whether it ends or begins a pair. Nothing where a condition of R53 or R54 fails or the kind is reserved. -/
def ObjRel.patch (r : ObjRel) (handle ends begins : Bool) (s : Int) (p : Nat) (old : Nat) : Option (List Byte) :=
  let v := s + r.addend
  match r.kind with
  | 1 => some (leBytes 8 (truncInt v 64))
  | 2 => do
    let d ← within (← bundles (v - p)) (-16384) 16383
    return leBytes 4 (patchLow old 15 d)
  | 3 => do
    let d ← within (← bundles (v - p)) (-524288) 524287
    return leBytes 4 (patchLow old 20 d)
  | 4 => do
    let d := if ends then splitLo v else v
    let d ← if zeroExtends old then within d 0 32767 else within d (-16384) 16383
    return leBytes 4 (patchLow old 15 d)
  | 5 => do
    let d ← if begins then within (splitHi v) (-524288) 524287 else none
    return leBytes 4 (patchLow old 20 d)
  | 6 => do
    let s ← within s 0 0xFFFFFFFF
    let d ← within (s + r.addend) 0 0xFFFFFFFF
    return leBytes 4 d.toNat
  | 7 => do
    let d ← if handle && r.addend == 0 then within s 0 65535 else none
    return leBytes 2 d.toNat
  | _ => none

/-- The width of a relocation's place in bytes. -/
def ObjRel.width (r : ObjRel) : Nat := if r.kind = 1 then 8 else if r.kind = 7 then 2 else 4

/-- One relocation applied to the sections' bytes: `prev` and `next` stand before and after it in the table. -/
def Obj.relocate (o : Obj) (base : List Nat) (prev next : Option ObjRel) (r : ObjRel) (bytes : List (List Byte)) : Option (List (List Byte)) := do
  let x ← o.sections[r.sect]?
  let b ← base[r.sect]?
  let y ← o.symbols[r.sym]?
  let s ← y.final base
  let bs ← bytes[r.sect]?
  if x.kind = 3 ∨ bs.length < r.off + r.width then none
  else
    let p := if r.kind = 1 ∨ r.kind = 6 ∨ r.kind = 7 then b + r.off else (b + r.off) / 16 * 16
    let new ← r.patch (y.sect == 0xFFFD) (prev.any (pairs · r)) (next.any (pairs r)) s p (leAt bs r.off r.width)
    return bytes.set r.sect (bs.take r.off ++ (new ++ bs.drop (r.off + r.width)))

/-- The relocations in table order; the first that fails is reported (R55). -/
def Obj.relocateAll (o : Obj) (base : List Nat) : Option ObjRel → List ObjRel → List (List Byte) → Except ObjErr (List (List Byte))
  | _, [], bytes => .ok bytes
  | prev, r :: rest, bytes =>
    match o.relocate base prev rest.head? r bytes with
    | none => .error (.reloc r.sym r.sect r.off)
    | some bytes => o.relocateAll base (some r) rest bytes

/-! ## What is loaded -/

/-- A loaded object: the bytes of each section at its address; each kernel's name, entry address, length in bundles and view records; and the value of each global symbol by its name. -/
structure Loaded where
  sections : List (Nat × List Byte)
  kernels  : List (List Byte × Nat × Nat × List (Nat × Word))
  globals  : List (List Byte × Int)
  deriving DecidableEq, Repr

/-- An object loaded with its sections at the given addresses, or the first reason to refuse it whole: what R56 refuses is reported before what R55 does (DESIGN CHOICE, log entry 157). -/
def loadObject (bs : List Byte) (base : List Nat) : Except ObjErr Loaded := do
  let o ← Obj.read bs
  let bytes ← o.relocateAll base none o.rels (o.sections.map (·.bytes bs))
  return ⟨base.zip bytes, o.kernels.filterMap (fun k => do
    let y ← o.symbols[k.sym]?
    let a ← y.final base
    return (o.name y.name, a.toNat, k.len, k.views)),
    (o.symbols.filter (·.binding == 1)).filterMap (fun y => (y.final base).map (fun v => (o.name y.name, v)))⟩

end Sys2Proof.Machine
end

