-- ==== Sys2Proof/Machine/Yemas.lean ====
section
/-! DEFINITION. What the assembler yemas does with values (R40, R44, R45, R47): expressions, branch displacements, bundles, padding and data. The source text itself is left
out (DESIGN CHOICE, log entry 124). Nothing here acts on the machine; it is the other end of the object file of Machine/Loader.lean. -/

namespace Sys2Proof.Machine

/-! ## Expressions (R44) -/

/-- The operators with two operands. -/
inductive SrcOp where
  | or | xor | and | shl | shr | add | sub | mul | div | rem
  deriving DecidableEq, Repr

/-- An integer operand. -/
inductive SrcExpr where
  | lit (n : Nat)
  | sym (name : String)
  | neg (e : SrcExpr)
  | not (e : SrcExpr)
  | bin (op : SrcOp) (a b : SrcExpr)
  deriving DecidableEq, Repr

/-- A value: an exact integer, or a symbol that the loader will know, moved by a constant. -/
inductive SrcVal where
  | const (v : Int)
  | moved (name : String) (a : Int)
  deriving DecidableEq, Repr

/-- An integer that an expression may have: −2^63 to 2^64 − 1. -/
def srcRange (v : Int) : Option Int := within v (-9223372036854775808) 18446744073709551615

/-- A 64-bit pattern read as a signed value. -/
def srcSigned (n : Nat) : Int := sextInt n 64

/-- An operator on exact integers; nothing where R44 calls it an error. `/` truncates toward zero and `%` takes the sign of the dividend. -/
def SrcOp.apply (op : SrcOp) (a b : Int) : Option Int :=
  let x := truncInt a 64
  let y := truncInt b 64
  match op with
  | .or => some (srcSigned (x ||| y))
  | .xor => some (srcSigned (x ^^^ y))
  | .and => some (srcSigned (x &&& y))
  | .shl => if 0 ≤ b ∧ b ≤ 63 then some (srcSigned (x * 2 ^ b.toNat)) else none
  | .shr => if 0 ≤ b ∧ b ≤ 63 then some (srcSigned (x / 2 ^ b.toNat)) else none
  | .add => srcRange (a + b)
  | .sub => srcRange (a - b)
  | .mul => srcRange (a * b)
  | .div => if b = 0 then none else srcRange (a.tdiv b)
  | .rem => if b = 0 then none else srcRange (a.tmod b)

/-- The value of an expression whose symbols are all absolute: `abs` are the absolute symbols with their values. -/
def SrcExpr.eval (abs : List (String × Int)) : SrcExpr → Option Int
  | .lit n => srcRange n
  | .sym name => abs.lookup name
  | .neg e => do srcRange (-(← e.eval abs))
  | .not e => do return srcSigned (2 ^ 64 - 1 - truncInt (← e.eval abs) 64)
  | .bin op a b => do op.apply (← a.eval abs) (← b.eval abs)

/-- The value of an operand. One that names a symbol not fixed at assembly time is that symbol, the symbol plus a constant, or the symbol minus a constant, and nothing else. -/
def SrcExpr.value (abs : List (String × Int)) (e : SrcExpr) : Option SrcVal :=
  match e.eval abs with
  | some v => some (.const v)
  | none =>
    match e with
    | .sym name => if (abs.lookup name).isSome then none else some (.moved name 0)
    | .bin .add (.sym name) c => if (abs.lookup name).isSome then none else (c.eval abs).map (.moved name)
    | .bin .sub (.sym name) c => if (abs.lookup name).isSome then none else (c.eval abs).bind (fun v => (srcRange (-v)).map (.moved name))
    | _ => none

/-! ## Places and what goes into them (R44, R45, R47, R53) -/

/-- A place that an operand fills. -/
inductive SrcPlace where
  /-- `.byte`, `.half`, `.word` and `.dword` by their width in bytes -/
  | data (width : Nat)
  /-- a signed and a zero-extended imm15 -/
  | imm15 | zimm15
  /-- the imm20 of LIH, which is signed, and of LIX, which is not -/
  | imm20 | zimm20
  /-- the off15 of a branch and the off20 of JAL -/
  | off15 | off20
  deriving DecidableEq, Repr

/-- The least and the greatest value a place takes; data takes both the signed and the unsigned range of its width (R44, R47). -/
def SrcPlace.range : SrcPlace → Int × Int
  | .data n => (-(2 ^ (8 * n - 1) : Nat), (2 ^ (8 * n) : Nat) - 1)
  | .imm15 => (-16384, 16383)
  | .zimm15 => (0, 32767)
  | .imm20 => (-524288, 524287)
  | .zimm20 => (0, 1048575)
  | .off15 => (-16384, 16383)
  | .off20 => (-524288, 524287)

/-- The relocation that fills a place with a symbol, by its code in R53; a byte and LIX have none. DEDUCED, log entry 157. -/
def SrcPlace.rel : SrcPlace → Option Nat
  | .data 8 => some 1
  | .data 4 => some 6
  | .data 2 => some 7
  | .data _ => none
  | .imm15 => some 4
  | .zimm15 => some 4
  | .imm20 => some 5
  | .zimm20 => none
  | .off15 => some 2
  | .off20 => some 3

/-- What an operand puts in a place of the bundle at address `here`: the number, or the relocation's code, symbol and addend. A branch target is the address of a bundle; its
displacement is (target − here) / 16, and a target that is not 16-byte aligned is an error (R45). -/
def SrcPlace.fill (p : SrcPlace) (here : Int) : SrcVal → Option (Sum Int (Nat × String × Int))
  | .moved name a => p.rel.map (fun k => .inr (k, name, a))
  | .const v => do
    let v ← if p = .off15 ∨ p = .off20 then bundles (v - here) else some v
    (within v p.range.1 p.range.2).map .inl

/-- The bytes of a data directive's constant (R47): its low bytes, little-endian. -/
def dataBytes (width : Nat) (v : Int) : Option (List Byte) := (within v (SrcPlace.data width).range.1 (SrcPlace.data width).range.2).map (fun v => leBytes width (truncInt v (8 * width)))

/-- The bundle displacement of a label in the same section (R45). -/
def displacement (p : SrcPlace) (target here : Nat) : Option Int := do within (← bundles ((target : Int) - here)) p.range.1 p.range.2

/-! ## Bundles, padding and reals (R40, R47) -/

/-- The bytes of a bundle line: an omitted slot is NOP (R16, R17, R40). -/
def bundleLine (c l w s : Option Instr) : List Byte :=
  let syl (i : Option Instr) := sylBytes (i.elim 0 encodeSyl)
  syl c ++ (syl l ++ (syl w ++ syl s))

/-- The padding of `.align n` at an offset: zero bytes up to a multiple of n (R47). In text, where every bundle stands at a multiple of 16, it is NOP bundles. -/
def alignPad (n off : Nat) : List Byte := List.replicate ((n - off % n) % n) 0

/-- A decimal real, (−1)^neg · m · 10^e, rounded RN to the format of `.f32`, `.f16` or `.bf16` (R47). -/
def realBits (f : Fmt) (neg : Bool) (m : Nat) (e : Int) : Nat :=
  if m = 0 then f.withSign neg 0
  else if 0 ≤ e then (f.result .rn 0 (.val neg ⟨m * 10 ^ e.toNat, 0, false⟩)).1
  else
    let d := 10 ^ (-e).toNat
    let k := 256 + Nat.log2 d
    (f.result .rn 0 (.val neg ⟨m * 2 ^ k / d, -k, m * 2 ^ k % d != 0⟩)).1

end Sys2Proof.Machine
end

