-- ==== Sys2Proof/Tests/Slice0.lean ====
section
/-! SUPPORT. Tests of decoding against words written out from the encoding tables, of the checks of WellFormed, of single steps on small states, and for each statement states that
meet its hypotheses. -/

open Sys2Proof Sys2Proof.Machine

namespace Sys2Proof.Tests

set_option Elab.async false

/-- The machine after reset at a turn of thread 0 of tile `t`, with nothing on the agenda. -/
def at_ (t : Fin 130) (u : Turn) : State := { State.reset with run := { State.reset.run with agenda := [], cur := ⟨t, 0, u, 0⟩ } }
def onC : State := at_ 0 (.stream .c)
def onL : State := at_ 0 (.stream .l)
def onW : State := at_ 0 (.stream .w)
def onS : State := at_ 0 (.stream .s)
/-- A register of the acting C stream holds `v`. -/
def reg (s : State) (n : BitVec 5) (v : Word) : State := s.modThr (fun x => x.writeX s.slot n v)
def flow (s : State) (f : Flow → Flow) : State := s.modThr (fun x => { x with flow := f x.flow })
def csr (s : State) (f : UCsr → UCsr) : State := s.modThr (fun x => { x with csr := f x.csr })
def qs (s : State) (f : Queues → Queues) : State := s.modThr (fun x => { x with qs := f x.qs })
def eng (s : State) (f : Engine → Engine) : State := s.modThr (fun x => x.modEng s.slot f)

/-! ## States that meet the hypotheses of the statements -/

theorem meets_DecodeOfEncode : wf .c (.add 31 31 31) = true ∧ wf .s (.loopImm 0 256) = true ∧ wf .c (.loopImm 0x7FFF 1023) = true := by decide
theorem meets_EncodeOfDecode : decodeNat .w 0x32008009 = some (.loopImm 32 9) ∧ decodeNat .w 0xC7C003CD = some (.fwchunk 8 15 3) := by decide +kernel
theorem meets_ReservedOpcodes :
    (0x1A000000 : Syl).getLsbD 31 = false ∧ (0x1A000000 : Syl).toNat / 2 ^ 25 % 64 = 0x0D ∧ (0x64000000 : Syl).getLsbD 31 = false ∧ (0x64000000 : Syl).toNat / 2 ^ 25 % 64 = 0x32 ∧
    (0x7FFFFFFF : Syl).toNat / 2 ^ 25 % 64 = 0x3F ∧ (0x30000000 : Syl).toNat / 2 ^ 25 % 64 = 0x18 ∧ (0x30000000 : Syl).toNat / 2 ^ 5 % 2 ^ 10 = 0 ∧
    (0x32008000 : Syl).toNat / 2 ^ 25 % 64 = 0x19 ∧ (0x32008000 : Syl).toNat % 2 ^ 10 = 0 ∧ (0x98000000 : Syl).getLsbD 31 = true ∧ (0x98000000 : Syl).toNat / 2 ^ 25 % 64 = 0x0C ∧
    (0xEC000000 : Syl).toNat / 2 ^ 25 % 64 = 0x36 ∧ (0x80600000 : Syl).getLsbD 31 = true ∧ (0x80600000 : Syl).toNat / 2 ^ 21 % 64 = 3 ∧ (0x81C00000 : Syl).toNat / 2 ^ 21 % 64 = 0x0E ∧
    (0x81A00000 : Syl).toNat / 2 ^ 21 % 64 = 0x0D ∧ (0x85200000 : Syl).toNat / 2 ^ 21 % 64 = 0x29 := by decide
theorem meets_RegisterFields : (31 : BitVec 5) ≠ 0 ∧ (7 : BitVec 5).toNat < 8 ∧ 8 ≤ (8 : BitVec 5).toNat ∧ 12 ≤ (12 : BitVec 5).toNat ∧
    ∃ (x : Thread) (e : LoopEnt), (x.eng .l).loops = [e, e, e] ++ e :: [] ∧ (8 : BitVec 5).toNat = 8 + ([] : List LoopEnt).length ∧
      (x.eng .l).loops = [] ++ e :: [e, e, e] ∧ (11 : BitVec 5).toNat = 8 + [e, e, e].length :=
  ⟨by decide, by decide, by decide, by decide, { Thread.reset with eL := { Engine.empty with loops := List.replicate 4 ⟨0, 0, 1, 0⟩ } }, ⟨0, 0, 1, 0⟩, by decide +kernel⟩
theorem meets_ConditionalBranches : onC.slot = .c ∧ (onC.X 0 == onC.X 31) = true ∧ (onC.X 0 != onC.X 31) = false ∧ onL.slot ≠ .c := by decide +kernel
theorem meets_Jumps : onC.slot = .c ∧ (onC.X 0 + (16 : BitVec 15).signExtend 64).toNat % 16 = 0 ∧ (onC.X 0 + (15 : BitVec 15).signExtend 64).toNat % 16 ≠ 0 ∧
    onC.thr.awaits .c = false ∧ onS.slot ≠ .c := by decide +kernel

/-- A C stream with `n` loops, the innermost ending at byte `last`. -/
def looping (n : Nat) (last : Word) : State := flow onC (fun f => { f with loops := List.replicate n ⟨16, last, 2, 0⟩ })
theorem meets_ControlLoops : (looping 0 0).slot = .c ∧ (1 : BitVec 10) ≠ 0 ∧ (looping 0 0).thr.flow.loops.length ≠ 4 ∧
    ((looping 3 16).thr.flow.loops.length ≠ 4 ∧ ∀ e ∈ (looping 3 16).thr.flow.loops.head?, ((looping 3 16).thr.flow.pc + 16 * BitVec.ofNat 64 (1 : BitVec 10).toNat).toNat ≤ e.last.toNat) ∧
    (looping 4 16).thr.flow.loops.length = 4 ∧ (looping 4 16).thr.awaits .c = false ∧
    (∃ e ∈ (looping 3 0).thr.flow.loops.head?, ¬ ((looping 3 0).thr.flow.pc + 16 * BitVec.ofNat 64 (1 : BitVec 10).toNat).toNat ≤ e.last.toNat) ∧ (looping 3 0).thr.awaits .c = false ∧
    (0 : BitVec 15).zeroExtend 64 = (0 : Word) ∧ (0x7FFF : BitVec 15).zeroExtend 64 ≠ (0 : Word) ∧ onW.slot ≠ .c := by
  decide +kernel

/-- An engine with `n` loops, the innermost ending at replay place 4, about to execute place 1. -/
def engLooping (n : Nat) : State := eng onW (fun e => { e with loops := List.replicate n ⟨0, 4, 2, 0⟩, pos := 1 })
theorem meets_EngineLoops : (engLooping 0).slot ≠ .c ∧ 1 ≤ (256 : BitVec 10).toNat ∧ (256 : BitVec 10).toNat ≤ 256 ∧ ((engLooping 0).thr.eng (engLooping 0).slot).loops = [] ∧
    (let e := (engLooping 3).thr.eng (engLooping 3).slot
     e.loops = ⟨0, 4, 2, 0⟩ :: List.replicate 2 ⟨0, 4, 2, 0⟩ ∧ e.loops.length ≠ 4 ∧ e.pos + (3 : BitVec 10).toNat ≤ (4 : Word).toNat ∧ (4 : Word).toNat < e.pos + (4 : BitVec 10).toNat) ∧
    ((engLooping 4).thr.eng (engLooping 4).slot).loops.length = 4 ∧ (engLooping 4).thr.awaits (engLooping 4).slot = false ∧ (engLooping 3).thr.awaits (engLooping 3).slot = false := by
  decide +kernel
theorem meets_LoopEndTest : (⟨16, 32, 2, 0⟩ : LoopEnt).last = 32 ∧ 1 < (⟨16, 32, 2, 0⟩ : LoopEnt).remaining.toNat ∧ (⟨16, 32, 1, 0⟩ : LoopEnt).remaining.toNat ≤ 1 ∧
    (⟨16, 32, 1, 0⟩ : LoopEnt).last ≠ 48 := by decide

theorem own_spad_clean (off n : Nat) : onC.cleanOwn off n := by
  have h : onC.tile.spad.poison = [] := by decide +kernel
  intro u hu; rw [h] at hu; cases hu
/-- The last doubleword of the scratchpad, addressed through s1. -/
def atTop : State := reg onC 1 0x2FFFF8
theorem meets_ScalarLoads : atTop.slot = .c ∧ atTop.X 1 + (0 : BitVec 15).signExtend 64 = atTop.ownAddr 0x2FFFF8 ∧ 0x2FFFF8 % 8 = 0 ∧ 0x2FFFF8 + 8 ≤ 0x300000 ∧ atTop.tile.spad.poison = [] ∧
    ((atTop.setRes .done).loadAt 0x2FFFF8 8 true).isOk = true ∧ (atTop.X 1 + (1 : BitVec 15).signExtend 64).toNat % 2 ≠ 0 ∧ atTop.thr.awaits .c = false ∧ onL.slot ≠ .c := by
  decide +kernel
theorem meets_ScalarStores : atTop.tile.touchesLive 0x2FFFF8 8 = false ∧ ((atTop.setRes .done).storeAt 0x2FFFF8 (leBytes 8 7) true).isOk = true ∧
    (atTop.X 1 + (0 : BitVec 15).signExtend 64).toNat % 8 = 0 ∧ (atTop.X 1 + (4 : BitVec 15).signExtend 64).toNat % 8 ≠ 0 := by decide +kernel
/-- The same with a live barrier in the last granule. -/
def barTop : State := atTop.modTile (fun x => { x with tags := [0x2FFFF0] })
theorem meets_BarrierStoreViolation : barTop.slot = .c ∧ barTop.X 1 + (0 : BitVec 15).signExtend 64 = barTop.ownAddr 0x2FFFF8 ∧ barTop.tile.live 0x2FFFF8 = true ∧ barTop.thr.awaits .c = false := by
  decide +kernel
theorem meets_ScalarQueues : onC.slot = .c ∧ (qs onC ({ · with qcl := List.replicate 31 0 })).thr.qs.qcl.length < 32 ∧ 32 ≤ (qs onC ({ · with qcl := List.replicate 32 0 })).thr.qs.qcl.length ∧
    (qs onC ({ · with qlc := [7] })).thr.qs.qlc = [7] ∧ onC.thr.qs.qlc = [] ∧ onW.slot ≠ .c := by decide +kernel
/-- A firmware thread's C stream. -/
def onFw : State := at_ 128 (.stream .c)
theorem meets_CsrInstructions : onC.slot = .c ∧ (onC.csrRead onC.ct onC.ch 0x000).isSome = true ∧ onC.thr.enginesIdle = true ∧
    (onC.csrRead onC.ct onC.ch 0x7FF) = none ∧ onC.thr.awaits .c = false ∧ onC.isFw = false ∧ (onFw.csrRead onFw.ct onFw.ch 0x880).isSome = true ∧ onFw.slot = .c ∧ onFw.thr.enginesIdle = true ∧
    0x800 ≤ (0x800 : BitVec 12).toNat ∧ (0xBFF : BitVec 12).toNat < 0xC00 ∧ 0xC00 ≤ (0xC00 : BitVec 12).toNat := by decide +kernel
theorem meets_CsrInstructions_csrFree : Claims.csrFree onC 0 ∧ Claims.csrFree onFw 0x880 := ⟨.inr (.inr (.inr (by decide +kernel))), .inr (.inr (.inr (by decide +kernel)))⟩

/-- A thread with a handler. -/
def withTvec : State := csr onC ({ · with tvec := 0x1000 })
def inHandler : State := csr onC ({ · with tvec := 0x1000, tcause := 0x2000, tepc := 0x20 })
theorem meets_UserTrapEntry : withTvec.isFw = false ∧ withTvec.tile.twin = none ∧ withTvec.ctxs[Fin.ofNat 64 withTvec.tile.ctx].record.brkHalt = false ∧ withTvec.thr.crs = [] ∧
    withTvec.thr.csr.tvec ≠ 0 ∧ wbit withTvec.thr.csr.tcause 13 = false := by decide +kernel
def fwVec : State := { onFw with svc := onFw.svc.set 0 { Svc.reset with fwtvec := 0x1000 } }
theorem meets_FirmwareTrapEntry : fwVec.isFw = true ∧ fwVec.svc[Fin.ofNat 2 (fwVec.ct - 128)].fwtvec ≠ 0 ∧ wbit fwVec.thr.csr.fwcause 13 = false ∧
    onFw.isFw = true ∧ onFw.svc[Fin.ofNat 2 (onFw.ct - 128)].fwtvec = 0 ∧ wbit (csr fwVec ({ · with fwcause := 0x2000 })).thr.csr.fwcause 13 = true := by decide +kernel
def brkCtx : State := onC.updCtx 0 (fun c => { c with record := { c.record with brkHalt := true } })
theorem meets_TrapKillsOrHalts : onC.isFw = false ∧ onC.tile.twin = none ∧ brkCtx.ctxs[Fin.ofNat 64 brkCtx.tile.ctx].record.brkHalt = true ∧ brkCtx.isFw = false ∧ brkCtx.tile.twin = none ∧
    onC.ctxs[Fin.ofNat 64 onC.tile.ctx].record.brkHalt = false ∧ onC.thr.crs = [] ∧ onC.thr.csr.tvec = 0 ∧ wbit inHandler.thr.csr.tcause 13 = true ∧ inHandler.thr.crs = [] := by decide +kernel
theorem meets_TrapAndBreak : onC.slot = .c ∧ onC.thr.awaits .c = false ∧ onL.slot ≠ .c := by decide +kernel
theorem meets_ReturnFromTrap : inHandler.slot = .c ∧ inHandler.isFw = false ∧ wbit inHandler.thr.csr.tcause 13 = true ∧ wbit onC.thr.csr.tcause 13 = false ∧ onC.thr.awaits .c = false ∧
    (csr onFw ({ · with fwcause := 0x2000 })).isFw = true ∧ wbit (csr onFw ({ · with fwcause := 0x2000 })).thr.csr.fwcause 13 = true := by decide +kernel
/-- A running thread with an enabled user-level interrupt. -/
def uiDue : State := (flow onC ({ · with status := .running })).modThr (fun x => { x with csr := { x.csr with uivec := 0x1000, uicause := 1, uimask := 1 } })
def inUi : State := csr onC ({ · with uimask := 0x101 })
theorem meets_UserInterrupts : uiDue.thr.flow.status = .running ∧ uiDue.thr.uiPending = true ∧ uiDue.active = false ∧ uiDue.thr.committed = false ∧ uiDue.thr.flow.inWfi = false ∧
    (flow uiDue ({ · with inWfi := true })).thr.flow.inWfi = true ∧ (flow uiDue ({ · with inWfi := true })).thr.uiPending = true ∧ inUi.slot = .c ∧ wbit inUi.thr.csr.uimask 8 = true ∧
    wbit onC.thr.csr.uimask 8 = false ∧ onC.thr.awaits .c = false := by decide +kernel
def ending : State := flow onC ({ · with status := .running, exiting := true })
theorem meets_WaitAndExit : uiDue.wakePending uiDue.ct uiDue.ch = true ∧ uiDue.slot = .c ∧ onC.wakePending onC.ct onC.ch = false ∧
    (flow uiDue ({ · with inWfi := true })).wakePending uiDue.ct uiDue.ch = true ∧ onC.active = false ∧ inHandler.active = true ∧ inHandler.slot = .c ∧
    ending.thr.flow.status = .running ∧ ending.thr.drained = true ∧ onS.slot ≠ .c := by decide +kernel

theorem ok_of {ε α : Type} {x : Except ε α} {a : α} (h : x.toOption = some a) : x = .ok a := by
  cases x <;> simp_all [Except.toOption]
/-- An instruction's next state is there, by the statement that none stops. -/
def isNext (o : Host.Outcome State Fault Refusal) : Bool := match o with | .next _ => true | _ => false

/-- `ADDI s1, s0, 1` alone in a bundle (its word from R24 and R64), and `ADDI la1, la1, 1` at the head of the L queue. -/
def fetchC : State := State.reset.withFetchWord 32 0x08100001
def headL : State := eng (flow onL ({ · with status := .running })) (fun e => { e with q := [⟨0x08108001, none, 0, []⟩] })
theorem meets_StepRunsDecoded_C : fetchC.run.agenda = [] ∧ fetchC.edge.dead = false ∧ fetchC.run.cur.turn = .stream .c ∧ fetchC.thr.flow.status = .running ∧ fetchC.thr.flow.exiting = false ∧
    fetchC.controlWork = some .issueBundle ∧ (fetchC.fetch fetchC.ct fetchC.ch fetchC.thr.flow.pc).toOption = some (soloBundle 0x08100001) ∧
    reservedSlot fetchC.ct (syllables (soloBundle 0x08100001)) = none ∧ fetchC.thr.queueFull (syllables (soloBundle 0x08100001)) = false ∧
    fetchC.thr.captureFull (syllables (soloBundle 0x08100001)) = false ∧ decode .c (sylOf (syllables (soloBundle 0x08100001)) .c) = some (.addi 1 0 1) := by decide +kernel
theorem meets_StepRunsDecoded_engine : headL.run.agenda = [] ∧ headL.edge.dead = false ∧ headL.run.cur.turn = .stream .l ∧ headL.thr.flow.status = .running ∧ headL.active = false ∧
    headL.tile.halted = false ∧ headL.thr.lineWait .l = false ∧ (headL.thr.eng .l).skip = 0 ∧ (headL.thr.eng .l).head = some ⟨0x08108001, none, 0, []⟩ ∧
    decodeOn headL.ct .l 0x08108001 = some (.addi 1 1 1) ∧ isNext (exec (.addi 1 1 1) headL) = true := by decide +kernel
/-- The supply's event on a module without power. -/
def standby : State := { State.reset with edge := { Edge.reset with dead := true }, run := { State.reset.run with agenda := [⟨.powerOnReset, .none⟩] } }
theorem meets_StepRunsDecoded_event : State.reset.run.agenda = [⟨.bootRom, .none⟩] ∧ wfEvent ⟨.bootRom, .none⟩ = true ∧ State.reset.edge.dead = false ∧
    standby.run.agenda = [⟨.powerOnReset, .none⟩] ∧ wfEvent ⟨.powerOnReset, .none⟩ = true ∧ onStandby .powerOnReset = true := by decide +kernel
theorem meets_StepRunsDecoded_idle : onL.run.agenda = [] ∧ onL.edge.dead = false ∧ onL.ready.nextWork = none := by decide +kernel
theorem meets_EngineSyllableLeaves : headL.run.cur.turn = .stream .l ∧ (headL.setRes .done).run.res = .done ∧ (headL.setRes .held).run.res ≠ .done ∧ (headL.setRes .held).run.cur = headL.run.cur ∧
    (headL.thr.eng .l).q = ⟨0x08108001, none, 0, []⟩ :: [] ∧ (headL.thr.eng .l).pos = (headL.thr.eng .l).rb.length ∧
    ({ Engine.empty with rb := [⟨0, none, 0, []⟩] } : Engine).pos < ({ Engine.empty with rb := [⟨0, none, 0, []⟩] } : Engine).rb.length := by decide +kernel
theorem meets_BundleEnds : (onC.setRes .done).thr.seg.bad = 0 ∧ (onC.setRes .jumped).run.cur = onC.run.cur ∧ (onC.setRes .held).run.res = .held ∧ (onC.setRes .waitIssue).run.res = .waitIssue ∧
    onC.thr.flow.ctl = false ∧ onC.active = false ∧ sylOf [0, 0x08108001, 0, 0] .l ≠ 0 ∧ sylOf [0, 0x08108001, 0, 0] .w = 0 := by decide +kernel
def fullL : State := flow (onC.modThr (fun x => { x with eL := { Engine.empty with q := List.replicate 32 ⟨0x08108001, none, 0, []⟩ } })) id
theorem meets_ReservedBundleTraps : onC.thr.flow.ctl = false ∧ reservedSlot onC.ct [0xFFFFFFFF, 0, 0, 0] = some .c ∧ reservedSlot onC.ct [0, 0, 0, 0xFFFFFFFF] = some .s ∧ onC.thr.awaits onC.slot = false ∧
    reservedSlot fullL.ct [0, 0x08108001, 0, 0] = none ∧ fullL.thr.flow.ctl = false ∧ fullL.active = false ∧ fullL.thr.queueFull [0, 0x08108001, 0, 0] = true := by decide +kernel
theorem meets_StepGoesOn : State.reset.edge.dead = false ∧ (∀ e ∈ State.reset.run.agenda, wfEvent e = true) ∧ standby.run.agenda ≠ [] ∧ (∀ e ∈ standby.run.agenda, wfEvent e = true) ∧
    ({ standby with run := { standby.run with agenda := [] } } : State).run.agenda = [] ∧ standby.edge.dead = true := by decide +kernel
theorem meets_StepKeepsTurnOrder : fetchC.run.cur.tries ≤ 3 ∧ fetchC.run.cur.thread = fetchC.run.served[fetchC.run.cur.tile][fetchC.run.cur.turn.index] + 1 + Fin.ofNat 4 fetchC.run.cur.tries ∧
    isNext (step fetchC) = true ∧ isNext (step headL) = true := by decide +kernel
theorem meets_RoundRobin : onC.run.cur.turn ≠ .array ∧ onC.run.cur.tries < 3 ∧ ({ onC with run := { onC.run with cur := { onC.run.cur with tries := 3 } } } : State).run.cur.tries = 3 ∧
    (at_ 129 .shuffle).run.cur.turn ≠ .array := by decide +kernel

/-- A W stream with one token in every FIFO, three entries in qlw and one place left in qws. -/
def vecW : State := qs onW (fun q => { q with tok := (List.range 6).foldl (fun c f => tokSet c f 1) q.tok, qlw := [0, 0, 0], qws := List.replicate 15 (0, 0) })
theorem meets_VectorInteger : intBits 0 = some 8 ∧ intBits 7 = some 8 ∧ intBits 3 = some 64 ∧ vecW.vecCan 15 [15, 15, 15] (some 15) 1 ∧ onW.vecCan 0 [0, 14] (some 14) 1 := by
  unfold State.vecCan; decide +kernel
theorem meets_VectorFloat : (fltOf 4).isSome = true ∧ (fltOf 5).isSome = true ∧ (fltOf 6).isSome = true ∧ vecW.vecCan 15 [15, 15, 15] (some 15) 1 ∧ vecW.vecCan 15 [15] (some 15) 1 := by
  unfold State.vecCan; decide +kernel
theorem meets_VectorCompare : vecW.vecCan 15 [15, 15] none 0 ∧ intBits 1 = some 16 ∧ (fltOf 4).isSome = true := by unfold State.vecCan; decide +kernel
theorem meets_VectorMoves : vecW.vecCan 15 [15, 15] (some 15) 1 ∧ vecW.vecCan 15 [] (some 15) 1 ∧ intBits 2 = some 32 := by unfold State.vecCan; decide +kernel
theorem meets_IntegerReductions : intBits 7 = some 8 ∧ (7 : BitVec 4).toNat ≤ 7 ∧ vecW.vecCan 15 [15] (some 15) 1 ∧ 1 ≤ (1 : BitVec 4).toNat ∧ (9 : BitVec 4).toNat ≤ 9 := by
  unfold State.vecCan; decide +kernel
theorem meets_FloatReductions : ∃ g op op', fltOf 4 = some g ∧ fltRed g (0 : BitVec 4).toNat false = some op ∧ fltRed g (8 : BitVec 4).toNat true = some op' := ⟨_, _, _, rfl, rfl, rfl⟩
theorem meets_VectorConvert : (14 : BitVec 4) ≠ 15 ∧ (CFmt.ofCode 9).bits < (CFmt.ofCode 3).bits ∧ (15 : BitVec 4).toNat < (CFmt.ofCode 3).bits / (CFmt.ofCode 9).bits ∧
    (CFmt.ofCode 2).bits ≤ (CFmt.ofCode 4).bits ∧ vecW.vecCan 15 [15] (some 15) 1 := by unfold State.vecCan; decide +kernel
theorem meets_BlockFormats : vecW.vecCan 15 (pairOf 15) (some 15) 1 ∧ (qs vecW ({ · with qws := List.replicate 14 (0, 0) })).vecCan 15 [15] (some 15) 2 ∧ onW.vecCan 0 [13] (some 13) 2 := by
  unfold State.vecCan; decide +kernel
theorem meets_Predicates : vecW.vecCan 15 [] none 0 ∧ vecW.vecCan 15 [] (some 15) 1 ∧ vecW.vecCan 15 [15] none 0 ∧ (15 : BitVec 4) ≠ 0 := by unfold State.vecCan; decide +kernel

/-- An L stream whose la1 holds the last vector of the scratchpad, with the same address in qcl. -/
def vecL : State := reg (qs onL (fun q => { q with tok := (List.range 6).foldl (fun c f => tokSet c f 1) q.tok, qcl := [0x2FFE00], qlw := List.replicate 15 0, qlc := List.replicate 31 0 })) 1 0x2FFE00
theorem meets_VectorLoads : Claims.canStart vecL .l 15 ∧ Claims.vecAt vecL 1 0 (64 * (0 : BitVec 12).signExtend 64) 0x2FFE00 ∧ Claims.vecAt vecL 0 2 (64 * (0 : BitVec 12).signExtend 64) 0x2FFE00 ∧
    vecL.thr.qs.qlw.length < 16 ∧ vecL.thr.qs.qlc.length < 32 ∧ vecL.tile.spad.poison = [] ∧
    (((vecL.setRes .done).popTokens 15).loadRuns vecL.ct vecL.ch [(0x2FFE00, 512)] true).isOk = true ∧ vecL.thr.awaits .l = false ∧ (0x2FFE00 : Word) = vecL.ownAddr 0x2FFE00 ∧
    0x2FFE00 % 64 = 0 ∧ 0x2FFE00 + 512 ≤ 0x300000 ∧ (0x2FFE01 : Word).toNat % 64 ≠ 0 := by
  refine ⟨⟨by decide +kernel, by decide +kernel, by decide⟩, .inl ⟨by decide, by decide +kernel⟩, .inr ⟨rfl, 0x2FFE00, [], by decide +kernel, by decide⟩, ?_⟩
  decide +kernel
theorem meets_VectorLoads_held : 16 ≤ (qs vecL ({ · with qlw := List.replicate 16 0 })).thr.qs.qlw.length ∧ 32 ≤ (qs vecL ({ · with qlc := List.replicate 32 0 })).thr.qs.qlc.length ∧
    Claims.canStart (qs vecL ({ · with qlw := List.replicate 16 0, qlc := List.replicate 32 0 })) .l 15 := by
  refine ⟨by decide +kernel, by decide +kernel, by decide +kernel, by decide +kernel, by decide⟩
/-- Strided accesses from byte 0x2FFE00, 8 bytes apart, in the stream `sl`. -/
def strided (u : Turn) : State := (reg (reg (at_ 0 u) 1 0x2FFE00) 2 8)
theorem meets_StridedAccess : (∀ i < 64, (0x2FFE00 : Word) + wofNat i * (strided (.stream .l)).X 2 = (strided (.stream .l)).ownAddr (0x2FFE00 + 8 * i) ∧ (0x2FFE00 + 8 * i) % 8 = 0 ∧
      0x2FFE00 + 8 * i + 8 ≤ 0x300000) ∧ (strided (.stream .l)).tile.spad.poison = [] ∧ Claims.canStart (strided (.stream .l)) .l 0 ∧ Claims.vecAt (strided (.stream .l)) 1 0 0 0x2FFE00 ∧
    Claims.canStart (strided (.stream .s)) .s 0 ∧ (∀ i < 64, (strided (.stream .s)).tile.touchesLive (0x2FFE00 + 8 * i) 8 = false) ∧ ((strided (.stream .s)).storeSrc 0).isSome = true ∧
    ((0x2FFE01 : Word) + wofNat 0 * 8).toNat % 8 ≠ 0 ∧ (strided (.stream .l)).thr.awaits .l = false ∧ (strided (.stream .s)).thr.awaits .s = false := by
  refine ⟨by decide +kernel, by decide +kernel, ⟨by decide +kernel, by decide +kernel, by decide⟩, .inl ⟨by decide, by decide +kernel⟩, ⟨by decide +kernel, by decide +kernel, by decide⟩, ?_⟩
  decide +kernel
def vecS : State := reg (qs onS (fun q => { q with tok := (List.range 6).foldl (fun c f => tokSet c f 1) q.tok, qws := [(0, BitVec.allOnes 512)], qcl := [0x2FFE00] })) 1 0x2FFE00
theorem meets_VectorStores : Claims.canStart vecS .s 15 ∧ Claims.vecAt vecS 1 1 (64 * (0 : BitVec 12).signExtend 64) 0x2FFE00 ∧ vecS.storeSrc 15 = some (0, BitVec.allOnes 512) ∧
    (vecS.storeSrc 14).isSome = true ∧ onS.storeSrc 15 = none ∧ vecS.tile.touchesLive 0x2FFE00 512 = false ∧ (0x2FFE00 : Word) = vecS.ownAddr 0x2FFE00 ∧ vecS.thr.awaits .s = false := by
  refine ⟨⟨by decide +kernel, by decide +kernel, by decide⟩, .inl ⟨by decide, by decide +kernel⟩, ?_⟩
  decide +kernel

/-- A stream with la/sa registers d = 1 (destination), a = 2 (source), n = 3 (length) and b = 4 (barrier), and tokens. -/
def copying (u : Turn) (d a n b : Word) : State :=
  reg (reg (reg (reg (qs (at_ 0 u) (fun q => { q with tok := (List.range 6).foldl (fun c f => tokSet c f 1) q.tok, qcl := [0x2FFF00] })) 1 d) 2 a) 3 n) 4 b
def cpL : State := copying (.stream .l) 0x2FFF00 0x4000 0x100 (BitVec.allOnes 64)
def cpS : State := copying (.stream .s) 0x4000 0x2FFF00 0x100 (BitVec.allOnes 64)
/-- A local operand in the issuing tile's scratchpad and slot, for CPLOC. -/
def cpSS : State := copying (.stream .s) 0x2FFF00 0x0 0x100 (BitVec.allOnes 64)
theorem meets_CopyAcceptance : Claims.canStart cpL .l 15 ∧ Claims.copyAt cpL 2 0 0x4000 ∧ Claims.copyAt cpL 2 1 0x2FFF00 ∧ cpL.tile.hasEntry cpL.ch = true ∧ Claims.barOk (cpL.X 4) ∧
    Claims.plainLen (cpL.X 3) ∧ Claims.barOk 0x2FFFF0 ∧ Claims.plainLen 0x1000000 ∧ ¬ Claims.barOk 8 ∧ ¬ Claims.plainLen 0x1000001 ∧
    (cpL.localRange (cpL.X 1) 0x100 { window := true }).toOption = some 0x2FFF00 ∧ (cpL.barOperand (cpL.X 4)).toOption = some (BitVec.allOnes 64) ∧ cpL.thr.awaits .l = false ∧
    (cpL.localRange 0x2FFF01 0x100 { window := true }).isOk = false ∧ Claims.canStart cpS .s 15 ∧ cpS.tile.hasEntry cpS.ch = true ∧
    (cpS.localRange (cpS.X 2) 0x100 { window := true }).isOk = true ∧ (cpSS.localRange (cpSS.X 1) 0x100 { window := true, alias_ := true }).toOption = some 0x2FFF00 ∧
    (cpSS.cplocDst (cpSS.X 1) 0x2FFF00 0x100 false).isOk = true ∧ cpS.thr.awaits .s = false ∧ (0x1000001 : Word).toNat < 2 ^ 32 := by
  refine ⟨⟨by decide +kernel, by decide +kernel, by decide⟩, .inl ⟨rfl, by decide +kernel⟩, .inr ⟨rfl, [], by decide +kernel⟩, ?_⟩
  unfold Claims.canStart Claims.barOk Claims.plainLen
  decide +kernel
/-- Its tile's thread has taken every entry for commands. -/
def cpFull : State := cpL.modThr (fun x => { x with cmds := (List.range 1024).map (fun n => { cpL.newCmd .cpin 0 0 0 0 0 with id := n }) })
theorem meets_CopyAcceptance_held : cpFull.tile.hasEntry cpFull.ch = false ∧ Claims.canStart cpFull .l 15 ∧ onL.thr.qs.qcl = [] := by
  refine ⟨by decide +kernel, ⟨by decide +kernel, by decide +kernel, by decide⟩, by decide +kernel⟩
/-- A context whose window entry 0 (at 0x10000, on a page of its own tables at 0x20000) names tile 5 of module 1. -/
def peerWin : State :=
  let m := Memory.empty.writeN 0x10000 8 (1 + 1 * 2 ^ 20 + 0xF * 2 ^ 24 + 5 * 2 ^ 32)
  let m := (m.writeN 0x10008 8 0).writeN 0x10010 8 0x10000
  let s := { cpS with mems := { cpS.mems with hbm := ⟨m, []⟩ }, fab := { cpS.fab with ext := 2, dom := 1, id := 0x100000 } }
  s.updCtx 0 (fun c => { c with record := { c.record with wtCount := 1, wtBase := 0x10000 } })
theorem meets_CopyAcceptance_remote : peerWin.shadow peerWin.ct = false ∧
    ((peerWin.remoteCheck (peerWin.ctxOf peerWin.ct) ((0 : Word).toNat / 2 ^ 48) ((0 : Word).toNat % 2 ^ 48) 0x100 1 true).map (fun p => p.1.kind)) = some 1 := by decide +kernel
/-- A GATHER descriptor at byte 0x100 of the scratchpad, named by register 2 (R233). -/
def descS (u : Turn) : State :=
  (copying u 0x2FFF00 0x100 0x00000000FF0001 (BitVec.allOnes 64)).modTile (fun x =>
    { x with spad := { x.spad with mem := ((((x.spad.mem.writeN 0x100 8 0x8000).writeN 0x108 8 0x400).writeN 0x110 4 4).writeN 0x114 4 16).writeN 0x11C 2 2 } })
def blockL (n : Word) : State := copying (.stream .l) 0 0x4000 n (BitVec.allOnes 64)
theorem meets_BlockCommands : (blockL 0x0000010000FF0001).tile.hasEntry 0 = true ∧ Claims.canStart (blockL 0x0000010000FF0001) .l 15 ∧
    (let N : Word := 0x0000010000FF0001
     (0 : Word).toNat < 2 ^ 22 ∧ N.toNat / 2 ^ 24 % 2 ^ 8 ≤ 2 ∧ 1 ≤ N.toNat % 2 ^ 16 ∧ N.toNat % 2 ^ 16 ≤ 16384 ∧ 0 + (N.toNat / 2 ^ 16 % 2 ^ 8 + 1) ≤ (blockL N).tile.geom.cols.length) ∧
    (blockL 0x0000010000FF0001).tile.remapWaits = false ∧ (blockL 0x0000010000FF0001).thr.awaits .l = false ∧ ¬ (1 ≤ (blockL 0x0000010000FF0000).X 3 % 2 ^ 16) ∧
    ((blockL 0x0000010000FF0001).localRange 0x4000 (0 * 0x100 + 256) {}).toOption = some 0x4000 := by
  unfold Claims.canStart; decide +kernel
theorem meets_BlockCommands_gather : Claims.canStart (descS (.stream .l)) .l 15 ∧ (descS (.stream .l)).X 2 = 0x100 ∧ ((descS (.stream .l)).readDesc 0x100).isOk = true ∧
    ((descS (.stream .l)).localRange 0x2FFF00 (((((descS (.stream .l)).readDesc 0x100).toOption.map (fun d => d.2.getD 1 0 * d.2.getD 4 0)).getD 0)) {}).isOk = true ∧
    (descS (.stream .l)).ownValue 0x108 8 % 4 = 0 ∧ (descS (.stream .l)).ownValue 0x110 4 ≤ 2 ^ 20 ∧ 2 ≤ (descS (.stream .l)).ownValue 0x11C 2 ∧ (descS (.stream .l)).ownValue 0x11C 2 % 2 = 0 ∧
    (descS (.stream .l)).ownValue 0x11E 2 = 0 := by unfold Claims.canStart; decide +kernel
theorem meets_BlockCommands_scatter : (let s := reg (descS (.stream .s)) 1 0x100
    Claims.canStart s .s 15 ∧ (s.readDesc (s.X 1)).isOk = true ∧ (s.localRange (s.X 2) 8 {}).isOk = true) := by unfold Claims.canStart; decide +kernel
/-- A thread of the tile waits with MREMAP for a remap point. -/
def remapping : State := (blockL 0x0000010000FF0001).modTile (fun x => { x with th := x.th.set 1 { Thread.reset with flow := { Flow.reset with status := .running }, eW := { Engine.empty with q := [⟨encodeSyl (.mremap 0 0 0 0 0), none, 0, []⟩] } } })
theorem meets_BlockCommands_remap : remapping.tile.remapWaits = true := by decide +kernel

/-- A ring descriptor at byte 0x100: rows of 64 bytes, two slots, lookahead one, the barrier in the last granule (R214). -/
def ringDesc : State :=
  (copying (.stream .l) 0 0x100 0 0).modTile (fun x => { x with tags := [0x2FFFF0], spad := { x.spad with mem := ((((x.spad.mem.writeN 0x100 8 0x8000).writeN 0x108 8 64).writeN 0x114 4 0x2FFF00).writeN 0x118 4 0x2FFFF0).writeN 0x11C 4 0x00010000 } })
def ringOn (landed : Bool) : State :=
  ((copying (.stream .l) 0 0 0 0).modThr (fun x => { x with rings := x.rings.set 3 ⟨true, 0x8000, 64, 4, 0x2FFF00, 0x2FFFF0, 64, 2, 1, 0, 1, []⟩, cmds := if landed then [] else [{ cpL.newCmd .ringRow 0 0 0 0 64 with ring := 3 }] }))
theorem meets_RingsAndHints : Claims.canStart ringDesc .l 15 ∧ (ringDesc.readRing (ringDesc.X 2)).isOk = true ∧ ringDesc.thr.cmds.any (fun c => c.kind == .ringRow && c.ringNo == (0 : BitVec 2).toFin) = false ∧
    ringDesc.ownValue 0x118 4 = 0x2FFFF0 ∧ ringDesc.tile.live 0x2FFFF0 = true ∧ ringDesc.ownValue 0x114 4 % 64 = 0 ∧ ringDesc.ownValue 0x11E 1 + 1 = 2 ∧
    (ringOn true).thr.rings[(3 : BitVec 2).toFin].valid = true ∧ Claims.canStart (ringOn true) .l 15 ∧ (ringOn true).prog = [] ∧ 1 ≤ (1 : BitVec 10).toNat ∧ (ringOn true).thr.fetching (3 : BitVec 2).toFin 0 1 = false ∧
    (ringOn false).thr.fetching (3 : BitVec 2).toFin 0 1 = true ∧ (ringOn true).thr.rings[(0 : BitVec 2).toFin].valid = false ∧ (ringOn true).thr.awaits (ringOn true).slot = false := by
  unfold Claims.canStart; decide +kernel
theorem meets_RingsAndHints_busy : (ringOn false).thr.cmds.any (fun c => c.kind == .ringRow && c.ringNo == (3 : BitVec 2).toFin) = true := by decide +kernel
/-- Window 63 holds a line, or a posted flit. -/
def winS (line flit : Bool) : State := cpS.modThr (fun x => { x with win := x.win.set 63 { Window.reset with lines := if line then [⟨0, 1, 0, false, [], 0, ⟨0, 0, 0, 0⟩⟩] else [], flits := if flit then [⟨1, 0, 0, 0⟩] else [] } })
theorem meets_RingsAndHints_windows : Claims.canStart (winS false true) .s 15 ∧ (winS false true).prog = [] ∧ (winS true false).thr.win[(63 : BitVec 6).toFin].lines.isEmpty = false ∧
    (winS false true).thr.win[(63 : BitVec 6).toFin].lines.isEmpty = true ∧ (winS false true).thr.win[(63 : BitVec 6).toFin].flits.isEmpty = false ∧
    (winS false false).thr.win[(63 : BitVec 6).toFin].flits.isEmpty = true := by unfold Claims.canStart; decide +kernel

/-- A barrier in the last granule, with pending arrivals `arr` of `reload`, as a thread finds it that is registered there with TBREG15. -/
def barrier (arr : Nat) (arrived : Bool) (n : Bool := false) : State :=
  (reg onC 1 0x2FFFF0).modTile (fun x =>
    let y := x.setBar 0x2FFFF0 ⟨0, arr, n, false, false, 0, arr⟩
    { y with tags := [0x2FFFF0], th := y.th.set 0 { (y.th[0]) with csr := { (y.th[0]).csr with tbreg := (y.th[0]).csr.tbreg.set 15 (tbEntry 0x2FFFF0 n arrived 0) } } })
theorem meets_BarrierUpdate : (1 + 0 + 0 + 0 ≠ 0) ∧ ((barrier 1 false).tile.bar 0x2FFFF0).arr = 1 ∧ ((1 : Nat) + 2 ^ 20 - 1 % 2 ^ 20) % 2 ^ 20 = 0 ∧ ((barrier 1 false).tile.bar 0x2FFFF0).sec = 0 ∧
    ((barrier 2 false).tile.bar 0x2FFFF0).arr = 2 ∧ ((barrier 1 false true).tile.bar 0x2FFFF0).notify = true ∧ ((barrier 1 false true).tile.th[(0 : Fin 4)]).tbFind 0x2FFFF0 = some 15 ∧
    tbNotify (((barrier 1 false true).tile.th[(0 : Fin 4)]).csr.tbreg[(15 : Fin 16)]) = true := by decide +kernel
theorem meets_BarrierInstructions : (barrier 1 false).slot = .c ∧ (barrier 1 false).X 1 = (barrier 1 false).ownAddr 0x2FFFF0 ∧ 0x2FFFF0 + 16 ≤ 0x300000 ∧ (barrier 1 false).thr.awaits .c = false ∧
    0x2FFFF0 % 16 = 0 ∧ (reg onC 1 0x2FFFF0).thr.tbFree = some 0 ∧ (reg onC 1 0x2FFFF0).tile.live 0x2FFFF0 = false ∧ (reg onC 1 0x2FFFF0).thr.tbFind 0x2FFFF0 = none ∧
    (barrier 1 false).tile.live 0x2FFFF0 = true ∧ (barrier 1 false).thr.tbFind 0x2FFFF0 = some 15 ∧ (0x7FFFFFFFFF : Word).toNat < 2 ^ 39 ∧ ((barrier 1 false).tile.bar 0x2FFFF0).tooMany 0x7FFFFFFFFF = false ∧
    tbArrived ((barrier 1 false).thr.csr.tbreg[(15 : Fin 16)]) = false ∧ tbArrived ((barrier 1 true).thr.csr.tbreg[(15 : Fin 16)]) = true ∧ tbPhase ((barrier 1 true).thr.csr.tbreg[(15 : Fin 16)]) = ((barrier 1 true).tile.bar 0x2FFFF0).phase ∧
    ((barrier 0 false).tile.bar 0x2FFFF0).arr = 0 ∧ ((barrier 1 false).tile.bar 0x2FFFF0).phase ≠ (1 : Word).toNat % 16 ∧ ((barrier 1 false).tile.bar 0x2FFFF0).phase = (16 : Word).toNat % 16 ∧
    (reg onC 1 0x2FFFF1).X 1 = onC.ownAddr 0x2FFFEF + 2 := by decide +kernel
/-- A thread with all sixteen registrations taken, and a joinable barrier of another thread. -/
def joinable : State := (reg onC 1 0x2FFFF0).modTile (fun x => { x with tags := [0x2FFFF0] })
theorem meets_BarrierInstructions_join : joinable.tile.live 0x2FFFF0 = true ∧ joinable.thr.tbFree = some 0 ∧ joinable.thr.tbFind 0x2FFFF0 = none ∧
    (csr joinable ({ · with tbreg := vrep 16 (tbEntry 0 false false 0) })).thr.tbFree = none ∧ (reg onC 1 0x2FFFE8).X 1 = onC.ownAddr 0x2FFFE8 ∧ 0x2FFFE8 % 16 ≠ 0 ∧ 0x2FFFE8 + 16 ≤ 0x300000 := by
  decide +kernel

/-- Addresses of a 32-bit atom: the last of a synchronisation SRAM, and one of HBM. -/
def amAt (a : Word) : State := reg onC 1 a
theorem meets_Atomics : (amAt 0xF07FFFFC).slot = .c ∧ ((amAt 0xF07FFFFC).resolve 0 0 0xF07FFFFC 4 .atomic).toOption = some [⟨.sync 0 0x7FFFFC, 0xF07FFFFC, 4⟩] ∧
    (amAt 0x100000000).thr.enginesIdle = true ∧ (amAt 0x100000000).shadow 0 = false ∧ (0x100000000 : Word).toNat % 4 = 0 ∧
    ((amAt 0x100000000).resolve 0 0 0x100000000 4 .atomic).toOption = some [⟨.mem 0x100000000 0, 0x100000000, 4⟩] ∧
    (let y := ((amAt 0x100000000).evictOwn 0 0x100000000 4).markStale 0 0 ⟨.mem 0x100000000 0, 0x100000000, 4⟩; y.needAsk 0x100000000 4 = none ∧ y.hbmPoison 0x100000000 4 = []) ∧ (0x100000002 : Word).toNat % 4 ≠ 0 ∧ onC.thr.awaits .c = false ∧
    fullL.thr.enginesIdle = false ∧ fullL.active = false ∧ fullL.thr.flow.ctl = false ∧ (2 : BitVec 2).getLsbD 1 = true := by decide +kernel
/-- A remote atomic before and after its answer. -/
def peerWinC (r : List Remote) : State := { peerWin with run := onC.run }.modThr (fun x => { x with remotes := r })
theorem meets_Atomics_remote : ((peerWinC []).remoteCheck 0 0 0 4 2 false).isSome = true ∧ ((peerWinC []).remoteCheck 0 0 0 4 2 false).map (fun p => p.1.kind) = some 1 ∧
    (peerWinC []).shadow (peerWinC []).ct = false ∧ (peerWinC []).thr.remotes.find? (fun r => r.stream == .c) = none ∧
    (peerWinC [⟨1, .c, 0, .word 0 7 0, []⟩]).thr.remotes.find? (fun r => r.stream == .c) = some ⟨1, .c, 0, .word 0 7 0, []⟩ := by decide +kernel
theorem meets_Fences : onC.thr.enginesIdle = true ∧ fullL.active = false ∧ fullL.thr.flow.ctl = false ∧ fullL.thr.enginesIdle = false ∧ onC.thr.pathDone (5 : BitVec 3).toNat = true ∧
    (ringOn false).thr.pathDone (1 : BitVec 3).toNat = false ∧ (ringOn true).thr.pathDone (1 : BitVec 3).toNat = true ∧ (onC.modThr (fun x => { x with cmds := [cpL.newCmd .cpin 0 0 0 0 64] })).thr.pathDone (1 : BitVec 3).toNat = false ∧
    ((winS true false).thr.win[(63 : Fin 64)]).lines.isEmpty = false ∧ (2 : BitVec 3).toNat = 2 ∧ (129 < 130) ∧ (∀ a ∈ (onC.tileAt 0).l1.dirty, a / 256 ∈ (onC.tileAt 0).l1.blocks) := by decide +kernel
/-- A tile whose domain of scope 6 is set, or a thread held in PHASE. -/
def phased (h : Held) : State := (flow onC ({ · with held := h })).modTile (fun x => { x with domid := x.domid.set 4 0x8000000000000000 })
theorem meets_PhaseInstruction : (phased (.phase 6 1)).thr.flow.held = .phase 6 1 ∧ ((phased (.phase 6 1)).phaseOf 0 6).count ≠ 1 ∧ ((phased (.phase 6 0)).phaseOf 0 6).count = 0 ∧
    (phased .no).thr.flow.held = .no ∧ inHandler.active = true ∧ inHandler.thr.awaits inHandler.slot = false ∧ (phased .no).active = false ∧ wbit ((phased .no).tile.domid[Fin.ofNat 5 (6 - 2)]) 63 = true ∧
    wbit ((phased .no).tile.domid[Fin.ofNat 5 (2 - 2)]) 63 = false ∧ (phased .no).thr.enginesIdle = true ∧ (∀ i : Fin 64, ((phased .no).thr.win[i]).lines.isEmpty = true ∧ ((phased .no).thr.win[i]).flits.isEmpty = true) := by
  decide +kernel

/-- A thread with an open segment that has nothing of its budget left, and one with `n` open regions. -/
def segOpen : State := onC.modThr (fun x => { x with seg := ⟨true, 3, 0, 0, true, 0, 1, [], false⟩ })
def regions (n : Nat) : State := onC.modThr (fun x => { x with crs := List.replicate n ⟨0x1000, 0, 0, false, 0⟩ })
theorem meets_SegmentsAndRegions : segOpen.thr.seg.isOpen = true ∧ segOpen.thr.seg.budget = true ∧ segOpen.thr.seg.left = 0 ∧ segOpen.thr.awaits segOpen.slot = false ∧ onC.thr.seg.isOpen = false ∧
    segOpen.thr.enginesIdle = true ∧ (reg onC 1 0xFFFFFFFFFF).X 1 = 0xFFFFFFFFFF ∧ ((0xFFFFFFFFFF : Word).toNat < 2 ^ 40) ∧ (2 ^ 40 ≤ (0x10000000000 : Word).toNat) ∧ (regions 3).thr.crs.length < 4 ∧
    4 ≤ (regions 4).thr.crs.length ∧ onC.thr.crs = [] ∧ (regions 3).thr.enginesIdle = true ∧ (0x10 : Word).toNat % 16 = 0 ∧ (0x18 : Word).toNat % 16 ≠ 0 ∧
    (regions 1).thr.regionBusy ⟨0x1000, 0, 0, false, 0⟩ = false ∧ ((regions 1).modThr (fun x => { x with cmds := [cpL.newCmd .cpin 0 0 0 0 64] })).thr.regionBusy ⟨0x1000, 0, 0, false, 0⟩ = true ∧
    fullL.active = false ∧ fullL.thr.flow.ctl = false ∧ fullL.thr.enginesIdle = false ∧ fullL.thr.seg.isOpen = false ∧ fullL.thr.crs.length < 4 := by decide +kernel

/-- A shuffle program of thread 0 at byte 0x2FFFE0, the last step of the scratchpad, whose bytes are `b`. -/
def shuffling (b : List Byte) (step : Nat) : State :=
  (onC.modThr (fun x => { x with progs := [⟨0, 0x2FFFE0 - 32 * step, BitVec.allOnes 64, 0, step, 0, false⟩] })).modTile (fun x => { x with spad := { x.spad with mem := x.spad.mem.write 0x2FFFE0 b } })
/-- TRANSPOSE of one byte from 0x100 to 0x2FF000 (R241). -/
def oneByte : List Byte := leBytes 8 (1 + 0x100 * 2 ^ 32) ++ leBytes 8 (0x2FF000 + 1 * 2 ^ 32) ++ leBytes 8 (1 + 1 * 2 ^ 32) ++ leBytes 8 1
theorem meets_ShuffleEngine : (reg (reg onC 1 0x2FFFE0) 2 (BitVec.allOnes 64)).X 1 = onC.ownAddr 0x2FFFE0 ∧ 0x2FFFE0 % 16 = 0 ∧ 0x2FFFE0 + 32 ≤ 0x300000 ∧
    ((reg onC 2 (BitVec.allOnes 64)).barOperand ((reg onC 2 (BitVec.allOnes 64)).X 2)).toOption = some (BitVec.allOnes 64) ∧ ((barrier 1 false).barOperand 0x2FFFF0).toOption = some (barAt 0 0x2FFFF0) ∧
    onC.thr.progs.length < 8 ∧ 8 ≤ (onC.modThr (fun x => { x with progs := List.replicate 8 ⟨0, 0, 0, 0, 0, 0, false⟩ })).thr.progs.length ∧ onL.slot ≠ .c ∧ (8 : Word) ≠ BitVec.allOnes 64 ∧ (8 : Word).toNat % 16 ≠ 0 ∧
    (let s := shuffling oneByte 63
     let x := ShufStep.ofBytes (s.tile.spad.mem.read 0x2FFFE0 32) 0
     (63 < 64 ∧ x.legal = true ∧ x.op = 1 ∧ x.fmt = 0 ∧ x.rows = 1 ∧ x.cols = 1 ∧ (s.shufRun s.ct s.ch x).isSome = true ∧ s.shufRange s.ct s.ch x.src 1 = some (true, 0x100) ∧
       s.shufRange s.ct s.ch x.dst 1 = some (true, 0x2FF000) ∧ s.tile.live 0x2FF000 = false)) ∧
    (ShufStep.ofBytes ((shuffling [] 0).tile.spad.mem.read 0x2FFFE0 32) 0).op = 0 ∧ (ShufStep.ofBytes ((shuffling [] 0).tile.spad.mem.read 0x2FFFE0 32) 0).legal = true ∧
    (ShufStep.ofBytes ((shuffling [4] 0).tile.spad.mem.read 0x2FFFE0 32) 0).legal = false := by decide +kernel

/-- A thread of the group's context 1, with the group in state `st` and the thread held in `h`. -/
def rounds (st : GState) (h : Held) (unrep : Bool := false) : State :=
  let s := (flow onC ({ · with held := h })).modTile (fun x => { x with ctx := 1 })
  { s with grp := { s.grp with st := st, cfg := wofNat (4 * 2 ^ 16 + 2 ^ 24 + 2 ^ 29 + 2 ^ 31), round := 5, unrep := unrep, log := 0x100 } }
theorem meets_RoundInstructions : (rounds .opened .no).ourThread = true ∧ onC.ourThread = false ∧ (rounds .none .no).grp.st = .none ∧ (rounds .lost .no).grp.st = .lost ∧ (rounds .opened .no true).grp.unrep = true ∧
    (rounds .recovering .no).grp.st = .recovering ∧ (rounds .recovering .no).grp.unrep = false ∧ (rounds .voted (.prep 5)).thr.flow.held = .prep (rounds .voted (.prep 5)).grp.round ∧
    (rounds .preparing (.prep 5)).grp.st = .preparing ∧ (rounds .opened .no).thr.enginesIdle = true ∧ (rounds .opened .no).tile.l1.dirty = [] ∧
    ({ (rounds .opened .no).grp with unacked := [(0, ⟨1, 0, 5, 0⟩)] } : Group).unacked.isEmpty = false ∧ (rounds .applying .no).grp.st = .applying ∧ (rounds .applying .no).ourThread = true ∧
    (rounds .opened (.decide 4)).thr.flow.held = .decide 4 ∧ (rounds .opened (.decide 4)).grp.round ≠ 4 := by decide +kernel

/-- `PROT` operands: a base and a specifier (R402): one page at image offset 0. -/
def protS (st : GState) (base spec : Word) : State := reg (reg (rounds st .no) 1 base) 2 spec
/-- The context's own tables map the first 64 KiB: four levels of one entry each (R365), the leaf at 0x40000 of type WB with every right. -/
def mapped (s : State) : State :=
  let m := (List.range 3).foldl (fun (m : Memory) i => m.writeN (0x10000 * (i + 1)) 8 (1 + 0x10000 * (i + 2))) Memory.empty
  let m := m.writeN 0x40000 8 (1 + 2 + 4 + 8 + 16)
  ({ s with mems := { s.mems with hbm := ⟨m, []⟩ } }).updCtx 1 (fun c => { c with record := { c.record with ptroot := 0x10000 } })
theorem meets_ProtectedRegions : (protS .opened 0 1).ourThread = true ∧ (protS .opened 0 1).grp.st ≠ .none ∧ (protS .opened 0 1).grp.st ≠ .lost ∧ onC.ourThread = false ∧ onC.thr.awaits onC.slot = false ∧
    (0x8000 : Word).toNat % 0x10000 ≠ 0 ∧ (1 : Word).toNat % 2 ^ 23 * 2 ^ 16 ≠ 0 ∧ (0 : Word).toNat % 2 ^ 23 * 2 ^ 16 = 0 ∧ (1 : Word).toNat < 2 ^ 46 ∧
    ({ (protS .opened 0 1).grp with regions := [⟨63, 0, [], 1, false, false⟩] } : Group).regions.find? (fun r => r.index == (63 : BitVec 6).toNat) = some ⟨63, 0, [], 1, false, false⟩ ∧
    (protS .voted 0 1).ourThread = true ∧ (protS .voted 0 1).grp.st ≠ .opened := by decide +kernel
theorem meets_ProtectedRegions_pages : ((mapped (protS .opened 0 1)).regionPages 0 0 1).toOption = some [(0, 0)] := by decide +kernel

/-- Reduction slot 255, its tree entry at 0x1000 + 8 · 255 in HBM (R394): up port 0, no child, local. -/
def slotS (x : RSlot) (tree : Nat) (b : Word) : State :=
  let s := reg (reg onC 1 255) 2 b
  { s with fab := { s.fab with rtree := 0x1000, rslots := s.fab.rslots.set 255 x, rquota := vrep 8 (BitVec.allOnes 64) },
           mems := { s.mems with hbm := ⟨s.mems.hbm.mem.writeN (0x1000 + 8 * 255) 8 tree, []⟩ } }
def treeUp : Nat := 2 ^ 30
def heldS (st : RState) (own : Option Contribution) (r : Option Contribution) (tree : Nat) : State :=
  slotS { RSlot.free with holder := some 0, cfg := 0x10000, tree := wofNat tree, st := st, own := own, result := r } tree 0x2FFFC0
def part : Contribution := { slot := 255, epoch := 0, key := 0, data := [1, 2, 3, 4], nanSeen := false, isPart := false, late := false, failed := false }
theorem meets_ReductionInstructions_RSLOT : (reg onC 1 256).X 1 = 256 ∧ badConfig 0x10000 = false ∧ badConfig 0x8000000000000000 = true ∧ (0 : Nat).testBit 30 = false ∧
    (slotS RSlot.free treeUp 0).hbmNat (wbits (slotS RSlot.free treeUp 0).fab.rtree 12 45 * 0x1000 + 8 * 255) 8 = treeUp ∧ treeUp.testBit 30 = true ∧
    (slotS RSlot.free treeUp 0).X 1 = 255 ∧ ((slotS RSlot.free treeUp 0).rslotAt 255).holder = none ∧ (slotS RSlot.free treeUp 0).slotsHeld 0 < (slotS RSlot.free treeUp 0).quota 0 ∧
    ((slotS RSlot.free treeUp 0).rslotAt 255).kept = [] ∧ ({ slotS RSlot.free treeUp 0 with fab := { (slotS RSlot.free treeUp 0).fab with rquota := vrep 8 0 } } : State).quota 0 ≤ 0 ∧
    ((heldS .idle none none treeUp).rslotAt 255).holder = some 0 ∧ ((heldS .opened none none treeUp).rslotAt 255).st ≠ .idle ∧ (slotS RSlot.free treeUp 0).thr.awaits .c = false := by decide +kernel
theorem meets_ReductionInstructions : (heldS .idle none none treeUp).heldSlot 255 = true ∧ onC.heldSlot 255 = false ∧ (0x2FFFC0 : Word).toNat % 4 = 0 ∧ (0x2FFFC2 : Word).toNat % 4 ≠ 0 ∧
    (heldS .idle none none treeUp).X 2 = (heldS .idle none none treeUp).ownAddr 0x2FFFC0 ∧ 0x2FFFC0 + 64 ≤ 0x300000 ∧ (heldS .idle none none treeUp).tile.spad.poison = [] ∧
    ((heldS .opened none none treeUp).rslotAt 255).st = .opened ∧ ((heldS .opened none none treeUp).fab.now < ((heldS .opened none none treeUp).rslotAt 255).first + cfgDeadline 0x10000) ∧
    ((heldS .idle (some part) none treeUp).rslotAt 255).own.isSome = true ∧ ((heldS .done none (some part) treeUp).rslotAt 255).st = .done ∧
    ((heldS .done none (some part) treeUp).rslotAt 255).result = some part ∧ part.failed = false ∧ 1 ≤ part.data.length ∧ (heldS .done none (some part) treeUp).tile.touchesLive 0x2FFFC0 4 = false ∧
    ((heldS .done none (some part) treeUp).rslotAt 255).later = [] ∧ { part with failed := true }.failed = true ∧ ((heldS .idle none none treeUp).rslotAt 255).st ≠ .done := by decide +kernel
theorem meets_ReductionInstructions_tree : ∃ tree : Nat, treeLocal (wofNat tree) = true ∧ (treeChildren (wofNat tree)).any (fun p => !([] : List (Nat × Contribution)).any (fun k => k.1 == p)) = true ∧
    cfgSkip 0x10000 = false ∧ treeLocal (wofNat 0) = false := ⟨2 ^ 30 + 2 ^ 24 + 1, by decide +kernel⟩

/-- A handle of a window-table entry of KIND 1 (0) or 2 (1), both of module 1 (R216); the parcel for LAUNCH stands at byte 0x2FFF80. -/
def handles (h : Word) : State :=
  let m := [1, 2].foldl (fun (m : Memory) k => ((m.writeN (0x10000 + 32 * (k - 1)) 8 (1 + k * 2 ^ 20 + 0xF * 2 ^ 24 + 5 * 2 ^ 32)).writeN (0x10010 + 32 * (k - 1)) 8 0x10000)) Memory.empty
  let s := reg (reg onC 1 h) 2 0x2FFF80
  ({ s with mems := { s.mems with hbm := ⟨m, []⟩ }, fab := { s.fab with ext := 2, dom := 1, id := 0x100000 } }).updCtx 0 (fun c => { c with record := { c.record with wtCount := 2, wtBase := 0x10000 } })
theorem meets_WindowsAndLaunch : (handles 1).thr.enginesIdle = true ∧ ((handles 1).thr.win[(63 : BitVec 6).toFin]).lines.isEmpty = true ∧ ((handles 1).thr.win[(63 : BitVec 6).toFin]).flits.isEmpty = true ∧
    (handles 1).thr.remotes = [] ∧ ((handles 1).winEntry 0 (((handles 1).X 1).toNat % 2 ^ 16)).map (·.kind) = some 2 ∧ ((handles 0).winEntry 0 0).map (·.kind) = some 1 ∧ (handles 2).winEntry 0 2 = none ∧
    (handles 1).thr.awaits .c = false ∧ fullL.thr.enginesIdle = false ∧ ((winS true false).thr.win[(63 : BitVec 6).toFin]).lines.isEmpty = false ∧ ((winS false true).thr.win[(63 : BitVec 6).toFin]).flits.isEmpty = false ∧
    (handles 0).thr.flow.held ≠ .launch ∧ (handles 0x3FF0000).X 1 = 0x3FF0000 ∧ (0x3FF0000 : Word).toNat < 2 ^ 26 ∧ 2 ^ 26 ≤ (0x4000000 : Word).toNat ∧ (handles 0x3FF0000).shadow 0 = false ∧
    ((handles 0x3FF0000).remoteCheck 0 0 0 0 3 true).map (fun p => p.1.kind) = some 1 ∧ (handles 2).remoteCheck 0 2 0 0 3 true = none ∧ (∀ i : Fin 64, ((handles 0).thr.win[i]).lines.isEmpty = true ∧
      ((handles 0).thr.win[i]).flits.isEmpty = true) ∧ (handles 0).X 2 = (handles 0).ownAddr 0x2FFF80 ∧ 0x2FFF80 % 8 = 0 ∧ 0x2FFF80 + 120 ≤ 0x300000 ∧ (handles 0).tile.spad.poison = [] := by decide +kernel
def launched (r : List Remote) : State := (flow onC ({ · with held := .launch })).modThr (fun x => { x with remotes := r })
theorem meets_WindowsAndLaunch_answers : (launched []).thr.flow.held = .launch ∧ (launched [⟨1, .c, 0, .waiting, []⟩]).myAnswer = .waiting ∧ (launched [⟨1, .c, 0, .word 3 7 0, []⟩]).myAnswer = .word 3 7 0 ∧
    (launched [⟨1, .c, 0, .failed, []⟩]).myAnswer = .failed := by decide +kernel

/-- A W stream whose tile holds the blocks 62 and 63, owned by the acting thread or pinned; AVIEW with rows of 256 bytes from 0. -/
def blocks (pin : Bool) (st : BState := .owned) : State :=
  (reg (csr vecW ({ · with aview := wofNat (4 * 2 ^ 17) })) 1 0x40).modTile (fun x =>
    (x.setEnt 62 { OwnEnt.free with st := st, pin := pin }).setEnt 63 { OwnEnt.free with st := st, pin := pin })
theorem meets_AccumulatorInstructions : (vecW.slot = .w ∧ tokReady vecW.thr.qs.tok .w 15 = true ∧ vecW.prog = [] ∧ vecW.arrayFree = true ∧ vecW.noArray = false ∧ (at_ 128 (.stream .w)).noArray = true) ∧
    (∀ L ∈ Claims.run 62 1, (blocks false).tile.geom.inside L = true ∧ ((blocks false).tile.ent L).resident = true ∧ ((blocks false).tile.ent L).ctx.toNat = (blocks false).tile.ctx ∧
      ((blocks false).tile.ent L).thread.toNat = (blocks false).ch) ∧ (blocks false).arrayFree = true ∧ ((blocks false).X 1).toNat % 64 = 0 ∧ (0x41 : Word).toNat % 64 ≠ 0 ∧
    (blocks false).thr.awaits .w = false ∧ avCvt (blocks false).thr.csr.aview = 0 ∧ 256 ≤ avPitch (blocks false).thr.csr.aview ∧
    avBase (blocks false).thr.csr.aview + 63 * avPitch (blocks false).thr.csr.aview + 256 ≤ 0x20000 := by decide +kernel
/-- A nest of one pass of k = 1 in INT8 over block 63 (R294, R303): the tables of zeros, X(1) with the block at bits 46 to 51. -/
def nesting : State := reg (blocks false) 1 (wofNat (63 * 2 ^ 46))
theorem meets_MatrixInstructions : fmtPair (tvFmt nesting.thr.csr.tview[15]) nesting.capture.bfmt = true ∧ fmtPair (tvFmt (wofNat (4 * 2 ^ 36))) nesting.capture.bfmt = false ∧
    (let runs := nestRuns nesting.capture (nesting.X 1) nesting.thr.csr.tview[15] none
     runs.all (fun r => (r.check nesting.capture false).isOk) = true ∧ (∀ r ∈ runs, ∀ L ∈ r.names nesting.capture, nesting.tile.geom.inside L = true ∧ (nesting.tile.ent L).resident = true ∧
       (nesting.tile.ent L).ctx.toNat = nesting.tile.ctx ∧ (nesting.tile.ent L).thread.toNat = nesting.ch)) ∧
    (nestRuns nesting.capture (nesting.X 1) nesting.thr.csr.tview[15] (some 63)).all (fun r => (r.check nesting.capture true).isOk) = true ∧ nesting.slot = .w ∧ nesting.tile.remapWaits = false ∧
    nesting.vecReady [15, 15] none 1 = true ∧ nesting.vecReady [15] (some 15) 1 = true ∧ (nesting.tile.block 63).size = 4096 := by decide +kernel
def nested : State := nesting.modThr (fun t => { t with nest := some ⟨nesting.capture, 0, 0, nesting.X 1, false, none, 3, 0, false⟩ })
theorem meets_MatrixInstructions_busy : nested.arrayFree = false ∧ tokReady onW.thr.qs.tok .w 15 = false ∧ (∀ n, nested.thr.nest = some n → (∀ L ∈ n.names, (nested.tile.ent L).resident = true)) ∧
    (3 : BitVec 3) ≠ 4 := by
  refine ⟨by decide +kernel, by decide +kernel, fun n h => ?_, by decide⟩
  cases h; decide +kernel

/-- Set 3 describes a state of one row and one column in block 63 (R330), which is pinned. -/
def fw (st : BState) : State := csr (blocks true st) ({ · with fwcfg := vrep 4 (wofNat 63) })
theorem meets_FastWeightsAndShape : ((fw .pinned).thr.csr.fwSet 3).fits = true ∧ ((fw .pinned).thr.csr.fwSet 3).blocks = [63] ∧ ((fw .pinned).tile.ent 63).st = .pinned ∧ ((fw .owned).tile.ent 63).st ≠ .pinned ∧
    ({ (fw .pinned).thr.csr.fwSet 3 with dv := 65 } : FwSet).fits = false ∧ (fw .pinned).prog = [] ∧ ((((List.finRange 4).filter (fun i => (8 : BitVec 4)[i])).map (fw .pinned).thr.csr.fwSet).map FwSet.blocks).flatten = [63] ∧ [63].Nodup ∧
    (fw .pinned).arrayFree = true ∧ (fw .pinned).tile.noCpinb = true ∧ (fw .pinned).tile.defects = [] ∧ nested.arrayFree = false ∧ (fw .pinned).noArray = false ∧
    (∀ h : Fin 4, ((fw .pinned).tile.th[h]).nest = none) := by decide +kernel
/-- FWCHUNK of set 3 at the head of the W queue, stopped after 63 token steps (R336). -/
def chunked : State := eng (fw .pinned) (fun e => { e with q := [⟨encodeSyl (.fwchunk 0 63 8), none, 0, [0, 0, 0, 63]⟩] })
theorem meets_FastWeightsAndShape_chunk : chunked.slot = .w ∧ chunked.prog = [0, 0, 0, 63] ∧ chunked.chunkFree = true ∧ chunked.noArray = false ∧
    nextSet 8 [0, 0, 0, 63] 64 = some 3 ∧ nextSet 8 [0, 0, 0, 64] 64 = none ∧ nextSet 0 [0, 0, 0, 0] 1 = none ∧ nextSet 8 [0, 0, 0, 0] 1 = some 3 ∧ nextSet 15 [11, 10, 11, 10] 12 = some 1 := by decide +kernel
/-- Rows 3 retired, or no spare, or the smallest shape (R287 to R291). -/
def shaped (g : Geom) : State := onW.modTile (fun x => { x with geom := g })
theorem meets_FastWeightsAndShape_remap : ({ onW.tile.geom with retR := [3] } : Geom).ret false = [3] ∧ (onW.tile.geom.ret true).contains 255 = false ∧ (onW.tile.geom.map true).findIdx? (· == 255) = some 255 ∧ (onW.tile.geom.spares true).isEmpty = false ∧
    (({ onW.tile.geom with rows := onW.tile.geom.rows.drop 192 } : Geom).map false).length ≤ 128 ∧ 128 < (onW.tile.geom.map false).length ∧ (∀ L < 64, (onW.tile.ent L).resident = false) ∧
    ({ onW.tile.geom with retR := (List.range 16).map (· + 256) } : Geom).spares false = [] := by decide +kernel

/-! ### The events -/

/-- A state with the input of the event at hand. -/
def inp (s : State) (i : Input) : State := { s with run := { s.run with input := i } }
/-- A CPLOC of 256 bytes inside the scratchpad, up to its last byte. -/
def moveCmd : Cmd := { cpS.newCmd .cploc 0x2FFF00 0x100 256 (BitVec.allOnes 64) 256 with id := 7 }
def moving : State := inp (onC.modThr (fun x => { x with cmds := [moveCmd] })) (.sector 7 0)
/-- A barrier of tile 0 that a remote signal names by context 1's key, and a request to it. -/
def signalled (live : Bool) : State :=
  let s := (barrier 1 false).updTile 0 (fun x => { x with ctx := 1, tags := if live then [0x2FFFF0] else [] })
  inp (s.updCtx 1 (fun c => { c with st := .running, record := { c.record with key := 9 } })) (.signal ⟨9, 2, 0, 0x2FFFF0⟩ none)
def faultPending : State := inp { onC with disp := { onC.disp with fqPend := [⟨7, 0, 0, [], true⟩] } } (.response 7 false)
/-- A thread whose L stream has waited 4,096 cycles on qcl. -/
def stuck : State :=
  let s := (flow onC ({ · with status := .running, exiting := true })).modThr (fun x => { x with eL := { Engine.empty with q := [⟨encodeSyl (.vldb 0 0 0 2 3 0), none, 0, []⟩] }, stuck := 1 })
  { s with run := { s.run with cycle := 4096 } }
/-- Context 1 halted, with a node whose thread of rank 1 is thread 1 of tile 0, at an `ADDI`. -/
def nodeOf (ph : NPhase) (tiles : List Nat) : Node :=
  { id := 5, pkt := { (default : Packet) with id := 3, ctx := 1, plan := some [] }, idx := 0, desc := { (default : NodeDesc) with entry := 0x1000, tiles := 1 }, deps := [], phase := ph, tiles := tiles, shadow := [],
    since := 0, placed := 0, level := 0, req := none, frame := none, coop := false, abort := false, saving := none, saved := [], xdone := 0, wait := none }
def ctx1 (st : CState) (n : List Node) : State :=
  let s := onC.updTile 0 (fun x => { x with ctx := 1, node := some 5, th := (x.th.set 0 { Thread.reset with flow := { Flow.reset with status := .running } }).set 1 { Thread.reset with flow := { Flow.reset with status := .running, rank := 1 } } })
  ({ s with disp := { s.disp with nodes := n, packets := n.map (fun (y : Node) => y.pkt) } }).updCtx 1 (fun c => { c with st := st })
theorem meets_EngineEvents : moving.thr.cmds.find? (·.id == moveCmd.id) = some moveCmd ∧ moving.maySector moving.ct moving.ch moveCmd 0 = true ∧ moveCmd.total ≤ 256 ∧ moveCmd.landed = [] ∧ moveCmd.req = none ∧
    moveCmd.src = wofNat 0x100 ∧ moveCmd.dst = wofNat 0x2FFF00 ∧ 0x2FFF00 + moveCmd.total ≤ 0x300000 ∧ moving.gated moving.ct = false ∧ moving.tile.touchesLive 0x2FFF00 moveCmd.total = false ∧
    moving.tile.spad.poison = [] ∧ moveCmd.bar = BitVec.allOnes 64 ∧ wbit moveCmd.len 63 = false ∧ moving.maySector moving.ct moving.ch moveCmd 1 = false ∧
    (signalled true).signalCtx ⟨9, 2, 0, 0x2FFFF0⟩ = some 1 ∧ (signalled true).home 1 0 = .tile 0 ∧ (signalled true).gated 0 = false ∧ ((signalled true).tileAt 0).live 0x2FFFF0 = true ∧
    ((signalled false).tileAt 0).live 0x2FFFF0 = false ∧ (faultPending.disp.fqPend.any (fun p => p.tag == 7 && p.listed)) = true := by decide +kernel
theorem meets_EngineEvents_streams : stuck.thr.stuck ≠ 0 ∧ stuck.thr.stuck + 4096 ≤ stuck.run.cycle + 1 ∧ onC.thr.stuck = 0 ∧
    ((ctx1 .halted [nodeOf .running [0]]).ctxAt 1).st = .halted ∧ (ctx1 .halted [nodeOf .running [0]]).byRank 1 1 = some (0, 1) ∧ (ctx1 .halted [nodeOf .running [0]]).byRank 1 4 = none ∧
    ((ctx1 .running []).ctxAt 1).st ≠ .halted ∧ nested.thr.nest.isSome = true ∧ nested.thr.awaits .w = false ∧ nested.isFw = false ∧ nested.tile.twin = none ∧ nested.thr.crs = [] ∧
    (csr nested ({ · with tvec := 0x1000 })).thr.csr.tvec ≠ 0 ∧ wbit nested.thr.csr.tcause 13 = false := by decide +kernel
theorem meets_EngineEvents_deadlock : (stuck.dlWait stuck.ct stuck.ch).isSome = true := by decide +kernel

/-- Cluster 7 in state `st`, with a command `cmd` running or none. -/
def cluster (st cmd : BitVec 4) (i : Input := .cluster 7) (f : Cluster → Cluster := id) : State :=
  let s := { onC with run := { onC.run with cycle := 30000 }, disp := { onC.disp with clen := 0x7F } }
  inp { s with clusters := s.clusters.set 7 (f { s.clusters[(7 : Fin 8)] with st := st, cmd := cmd, busy := cmd != 0 }) } i
theorem meets_ClusterEvents : (cluster 0 0).disp.clen.getLsbD (7 : BitVec 3).toNat = false ∧ State.reset.disp.clen.getLsbD 7 = true ∧ ((cluster 0 1).clusters[(7 : Fin 8)]).busy = true ∧
    ((cluster 2 0).clusters[(7 : Fin 8)]).busy = false ∧ (∀ op ∈ Claims.clpm, ∃ st ∈ op.2.2, ((cluster st 0).clusters[(7 : Fin 8)]).st = st ∧ ((cluster st 0).clusters[(7 : Fin 8)]).busy = false) ∧
    ((cluster 2 0 (f := ({ · with retbase := 0x10000 }))).clusters[(7 : Fin 8)]).retbase ≠ 0 ∧ ((cluster 2 0).clusters[(7 : Fin 8)]).retbase = 0 ∧ (cluster 0 1).clusterQuiet 7 = true ∧
    (∀ k : Fin 8, ((cluster 4 (BitVec.ofNat 4 (k.val + 1))).clusters[(7 : Fin 8)]).busy = true ∧ ((cluster 4 (BitVec.ofNat 4 (k.val + 1))).clusters[(7 : Fin 8)]).cmd = BitVec.ofNat 4 (k.val + 1)) ∧
    ((cluster 0 8).clusters[(7 : Fin 8)]).parked = [] ∧ ((cluster 6 5).clusters[(7 : Fin 8)]).since + 30000 ≤ (cluster 6 5).run.cycle := by decide +kernel

def edge (f : Edge → Edge) (i : Input) : State := inp { onC with edge := f onC.edge } i
theorem meets_EdgeEvents : (let s := { onC with svc := onC.svc.set 1 { Svc.reset with fwtimer := 0 } }; (s.svc[(1 : Fin 2)]).timerOn = false ∧ (s.svc[(1 : Fin 2)]).fwtimer.toNat ≤ s.cycleCount) ∧
    wbit (edge ({ · with bootStat := 1 }) (.svn 5)).edge.bootStat 0 = true ∧ wbit onC.edge.bootStat 0 = false ∧ onC.edge.owner = 0 ∧ (edge ({ · with owner := 1 }) (.writer .firefly)).edge.owner = 1 ∧
    (edge ({ · with linkDown := true }) (.write .firefly 1)).edge.linkDown = true ∧ (edge ({ · with linkDown := true }) (.write .firefly 1)).edge.owner = 0 ∧
    wbits (1 : Word) 0 2 ≤ 1 ∧ (0x201FF8 : BitVec 24).toNat % 8 = 0 ∧ 0x200000 ≤ (0x201FF8 : BitVec 24).toNat ∧ (0x201FF8 : BitVec 24).toNat < 0x202000 ∧
    (edge ({ · with dead := true }) (.offset 0)).edge.dead = true ∧ onC.edge.dead = false ∧ (edge ({ · with keysGone := true }) (.nonce 0)).edge.keysGone = true ∧ onC.edge.keysGone = false ∧
    onC.grp.regions = [] ∧ onC.edge.bar2 = 10 ∧ (0x87FFFFFFFF : BitVec 40).toNat + 1 ≤ 0x8800000000 ∧ (0x87FFFFFFFF : BitVec 40).toNat + 1 ≤ 2 ^ 10 * 2 ^ 30 ∧
    (edge ({ · with bar2 := 0, apbase := 0x3FF }) (.bar2 0 [] false)).edge.apbase.toNat * 2 ^ 30 ≥ 0x8800000000 ∧ onC.edge.pwrCap.toNat < (2701 : BitVec 12).toNat ∧ 100 * 2564 < 95 * onC.edge.pwrCap.toNat ∧
    (95 * onC.edge.pwrCap.toNat ≤ 100 * 2565 ∧ 2565 ≤ onC.edge.pwrCap.toNat) ∧ 105 ≤ (105 : BitVec 8).toNat ∧ (104 : BitVec 8).toNat < 105 ∧
    (edge ({ · with alarmCfg := 2 }) (.sensors 1)).edge.alarmCfg.toNat % 4 = 2 ∧ onC.edge.alarmBusy = false ∧ onC.edge.alarmCfg.toNat % 4 ≠ 0 := by decide +kernel
-- That a slot is valid needs a signature that verifies under the board's key, which no test writes out; the other clauses of the boot are met from reset.
theorem meets_ResetEvents : (edge ({ · with rising := [24], rails := 0xFFFFFF, dead := true }) (.rail 24)).edge.rising.contains 24 = true ∧ ([24] : List (BitVec 5)).erase 24 = [] ∧ railStep (24 : BitVec 5).toNat = 5 ∧
    ([1, 2] : List (BitVec 5)).contains 2 = true ∧ ([1, 2] : List (BitVec 5)).erase 2 ≠ [] ∧ ([2] : List (BitVec 5)).erase 2 = [] ∧ railStep (2 : BitVec 5).toNat < 5 ∧ onC.edge.rising.contains 2 = false ∧
    115 ≤ (115 : BitVec 8).toNat ∧ (114 : BitVec 8).toNat < 115 ∧ (edge ({ · with keysGone := true }) .none).edge.keysGone = true ∧ onC.run.input ≠ .rail 0 ∧ (onC.readSlot false).reason ≠ 0 ∧
    (onC.readSlot true).reason ≠ 0 := by decide +kernel

/-- Tables at 0x10000 (context records) and 0x20000 (launch queues, enabled for context 1 with one slot at 0x30000): queue `q` with flags `fl` and HEAD 6; the packet at 0x30000 has VALID `v`. -/
def queued (q fl v : Nat) (i : Input) : State :=
  let m := ((Memory.empty.writeN (0x20000 + 128 * q) 8 0x30000).writeN (0x20008 + 128 * q) 8 (1 + 2 ^ 32 + fl * 2 ^ 48)).writeN (0x20010 + 128 * q) 8 6
  let m := (m.writeN (0x20040 + 128 * q) 8 (2 ^ 20)).writeN 0x30078 8 v
  let m := ((m.writeN 0x10100 4 0x10000).writeN 0x10104 4 9).writeN 0x10130 4 1
  let s := { onC with mems := { onC.mems with hbm := ⟨m, []⟩ }, disp := { onC.disp with ctl := 1, lqtab := 0x20000, ctxtab := 0x10000 } }
  inp (s.updCtx 1 (fun c => { c with st := .idle, record := { c.record with key := 9 } })) i
theorem meets_LaunchEvents : 1016 ≤ (1016 : BitVec 10).toNat ∧ (1015 : BitVec 10).toNat < 1016 ∧ onC.launchQueue 1015 = none ∧
    (∃ x, (queued 1015 1 7 .none).launchQueue 1015 = some x ∧ x.flags / 2 % 2 = 0 ∧ x.head = 6 ∧ leAt ((queued 1015 1 7 .none).hbmBytes (x.base + 128 * (x.head % x.size)) 128) 0x78 8 = 7) ∧
    (∃ x, (queued 1016 1 7 .none).launchQueue 1016 = some x ∧ x.head = 6) ∧
    (∃ x, (queued 3 3 7 .none).launchQueue 3 = some x ∧ x.flags / 2 % 2 = 1 ∧ x.ctx = 1 ∧ ∃ e ∈ x.acl, e.testBit 20 = true ∧ e / 2 ^ 32 = 0) ∧
    ((queued 3 3 7 .none).ctxAt 1).st.resident = true ∧ ((queued 3 3 7 .none).ctxAt 1).record.key = 9 ∧ (onC.ctxAt 1).st.resident = false ∧
    (let r : Remote := ⟨4, .c, 0, .waiting, []⟩; let s := { (launched [r]) with run := { (launched [r]).run with cycle := 120000 } }
     ∃ y ∈ (s.threadAt 0 0).remotes, y.id = 4 ∧ y.since + 120000 ≤ s.run.cycle) ∧
    (∀ y ∈ ((launched [⟨4, .c, 0, .waiting, []⟩]).threadAt 0 0).remotes, y.id = 4 → (launched [⟨4, .c, 0, .waiting, []⟩]).run.cycle < y.since + 120000) := by
  refine ⟨by decide +kernel, by decide +kernel, by decide +kernel, ⟨_, rfl, by decide +kernel⟩, ⟨_, rfl, by decide +kernel⟩, ⟨_, rfl, by decide +kernel⟩, by decide +kernel⟩

/-- One packet of one ready node of context 1, its turn at level 0 with a deficit of one. -/
def selecting : State :=
  let s := queued 3 3 7 .none
  { s with disp := { s.disp with nodes := [nodeOf .ready []], packets := [(nodeOf .ready []).pkt], cur := s.disp.cur.set 0 1, deficit := s.disp.deficit.set 1 1 } }
theorem meets_DispatchEvents_select : selecting.tileSets (nodeOf .ready []) selecting.busy = some ([0], []) := by
  have h : chooseTiles (selecting.qualify (nodeOf .ready []) selecting.busy) 1 10 = some [0] := by decide +kernel
  have h1 : (nodeOf .ready []).desc.tiles = 1 := rfl
  have h2 : (nodeOf .ready []).pkt.flags[0] = false := rfl
  simp [State.tileSets, h, h1, h2]
theorem meets_DispatchEvents : onC.disp.packets = [] ∧ onC.disp.nodes = [] ∧ selecting.disp.nodes = [nodeOf .ready []] ∧ selecting.disp.packets = [(nodeOf .ready []).pkt] ∧ (nodeOf .ready []).pkt.plan = some [] ∧
    (nodeOf .ready []).pkt.fail = none ∧ (nodeOf .ready []).pkt.ctx = 1 ∧ (selecting.ctxAt 1).st = .idle ∧ (selecting.ctxAt 1).preempt = false ∧ (selecting.ctxAt 1).late = false ∧ (selecting.ctxAt 1).kept = [] ∧
    (selecting.readRecord 1).isSome = true ∧ selecting.disp.cur[Fin.ofNat 8 (selecting.level (nodeOf .ready []))] = 1 ∧ (nodeOf .ready []).desc.tiles ≤ selecting.disp.deficit[Fin.ofNat 64 1] ∧ [0].Nodup ∧
    (ctx1 .running [nodeOf .running [0]]).nodeAt 5 = some (nodeOf .running [0]) ∧ onC.nodeAt 5 = none ∧ (ctx1 .running [nodeOf .running [0]]).nodeDrained (nodeOf .running [0]) = false ∧
    ({ onC with disp := { onC.disp with nodes := [nodeOf .running [3]] } } : State).nodeDrained (nodeOf .running [3]) = true := by decide +kernel
/-- Context 1 in one save frame, its node on tile 0 with no thread running but for one held in the PHASE of a device instance that has just become even; its pre-emption was asked for at cycle 0. -/
def saving (i : Input) : State :=
  let n := { nodeOf .running [0] with req := some 0, pkt := { (nodeOf .running [0]).pkt with flags := 2 } }
  let s := (ctx1 .running [n]).updTile 0 (fun x => { x with th := (x.th.set 0 { Thread.reset with flow := { Flow.reset with status := .running, held := .phase 4 1 } }).set 1 Thread.reset })
  inp ((s.updCtx 1 (fun c => { c with record := { c.record with frames := 1 } })) |> fun s => { s with disp := { s.disp with ctl := 1 } }) i
def savingNode : Node := { nodeOf .running [0] with req := some 0, pkt := { (nodeOf .running [0]).pkt with flags := 2 } }
theorem meets_DispatchEvents_save : (saving (.node 5)).nodeAt 5 = some savingNode ∧ savingNode.req = some 0 ∧ (saving (.node 5)).freeFrame 1 = some 0 ∧ savingNode.pkt.queue < 1016 ∧
    (0 + wbits (saving (.node 5)).disp.ctl 32 16 * 1024 ≤ (saving (.node 5)).run.cycle) ∧ (saving (.node 5)).atPoint savingNode = true ∧ savingNode.coop = false ∧ savingNode.saving = none ∧ savingNode.frame = none ∧
    (∀ h < 4, let x := (saving (.node 5)).threadAt 0 h; x.cmds = [] ∧ x.progs = [] ∧ x.remotes = [] ∧ x.flow.held ≠ .launch ∧ x.posted = true ∧ (∀ w : Fin 64, (x.win[w]).lines = []) ∧ x.leftover = false) ∧
    (let s := { saving (.node 5) with run := { (saving (.node 5)).run with cycle := 2 ^ 20 } }; s.disp.nodes.length = 1 ∧ 0 + 2 ^ 20 ≤ s.run.cycle ∧ (saving (.node 5)).run.cycle < 0 + 2 ^ 20) := by decide +kernel

theorem meets_ContextEvents : (1 : BitVec 6).toNat ≠ 0 ∧ (onC.ctxAt 1).st = .none ∧ ((List.range 64).filter (fun j => j != 0 && (onC.ctxAt j).st.resident)).length < 63 ∧ onC.readRecord 1 = none ∧
    ((queued 3 3 7 .none).readRecord 1).isSome = true ∧ (onC.ctxAt 1).kill = none ∧ ((ctx1 .dead []).ctxAt 1).st = .dead ∧ ((ctx1 .running []).ctxAt 1).st = .running ∧
    (((ctx1 .running []).updCtx 1 (fun c => { c with kill := some { cause := 14, lost := true, node := none, addr := 0, tile := 0, thread := 0, access := 0 } })).ctxAt 1).kill.isSome = true ∧
    ((ctx1 .preempted []).ctxAt 1).st = .preempted ∧ (((ctx1 .idle []).updCtx 1 (fun c => { c with brk := true })).ctxAt 1).brk = true ∧ ((ctx1 .halted [nodeOf .running [0]]).ctxAt 1).st = .halted ∧
    (nodeOf .running [0]).isPlaced = true ∧ ((ctx1 .savedLate []).ctxAt 1).st = .savedLate ∧
    (let s := (saving .none).updCtx 1 (fun c => { c with dw := 5, record := { c.record with dwlimit := 5, dwact := true } })
     (s.ctxAt 1).st = .running ∧ s.dwLimit 1 ≤ (s.ctxAt 1).dw ∧ (s.ctxAt 1).record.dwact = true ∧ s.freeFrame 1 ≠ none) ∧
    (let s := (saving .none).updCtx 1 (fun c => { c with dw := 4, record := { c.record with dwlimit := 5 } }); (s.ctxAt 1).dw < s.dwLimit 1 ∧ (s.ctxAt 1).record.dwact = false) := by decide +kernel

/-- A module of a system of 1 × 4096 modules, number 0, with the input of a fabric event. -/
def fabric (f : Fabric → Fabric) (i : Input) : State := inp { onC with fab := f { onC.fab with ext := 0xFFF } } i
theorem meets_FabricEvents : 64 ≤ (64 : BitVec 7).toNat ∧ (63 : BitVec 7).toNat < 64 ∧ (fabric id .none).systemSize ≤ (4096 : BitVec 20).toNat ∧ (4095 : BitVec 20).toNat < (fabric id .none).systemSize ∧
    (4095 : BitVec 20) ≠ (fabric id .none).modNum ∧ (0 : BitVec 20) = (fabric id .none).modNum ∧ (rounds .opened .no).grp.st ≠ .none ∧
    (let x := (fabric ({ · with switch := [0x2000C], frame := 1 }) (.word 0x10008)).fab; x.switch = [0x2000C] ∧ wbits (0x2000C : Word) 16 48 ≤ x.frame.toNat + 1 ∧ wbit (0x2000C : Word) 2 = true ∧ wbit (0x2000C : Word) 3 = true ∧ wbits (0x10008 : Word) 16 48 ≤ x.frame.toNat ∧
      x.frame.toNat < wbits (0x20008 : Word) 16 48) ∧ onC.fab.switch = [] ∧ (23 : BitVec 5).toNat < 24 ∧
    onC.margin.lmrun[(23 : Fin 24)] = none ∧ ({ onC with margin := { onC.margin with lmrun := onC.margin.lmrun.set 23 (some (0, 5)) } } : State).margin.lmrun[(23 : Fin 24)] ≠ none := by decide +kernel

/-- Window 63 of the acting thread with a line that is to be sent, idle for `idle` cycles, and `n` posted flits since cycle 0; 120,000 cycles have gone by. -/
def windowed (idle n : Nat) (i : Input) : State :=
  let s := onC.modThr (fun x => { x with win := x.win.set 63 { Window.reset with lines := [⟨0, 1, 0, true, [], 0, ⟨0, 0, 0, 0⟩⟩], idle := idle, flits := (List.range n).map (fun k => ⟨k, 64 * k, 0, 1⟩) } })
  inp { s with run := { s.run with cycle := 120000 } } i
/-- Context 1 with key 9 on tile 0, and requests to the last line and the last byte of its scratchpad. -/
def targeted (i : Input) (st : CState := .running) : State := inp ((onC.updTile 0 (fun x => { x with ctx := 1 })).updCtx 1 (fun c => { c with st := st, record := { c.record with key := 9 } })) i
theorem meets_WindowEvents : 256 ≤ ((windowed 256 0 .none).winAt 0 0 63).idle ∧ ((windowed 255 0 .none).winAt 0 0 63).idle < 256 ∧ (onC.winAt 0 0 63).departs = none ∧
    (((windowed 0 63 .none).winAt 0 0 63).departs).isSome = true ∧ ((windowed 0 64 .none).winAt 0 0 63).departs = none ∧
    ((windowed 0 1 .none).winAt 0 0 63).flits.find? (·.num == 0) = some ⟨0, 0, 0, 1⟩ ∧ 0 + 120000 ≤ (windowed 0 1 .none).run.cycle ∧
    (∀ v : Fin 64, v ≠ 63 → ((windowed 0 1 .none).winAt 0 0 v).flits = []) ∧ (∀ v : Fin 64, (onC.winAt 0 0 v).flits = []) ∧ onC.ctxByKey 9 = none ∧
    (targeted .none).ctxByKey 9 = some 1 ∧ (targeted .none).home 1 0 = .tile 0 ∧ (targeted .none).gated 0 = false ∧ (0x2FFFC0 : Word).toNat + 64 ≤ 0x300000 ∧ ((targeted .none).ctxAt 1).st ≠ .halted ∧
    ((targeted .none).tileAt 0).touchesLive 0x2FFFC0 64 = false ∧ (let s := { targeted .none with clusters := (targeted .none).clusters.set 0 { (targeted .none).clusters[(0 : Fin 8)] with st := 7, gated := true } }
      s.gated 0 = true ∧ s.ctxByKey 9 = some 1 ∧ s.home 1 0 = .tile 0) ∧ (targeted .none).home 1 128 = .gone ∧ (0x2FFFFF : Word).toNat + (1 : BitVec 10).toNat ≤ 0x300000 := by decide +kernel

theorem meets_ReductionEvents : (let s := slotS { RSlot.free with dying := true } 0 0; (s.rslotAt 255).dying = true ∧ (s.rslotAt 255).first ≤ s.fab.now) ∧ ((slotS RSlot.free 0 0).rslotAt 255).dying = false ∧
    ((slotS RSlot.free 0 0).rslotAt 255).holder = none ∧ (let s := slotS { RSlot.free with dying := true, first := 1 } 0 0; s.fab.now < (s.rslotAt 255).first) ∧
    (let s := heldS .idle none none (treeUp + 2 ^ 24 + 2 ^ 23); let x := s.rslotAt 255
     x.dying = false ∧ x.holder = some 0 ∧ x.st = .idle ∧ wbit x.tree (23 : BitVec 5).toNat = true ∧ wbit x.tree (22 : BitVec 5).toNat = false ∧ part.epoch = x.epoch ∧ x.kids = [] ∧ treeLocal x.tree = true ∧ x.own = none ∧
     ({ part with epoch := 1 } : Contribution).epoch = x.epoch + 1 ∧ x.later = [] ∧ ({ part with epoch := 2 } : Contribution).epoch ≠ x.epoch + 1) ∧
    (let s := heldS .opened none none treeUp; let x := s.rslotAt 255; x.st = .opened ∧ s.fab.now < x.first + cfgDeadline x.cfg ∧ x.kids = []) ∧
    (let s := slotS { RSlot.free with holder := some 0, st := .opened, tree := wofNat (31 * 2 ^ 25), kids := [(23, part)] } 0 0; let x := s.rslotAt 255
     x.first + cfgDeadline x.cfg ≤ s.fab.now ∧ 24 ≤ treeParent x.tree ∧ ∃ y ∈ x.kids, y.1 = (23 : BitVec 5).toNat) ∧
    treeParent (wofNat (23 * 2 ^ 25)) < 24 ∧ ((heldS .done none (some part) treeUp).rslotAt 255).st = .done ∧ ((heldS .sent none none treeUp).rslotAt 255).st = .sent := by decide +kernel

/-- The group of 16 members and one holder, this module being entry `i` of role `r`; no region, nothing held. -/
def group (st : GState) (r i : Nat) (f : Group → Group := id) (j : Input := .none) : State :=
  let ws : Vector Word 16 := Vector.ofFn (fun k => wofNat (2 ^ 63 + 2 ^ 24 * k.val + k.val))
  inp { onC with grp := f { onC.grp with st := st, cfg := wofNat (16 * 2 ^ 16 + i * 2 ^ 24 + r * 2 ^ 29), members := ws, holders := (vrep 4 0).set 0 (wofNat (2 ^ 63 + 16)), round := 5, log := 1 } } j
theorem meets_RepairEvents : (let g := group .opened 1 0 ({ · with asks := [⟨3, 7, 0, true, false⟩] }); (∃ x ∈ g.grp.asks, x.atom = 3) ∧ g.grp.held = [] ∧ g.grp.heldDelta = [] ∧ g.mems.heldIn = [] ∧ g.grp.wants = [] ∧
      g.grp.asks.find? (fun x => x.atom == 3 && x.deadline != 0) = some ⟨3, 7, 0, true, false⟩ ∧ g.run.cycle < 7 ∧ ({ g with run := { g.run with cycle := 7 } } : State).run.cycle = 7) ∧
    onC.grp.asks.find? (fun x => x.atom == 3 && x.deadline != 0) = none ∧ 32 * 0x47FFFFFFF < 0x9000000000 ∧ onC.grp.imageOff (32 * 0x47FFFFFFF) = none ∧ 0x47FFFFFFF ∉ onC.mems.hbm.poison ∧
    onC.grp.serving = false ∧ (group .opened 2 0).grp.serving = true ∧ (group .opened 2 0).grp.recast = false ∧ (group .opened 2 0).grp.role = 2 ∧ (group .opened 2 0).grp.unacked = [] ∧
    ((group .opened 2 0).grp.parityBase + 32 * 3) / 32 ∉ (group .opened 2 0).mems.hbm.poison := by decide +kernel
theorem meets_RepairEvents_waits : (let g := group .opened 1 0 (fun x => { x with asks := [⟨3, 7, 0, true, false⟩], regions := [⟨0, 0, [(0, 0)], 1, false, false⟩] })
    g.askHopeless 3 = false ∧ g.grp.serving = true) := by decide +kernel
/-- A holder in round 5 and deltas of rounds 4 and 5. -/
def deltaOf (r : Word) : Delta := { member := 0, offset := 0, round := r, delta := 1 }
theorem meets_RoundEvents : (deltaOf 4).round.toNat < (group .opened 2 0).grp.round.toNat ∧ (deltaOf 5).round = (group .opened 2 0).grp.round ∧ (group .opened 2 0).deltaWaits (deltaOf 5) = false ∧
    (group .recovering 2 0).deltaWaits (deltaOf 5) = true ∧ (group .opened 1 0).grp.role ≠ 2 ∧ (group .opened 1 0).grp.st ≠ .preparing ∧ (group .opened 1 0).grp.asks = [] ∧ (group .opened 1 0).grp.wants = [] ∧
    (group .opened 1 0).grp.root = (group .opened 1 0).grp.own ∧ (group .opened 1 15).grp.root ≠ (group .opened 1 15).grp.own ∧ (group .opened 1 0).grp.decision = none ∧
    (15 : BitVec 4) ∉ (group .opened 1 0).grp.votes ∧ ((group .opened 1 0).grp.votes = [] ∧ 0 < (group .opened 1 0).grp.k ∧ 0 ≠ (15 : BitVec 4).toNat) ∧
    (let g := (group .opened 1 0 ({ · with votes := (List.range 15).map (BitVec.ofNat 4) })).grp; (15 : BitVec 4) ∉ g.votes ∧ ∀ i < g.k, i = (15 : BitVec 4).toNat ∨ g.votes.any (fun v => v.toNat == i) = true) ∧
    (let s := group .opened 1 0 ({ · with decision := some (5, true, 0, none) }); s.grp.decision = some (5, true, 0, none) ∧ (0 : BitVec 48).toNat ≤ s.fab.frame.toNat ∧ s.fab.frame.toNat < (1 : BitVec 48).toNat) ∧
    (group .applying 1 0).grp.held = [] ∧ (group .applying 1 0).grp.heldDelta = [] ∧ (group .opened 1 0).grp.busy = false ∧ (group .opened 1 0).grp.serving = true := by decide +kernel

theorem meets_GroupEvents : (group .opened 1 0).grp.st ≠ .none ∧ (group .none 1 0).grp.role ≠ 3 ∧ (group .none 1 3).grp.goodCfg (group .none 1 3).modNum = false ∧
    (group .none 1 0).grp.goodCfg (group .none 1 0).modNum = true ∧ (group .none 3 0).grp.role = 3 ∧
    (let d : Vector Word 5 := Vector.ofFn (fun k => wofNat ((List.range 4).foldl (fun a i => a + 0x101 * (4 * k.val + i) * 2 ^ (16 * i)) 0)); (group .none 1 0 ({ · with domains := d })).grp.placed = true) ∧ (group .none 1 0).grp.placed = false ∧
    onC.grp.serving = false ∧ (group .opened 1 0).grp.serving = true ∧ (group .opened 1 0).grp.rcActive = false ∧ (group .opened 1 0 ({ · with rcActive := true })).grp.held = [] ∧
    (let g := group .opened 1 0 (fun x => { x with recast := true, pending := [0], regions := [⟨0, 0, [(0, 0)], 1, false, false⟩] }); (0 : BitVec 23).toNat ∈ g.grp.pending ∧ (g.imageAt 0).isSome = true) ∧
    (group .opened 2 0).grp.role ≠ 1 ∧ (group .opened 1 0).grp.expBusy = 0 ∧ (group .opened 1 0 ({ · with expBusy := 2 })).grp.expBusy = 2 ∧ (group .opened 1 0 ({ · with expBusy := 1 })).grp.expBusy = 1 ∧
    (∃ y ∈ [((0 : Nat), (none : Option Nat), true)], y.2.1 = none) ∧ (∃ y ∈ [((1 : Nat), some 6, true)], y.2.1 ≠ ((0 : Nat), some 5, true).2.1) ∧ onC.grp.st = .none ∧ onC.grp.busy = false ∧
    (group .opened 1 0).grp.valid 15 = true ∧ 15 ≠ (group .opened 1 0).grp.own ∧ (group .opened 1 0).grp.isLost 15 = false ∧ (15 : BitVec 20) = (group .opened 1 0).grp.moduleOf 15 ∧ 20 ≤ (20 : BitVec 5).toNat ∧
    (let s := { group .opened 1 0 ({ · with heard := (vrep 20 0).set 16 1 }) with fab := { onC.fab with frame := 5 } }; let h := s.grp.heard[Fin.ofNat 20 16].toNat
     h ≠ 0 ∧ h + 4 ≤ s.fab.frame.toNat ∧ s.grp.valid 16 = true ∧ s.grp.isLost 16 = false ∧ (16 : Nat) ≠ s.grp.own) := by decide +kernel

theorem meets_HealthEvents : 23 < 24 ∧ onC.margin.vmctl.getLsbD 1 = false ∧ ({ onC with margin := { onC.margin with vmctl := 2 } } : State).margin.vmctl.getLsbD 1 = true ∧ onC.margin.lmrun[(23 : Fin 24)] = none ∧
    onC.fab.up.getLsbD 23 = false ∧ ({ onC with fab := { onC.fab with up := BitVec.allOnes 24 } } : State).fab.up.getLsbD 23 = true ∧
    ({ onC with margin := { onC.margin with lmrun := onC.margin.lmrun.set 23 (some (0, 1)) } } : State).margin.lmrun[(23 : Fin 24)] ≠ none ∧
    (let s := { onC with mems := { onC.mems with mram := (onC.mems.mram.writeN (fieldBase 129) 4 0x504D4649).writeN (fieldBase 129 + 4) 4 (61 + 2 ^ 16) } }; s.fieldCount 129 = some 61) := by decide +kernel
theorem meets_Frames : vecW.vecCan 0 [0] (some 14) 1 ∧ (0 : BitVec 4) ≠ 15 ∧ (1, 0) ≠ (onC.ct, onC.ch) := by unfold State.vecCan; decide +kernel
theorem meets_StoresKeepForm : (∀ t : Fin 130, (State.reset.tiles[t]).spad = PMem.empty) ∧ State.reset.mems.hbm = PMem.empty ∧ Memory.empty.wf = true ∧ isNext (exec (.std 0 0 0) onC) = true ∧ isNext (exec (.ldd 1 0 0) onC) = true := by decide +kernel


/-! ## More states that meet hypotheses, clause by clause -/

theorem meets_posting : atTop.thr.posting.contains .c = false ∧ barTop.thr.posting.contains .c = false ∧ (strided (.stream .s)).thr.posting.contains .s = false ∧ vecS.thr.posting.contains .s = false ∧
    (heldS .done none (some part) treeUp).thr.posting.contains (heldS .done none (some part) treeUp).slot = false := by decide +kernel
/-- The same state in another turn. -/
def turned (s : State) (u : Turn) : State := { s with run := { s.run with cur := { s.run.cur with turn := u } } }
/-- Where the work that is due is executed at once, its next state is there. -/
def dueNext (s : State) : Bool := match s.nextWork with
  | some (i, a) => isNext (exec i { s with run := { s.run with input := a, res := .done } })
  | none => false
theorem meets_StepRunsDecoded_engines : (∀ s ∈ [turned moving .copy, turned (shuffling oneByte 63) .shuffle, turned nested .array], s.run.agenda = [] ∧ s.edge.dead = false ∧
    s.run.cur.turn ∈ [Turn.copy, .shuffle, .array] ∧ dueNext s = true) := by decide +kernel
theorem meets_BundleIssues : (let v := turned fetchC (.stream .c); let b := soloBundle 0x08100001
    fetchC.thr.flow.status = .running ∧ fetchC.thr.flow.exiting = false ∧ (v.fetch fetchC.ct fetchC.ch fetchC.thr.flow.pc).toOption = some b ∧ decodeOn fetchC.ct .c (sylOf (syllables b) .c) = some (.addi 1 0 1) ∧
    reservedSlot fetchC.ct (syllables b) = none ∧ fetchC.active = false ∧ fetchC.thr.queueFull (syllables b) = false ∧ fetchC.thr.captureFull (syllables b) = false) ∧
    (flow fetchC ({ · with ctl := true })).thr.flow.ctl = true ∧ onC.thr.flow.status ≠ .running ∧ ending.thr.flow.exiting = true := by decide +kernel
theorem meets_RoundRobin_array : (∀ t ∈ [(0 : Fin 130), 129], (at_ t .array).run.cur.turn = .array) ∧ (at_ 0 .array).run.cur.tile.val < 129 ∧ (at_ 129 .array).run.cur.tile.val = 129 ∧
    (let s := at_ 129 .array; ({ s with run := { s.run with cur := { s.run.cur with tries := 3 } } } : State).run.cur.tries = 3) ∧ (turned nested .array).thr.nest ≠ none ∧ (turned onC .array).thr.nest = none ∧
    (turned (nested.modThr (fun x => { x with nest := x.nest.map (fun n => { n with fault := true }) })) .array).thr.nest.map (·.fault) = some true := by decide +kernel
theorem meets_fallbacks : intBits 4 = none ∧ fltOf 0 = none ∧ fltOf 7 = none ∧ (8 ≤ (8 : BitVec 4).toNat) ∧ (∃ g, fltOf 4 = some g ∧ fltRed g (5 : BitVec 4).toNat true = none) ∧ (0 : BitVec 3) ≠ 4 ∧ (1 : BitVec 3) ≠ 0 ∧
    vecW.vecCan 15 [15, 15, 15] (some 15) 1 ∧ vecW.vecCan 15 [15] (some 15) 1 ∧ vecW.vecCan 15 [15, 15] none 0 ∧ vecW.vecCan 15 [] (some 15) 1 ∧ vecW.vecCan 15 (pairOf 15) (some 15) 1 ∧
    (qs vecW ({ · with qws := List.replicate 14 (0, 0) })).vecCan 15 [15] (some 15) 2 ∧ vecW.vecCan 15 [15] none 0 := by
  refine ⟨by decide, by decide, by decide, by decide, ⟨_, rfl, by decide⟩, ?_⟩
  unfold State.vecCan; decide +kernel
theorem meets_asks : (∀ s ∈ [peerWin, { peerWin with run := onC.run }], s.winAsk (s.ctxOf s.ct) ((0 : Word).toNat / 2 ^ 48) = none) ∧ (handles 1).winAsk 0 1 = none ∧ (handles 2).winAsk 0 2 = none ∧
    (handles 0x3FF0000).winAsk 0 0 = none := by decide +kernel
theorem meets_RingsAndHints_advance : (let s := ringOn true; let g := s.thr.rings[(3 : BitVec 2).toFin]
    g.valid = true ∧ Claims.canStart s .l 15 ∧ s.prog = [] ∧ g.next ≤ g.head + g.l ∧ ((s.setRes .done).advance 3 3 2 g.head).2.1 ≠ 0 ∧ ((s.setRes .done).advance 3 3 2 g.head).2.1 ≠ 2 ∧
    ((s.setRes .done).advance 3 2 1 g.head).2.1 = 0) := by unfold Claims.canStart; decide +kernel

/-- An image of zeros at byte 0x40000 of HBM, to which register 2 points. -/
def imaged : State :=
  let m := ((Memory.empty.writeN 0x40000 4 0x50534341).writeN 0x40004 1 1).writeN 0x4003C 4 2121958568
  let s := reg (blocks false) 2 0x40000
  { s with mems := { s.mems with hbm := ⟨m, []⟩ } }
def zeroImage : List Byte := imaged.mems.hbm.mem.read 0x40000 64 ++ List.replicate 16384 0

/-- The CRC register after `n` bytes of zero, evaluated byte by byte. -/
def crcZeros : Nat → Nat → Nat
  | 0, c => c
  | n + 1, c => if c = 0 then crcZeros n (crcByte 0 0) else crcZeros n (crcByte c 0)
theorem crcZeros_eq (n c : Nat) : crcRun c (List.replicate n 0) = crcZeros n c := by
  induction n generalizing c with
  | zero => rfl
  | succ n ih => simp only [crcZeros, List.replicate_succ, crcRun, List.foldl_cons] at *; split <;> simp_all
theorem crc_zeros : crcZeros 16384 (crcRun 0xFFFFFFFF (zeroImage.take 60)) = 2121958568 ^^^ 0xFFFFFFFF := by decide +kernel

theorem read_zeros (m : Memory) (a n k : Nat) (h : ∀ c ∈ m.cells, c.1 < a + n) : m.read a (n + k) = m.read a n ++ List.replicate k 0 := by
  unfold Memory.read
  simp only [List.range_add, List.map_append, List.map_map]
  congr 1
  · apply List.map_congr_left
    intro i hi
    have hi := List.mem_range.1 hi
    rw [cellsAt_filter _ _ _ (fun c e => by simp; omega), cellsAt_filter _ _ _ (fun c e => by simp; omega)]
  · rw [List.eq_replicate_iff]
    refine ⟨by simp, fun b hb => ?_⟩
    simp only [List.mem_map, Function.comp] at hb
    obtain ⟨i, -, rfl⟩ := hb
    exact cellsAt_none _ _ (fun c hc => by have := h c (List.mem_filter.1 hc).1; omega)

theorem imaged_read : imaged.readImage imaged.tile.ctx 0x40000 = .ok zeroImage := by
  have hp : imaged.globalPieces imaged.tile.ctx 0x40000 imageSize .cpinb = .ok [⟨.mem 0x40000 0, 0x40000, imageSize⟩] := by rfl
  have he : imaged.evictOwn imaged.ct 0x40000 imageSize = imaged := by
    have : imaged.tile.l1.blocks = [] := by decide +kernel
    simp only [State.evictOwn]
    rw [List.filter_eq_nil_iff.2 (fun b _ => by
      have : (imaged.tileAt imaged.ct).l1.blocks = [] := by decide +kernel
      rw [this]; simp)]
    rfl
  have ha : imaged.locAsk 0x40000 imageSize = none := by decide +kernel
  have hq : imaged.locPoison 0x40000 imageSize = [] := by decide +kernel
  have hb : imaged.locBytes 0x40000 imageSize = zeroImage := by
    show imaged.mems.hbm.mem.read 0x40000 (64 + 16384) = _
    exact read_zeros _ _ _ _ (by decide +kernel)
  unfold State.readImage
  rw [hp]
  simp only [List.foldl_cons, List.foldl_nil, he, List.mapM_cons, List.mapM_nil, ha, hq, hb]
  simp [pure, Except.pure, bind, Except.bind]
theorem zeroImage_rest : zeroImage.drop 64 = List.replicate 16384 0 := List.drop_left' (by simp [Memory.read])
theorem zeroImage_crc : crc32c (zeroImage.take 60 ++ zeroImage.drop 64) = 2121958568 := by
  rw [zeroImage_rest, crc32c, crcRun, List.foldl_append, ← crcRun, ← crcRun, crcZeros_eq, crc_zeros]
  decide
theorem zeroImage_valid : imageValid zeroImage = true := by
  have h : leAt zeroImage 0 4 = 0x50534341 ∧ leAt zeroImage 4 1 = 1 ∧ leAt zeroImage 60 4 = 2121958568 := by decide +kernel
  simp only [imageValid, zeroImage_crc, h.1, h.2.1, h.2.2, decide_true, Bool.and_true]

theorem blocks_pieces : (blocks false).imagePieces (blocks false).tile.ctx ((blocks false).homeAddr 0 63 ((blocks false).seenTile 0)) = .ok [⟨.mem 1036224 0, 1036224, imageSize⟩] := by rfl
theorem meets_AccumulatorInstructions_spill : (62 : BitVec 6).toNat + (1 : BitVec 6).toNat ≤ 63 ∧ (∀ L ∈ Claims.run 62 1, ∀ M ∈ Claims.run 62 1, L ≠ M → Claims.apart (blocks false) L M) ∧
    (blocks false).shadow (blocks false).ct = false ∧ (blocks false).grp.covers = false ∧ ((blocks false).tile.block 63).size = 4096 ∧
    (∀ i < imageSize, ∀ j < imageSize, let f := Claims.pieceSpot [⟨.mem 1036224 0, 1036224, imageSize⟩]; f i ≠ none ∧ (f i = f j → i = j)) := by
  refine ⟨by decide, by unfold Claims.apart; decide +kernel, by decide +kernel, by decide +kernel, by decide +kernel, fun i hi j hj => ?_⟩
  have h : ∀ k < imageSize, Claims.pieceSpot [⟨.mem 1036224 0, 1036224, imageSize⟩] k = some (.hbm (1036224 + k)) := by
    intro k hk
    simp only [Claims.pieceSpot, hk, if_true, Claims.locSpot]
    rw [if_pos (by simp only [imageSize] at hk; simp only [hostLoc]; omega)]
  simp only [h i hi, h j hj]
  exact ⟨by simp, fun e => by simpa using e⟩
theorem meets_AccumulatorInstructions_rows : (let v := (blocks false).thr.csr.aview; avBase v + avPitch v * (64 * 1 + 63) + 256 ≤ 0x20000) ∧ (0x41 : Word).toNat % 64 ≠ 0 ∧
    (∀ L ∈ Claims.run 62 1, Claims.mine (blocks false) L) := by unfold Claims.mine; decide +kernel
theorem meets_MatrixInstructions_apart : (0 < 64 ∧ ∀ n, nested.thr.nest = some n → ∀ M ∈ n.names, M % 64 ≠ 0 ∧ Claims.apart nested 0 M) := by
  refine ⟨by decide, fun n h => ?_⟩
  cases h
  unfold Claims.apart
  decide +kernel
theorem meets_FastWeightsAndShape_waits : (turned nested (.stream .w)).arrayFree = false ∧ chunked.prog.length = 4 ∧ (fw .pinned).prog.length ≠ 4 ∧ Claims.canStart (fw .pinned) .w 15 ∧
    (let s := onW.modThr (fun x => { x with cmds := [cpL.newCmd .cpinb 0 0 0 0 64] }); s.noArray = false ∧ s.tile.noCpinb = false ∧ Claims.canStart s .w 0) ∧
    ((fw .pinned).modTile (fun x => { x with defects := [⟨0, 0, 5, 0, false⟩] })).tile.defects ≠ [] := by unfold Claims.canStart; decide +kernel
/-- PERMUTE of one byte by an index of 16 bits at 0x200, and CONVERT of one byte from fp8 e4m3 to e5m2 (R241). -/
def permStep : ShufStep := { op := 2, fmt := 0, mode := 0, src := 0x100, dst := 0x2FF000, rows := 1, cols := 1, spitch := 1, dpitch := 1, idx := 0x200, zero := 0 }
theorem meets_ShuffleEngine_steps : (let s := shuffling [] 0
    permStep.op = 2 ∧ permStep.fmt = 0 ∧ permStep.rows = 1 ∧ permStep.cols = 1 ∧ s.shufRange s.ct s.ch 0x200 2 = some (true, 0x200) ∧ s.shufRange s.ct s.ch 0x100 1 = some (true, 0x100) ∧
      s.shufRange s.ct s.ch 0x2FF000 1 = some (true, 0x2FF000) ∧ s.tile.live 0x2FF000 = false) := by decide +kernel

/-- A CPREM of 256 bytes to a peer. -/
def moveOut : Cmd := { cpS.newCmd .cprem 0 0x100 256 (BitVec.allOnes 64) 256 with id := 7, req := some ⟨9, 2, 5, 0⟩, peer := 1 }
def movingOut : State := inp (onC.modThr (fun x => { x with cmds := [moveOut] })) (.sector 7 0)
theorem meets_EngineEvents_peer : movingOut.thr.cmds.find? (·.id == moveOut.id) = some moveOut ∧ movingOut.maySector movingOut.ct movingOut.ch moveOut 0 = true ∧ moveOut.kind ≠ .ringRow ∧
   moveOut.req = some ⟨9, 2, 5, 0⟩ ∧ moveOut.total ≤ 256 ∧ moveOut.src = wofNat 0x100 ∧ 0x100 + moveOut.total ≤ 0x300000 ∧ movingOut.gated movingOut.ct = false ∧ movingOut.tile.spad.poison = [] := by decide +kernel
/-- The two faces of a signal that waits: tile 0 belongs to a halted context, or to a node that is being saved. -/
def signalHeld : State := (signalled true).updCtx 1 (fun c => { c with st := .halted })
theorem meets_EngineEvents_held : signalHeld.signalCtx ⟨9, 2, 0, 0x2FFFF0⟩ = some 1 ∧ signalHeld.home 1 0 = .tile 0 ∧ signalHeld.gated 0 = false ∧ signalHeld.holdKey 1 0 = some 1 ∧ (signalled true).holdKey 1 0 = none ∧
    (signalled false).holdKey 1 0 = none ∧ (let s := { faultPending with run := { faultPending.run with input := .response 7 true } }
      s.disp.fqPend.any (fun p => p.tag == (7 : BitVec 32).toNat && p.listed) = true) := by decide +kernel
theorem meets_RoundInstructions_roles : (rounds .opened .no).grp.role ≠ 2 ∧ ({ rounds .opened .no with grp := { (rounds .opened .no).grp with cfg := wofNat (4 * 2 ^ 16 + 2 ^ 24 + 2 * 2 ^ 29 + 2 ^ 31) } } : State).grp.role = 2 ∧
    (rounds .opened .no).shadow (rounds .opened .no).ct = false ∧ (onC.modTile (fun x => { x with twin := some 1 })).shadow 0 = true ∧ (onC.modTile (fun x => { x with twin := some 1 })).thr.awaits .c = false ∧
    (rounds .opened (.commit 4)).thr.flow.held = .commit 4 ∧ (4 : Word) ≠ (rounds .opened (.commit 4)).grp.round ∧ (protS .opened 0 1).grp.role ≠ 2 := by decide +kernel
theorem meets_ReductionInstructions_shadow : (heldS .idle none none treeUp).shadow (heldS .idle none none treeUp).ct = false ∧ (slotS RSlot.free treeUp 0).shadow (slotS RSlot.free treeUp 0).ct = false ∧
    ((slotS RSlot.free treeUp 0).rslotAt 255).keptR = [] ∧ (let s := heldS .sent none none (treeUp + 2 ^ 24); let u := (s.setRes .done).nodeDue 255
      s.heldSlot 255 = true ∧ treeLocal (u.rslotAt 255).tree = true ∧ (u.rslotAt 255).own = none ∧ (u.rslotAt 255).st = .sent ∧ s.X 2 = s.ownAddr 0x2FFFC0) := by decide +kernel
theorem meets_BarrierInstructions_many : (let s := barrier 1 false; ((s.tile.bar 0x2FFFF0).tooMany 0x8000000000 = true) ∧ s.tile.live 0x2FFFF0 = true ∧ s.thr.tbFind 0x2FFFF0 = some 15 ∧
    tbArrived (s.thr.csr.tbreg[(15 : Fin 16)]) = false) := by decide +kernel
theorem meets_PhaseInstruction_waits : ((flow fullL ({ · with held := .no })).modTile (fun x => { x with domid := x.domid.set 4 0x8000000000000000 })).thr.enginesIdle = false ∧
    (let s := (phased .no).modThr (fun x => { x with win := x.win.set 63 { Window.reset with flits := [⟨1, 0, 0, 0⟩] } })
     s.active = false ∧ s.thr.flow.ctl = false ∧ s.thr.enginesIdle = true ∧ (s.thr.win[(63 : Fin 64)]).flits ≠ [] ∧ wbit (s.tile.domid[Fin.ofNat 5 (6 - 2)]) 63 = true) := by decide +kernel
theorem meets_ShuffleEngine_convert : (let x : ShufStep := { op := 3, fmt := 7 + 16 * 8, mode := 0, src := 0x100, dst := 0x2FF000, rows := 1, cols := 1, spitch := 1, dpitch := 1, idx := 0, zero := 0 }; let s := shuffling [] 0
    x.legal = true ∧ (CFmt.ofCode (x.fmt % 16)).bits % 8 = 0 ∧ (CFmt.ofCode (x.fmt / 16)).bits = 8 ∧ s.shufRange s.ct s.ch x.src ((CFmt.ofCode (x.fmt % 16)).bits / 8) = some (true, 0x100) ∧
      s.shufRange s.ct s.ch x.dst 1 = some (true, 0x2FF000) ∧ s.tile.live 0x2FF000 = false) := by decide +kernel
/-- Ring 3 with a row under way, and WRADV's progress of one row left from head 1; a superblock that a thirteenth of its set evicts; WFLUSH's waits. -/
def engS (s : State) (p : List Nat) : State := eng s (fun e => { e with q := [⟨0, none, 0, p⟩] })
theorem meets_RingsAndHints_goOn : Claims.canStart (engS (ringOn true) [1, 1]) .l 15 ∧ (engS (ringOn true) [1, 1]).prog = [1, 1] ∧ (engS (ringOn true) [1, 1]).thr.rings[(3 : BitVec 2).toFin].valid = true ∧
    (((engS (ringOn false) [1, 0]).setRes .done).advance 3 2 1 0).2.1 ≠ 0 ∧ (((engS (ringOn true) [1, 0]).setRes .done).advance 3 2 1 0).2.1 = 0 ∧
    (engS (winS false true) [1]).prog = [1] ∧ ((engS (winS false true) [1]).thr.win[(63 : Fin 64)]).lines = [] ∧ (engS (winS false true) [2, 1]).prog = [2, 1] ∧ Claims.canStart (engS (winS false true) [2, 1]) .s 15 ∧
    (((engS (winS false true) [2, 1]).thr.win[(63 : Fin 64)]).flits.map (·.num)) = [1] ∧ (engS (winS false true) [2, 0]).prog = [2, 0] := by unfold Claims.canStart; decide +kernel
theorem meets_RingsAndHints_prefetch : Claims.evicted (onL.modTile (fun x => { x with l1 := { x.l1 with blocks := (List.range 12).map (128 * ·) } })) (128 * 12) = [0] ∧ onL.grp.covers = false ∧
    (group .opened 2 0 (fun x => { x with recast := true })).grp.covers = true := by decide +kernel

theorem meets_ContextEvents_resume : (let s := (ctx1 .halted []).updCtx 1 (fun c => { c with before := .preempted }); (s.ctxAt 1).st = .halted ∧ (s.ctxAt 1).before = .preempted ∧ s.disp.nodes = []) ∧
    ((1 : BitVec 6).toNat ≠ 0 ∧ (onC.ctxAt 1).st = .none) := by decide +kernel
theorem meets_EdgeEvents_more : onC.grp.covers = false ∧ onC.grp.held = [] ∧ (edge ({ · with bar2 := 0, apbase := 0x21F }) .none).edge.bar2Take 0 0 = 0 ∧ (edge id (.bar2Read 0xFFFFFFFFFF 1)).edge.bar2Take (2 ^ 40 - 1) 1 = 0 ∧
    (edge id (.bar2Read 0 64)).edge.bar2Take 0 64 = 64 ∧ (1 : BitVec 4) ≠ 0 ∧ (edge ({ · with alarmBusy := true }) (.sensors 1)).edge.alarmBusy = true := by decide +kernel
/-- A stream of a rebuild's unit that already waits here, and one of another source. -/
def meeting : State := fabric ({ · with out := [⟨24, 0, 4095, 0, none, false, .unitData 1 7 [5]⟩] }) .none
theorem meets_FabricEvents_streams : (meeting.fab.out = [] ++ ⟨24, 0, 4095, 0, none, false, .unitData 1 7 [5]⟩ :: []) ∧ (4095 : BitVec 20).toNat < meeting.systemSize ∧ (4095 : BitVec 20) ≠ meeting.modNum ∧ (1 : BitVec 20) &&& 2 = 0 ∧
    (1 : BitVec 20) &&& 3 ≠ 0 ∧ (fabric ({ · with trained := 0x800000 }) .none).fab.trained.getLsbD 23 = true ∧ onC.fab.trained.getLsbD 23 = false := by decide +kernel
def flit64 : Flit := .posted ⟨9, 2, 0, 0⟩ 1 0 ⟨0, 0, 0, 0⟩
/-- A halted context's tile, whose die's holding buffer holds a sector of `n` bytes. -/
def holding (n : Nat) : State :=
  let s := targeted .none .halted
  { s with mems := { s.mems with heldIn := [⟨1, 0, .flit (.sector ⟨9, 2, 0, 0⟩ (List.replicate n 0) [] none ⟨0, 0, 0, 0⟩ 0) 1⟩] } }
theorem meets_FabricEvents_full : (holding (2 ^ 21)).turnedAway flit64 = true := by
  have h (n : Nat) : (holding n).reach ⟨9, 2, 0, 0⟩ 1 .store = .hold 1 0 0 := by rfl
  have hn : ((lineCells 1 0).foldl (fun m c => max m (c.1 + 1)) 0) = 1 := by decide +kernel
  have hd : dieOf 0 = 0 := by decide
  have hf (n : Nat) : (holding n).holdFull 0 64 = decide (2 ^ 21 < 64 + n) := by
    simp [holding, State.holdFull, Arrival.size]
  simp only [State.turnedAway, flit64, hn, h, hd, hf]
  decide
theorem meets_FabricEvents_away : (targeted .none .halted).turnedAway flit64 = false ∧ (targeted .none).turnedAway flit64 = false := by decide +kernel
theorem meets_WindowEvents_held : (targeted .none .halted).holdKey 1 0 = some 1 ∧ 1 ≤ 64 ∧ (targeted .none .halted).behindHeld 1 1 ⟨0, 0, 0, 0⟩ = false ∧
    ({ targeted .none .halted with mems := { (targeted .none .halted).mems with heldIn := [⟨1, 0, .flit flit64 1⟩] } } : State).behindHeld 1 1 ⟨0, 0, 0, 5⟩ = true ∧ (targeted .none).holdKey 1 0 = none ∧
    (let s := targeted .none |>.updTile 0 (fun x => { x with node := some 5 }); ({ s with disp := { s.disp with nodes := [{ nodeOf .running [0] with saving := some 0 }] } } : State).holdKey 1 0 = some 70) ∧ 64 < 70 ∧
    (1 : BitVec 20) ≠ (targeted .none).modNum := by decide +kernel

theorem meets_ReductionEvents_due : (let s := slotS { RSlot.free with holder := some 0, st := .opened, tree := wofNat (23 * 2 ^ 25) } 0 0; let x := s.rslotAt 255
    x.st = .opened ∧ x.first + cfgDeadline x.cfg ≤ s.fab.now ∧ x.dying = false ∧ x.holder ≠ none ∧ part.epoch = x.epoch ∧ treeParent x.tree < 24) := by decide +kernel
/-- A member of which region 0 protects the page at HBM address 0. -/
def protecting (f : Group → Group := id) (i : Input := .none) : State := group .opened 1 0 (fun x => f { x with regions := [⟨0, 0, [(0, 0)], 1, false, false⟩] }) i
theorem meets_RepairEvents_protected : protecting.grp.imageOff (32 * 3) ≠ none ∧ protecting.grp.serving = true ∧ protecting.grp.recast = false ∧ protecting.grp.asks = [] ∧ 32 * 3 < 0x9000000000 ∧
    2 ≤ (2 : BitVec 2).toNat ∧ 3 ∉ protecting.mems.hbm.poison := by decide +kernel
theorem meets_RoundEvents_joining : (group .none 1 0 ({ · with busy := true })).grp.busy = true ∧ (group .none 1 0 ({ · with busy := true })).grp.decision = none ∧
    (group .recovering 1 0 ({ · with decision := some (4, true, 0, some 6) })).grp.decision = some (4, true, 0, some 6) ∧ (group .opened 1 0 ({ · with decision := some (5, true, 0, none) })).grp.decision ≠ none ∧
    (5 : Word) = (group .opened 1 0).grp.round := by decide +kernel
/-- A would-be replacement, four frames after its JOIN. -/
def replacing : State := { group .none 2 0 (fun x => { x with busy := true, heard := (vrep 20 0).set 16 1 }) with fab := { onC.fab with frame := 5, id := 0x700000 } }
theorem meets_GroupEvents_more : replacing.unreplaced = true ∧ (group .opened 1 0).unreplaced = false ∧ (group .opened 1 0).slotAsk = none ∧ (group .lost 1 0).grp.st ≠ .none ∧ (0 : BitVec 5).toNat = (group .lost 1 0).grp.own := by decide +kernel
/-- A member of context 1 whose image is not rebuilt, with slot A in a protected page. -/
def unbuilt : State :=
  let s := mapped (protS .opened 0 1)
  { s with mems := { s.mems with hbm := ⟨s.mems.hbm.mem.writeN 0x40008 8 0x5001F, []⟩ }, grp := { s.grp with recast := true, pending := [0], regions := [⟨0, 0, [(0, 0)], 1, false, false⟩] } }
theorem meets_GroupEvents_ask : unbuilt.slotAsk = some 0 ∧ unbuilt.grp.role = 1 ∧ unbuilt.grp.st = .opened ∧ unbuilt.grp.expBusy = 0 := by decide +kernel
/-- Slot A of context 1 holds a shard of round 5: a table of one page and an image of 16 bytes. -/
def shard (i : Input) (busy : BitVec 2 := 0) : State :=
  let s := mapped (protS .opened 0 1)
  let m := ((((s.mems.hbm.mem.writeN 0 4 0x44485354).writeN 4 2 1).writeN 8 8 5).writeN 24 8 16).writeN 104 8 1
  inp { s with mems := { s.mems with hbm := ⟨m.writeN 0x1000 4 7, []⟩ }, grp := { s.grp with expBusy := busy, expB := 0x10000 } } i
def shardV : State := let s := shard (.restore 5 [(0, some 5, true)]) 2; { s with grp := { s.grp with expSlot := false } }
theorem meets_GroupEvents_restore : (let s := shard (.restore 5 []); s.grp.role = 1 ∧ s.grp.st = .opened ∧ s.grp.used = 0 ∧ s.grp.regions = [] ∧ s.grp.expBusy = 0 ∧ s.selectShard 5 = some (false, 5)) ∧
    (let s := shard (.restore 5 [(0, some 5, true)]) 2
     s.grp.expBusy = 2 ∧ (∀ y ∈ [((0 : Nat), some 5, true)], y.2.1 = some 5 ∧ y.2.2 = true) ∧ s.selectShard 5 = some (false, 5) ∧ (s.header false).isSome = true ∧ ((s.shardImage false).map (·.length)) = some 16) ∧
    ((shardV.header false).map (fun b => (Claims.shardTable shardV b).flatMap (·.pa))) = some [(0, 0)] ∧
    (∀ y ∈ [((0 : Nat), some 5, false)], y.2.1 = some 5) ∧ (∃ y ∈ [((0 : Nat), some 5, false)], y.2.2 = false) := by decide +kernel
theorem meets_GroupEvents_slot : shardV.header false = (shard (.restore 5 [(0, some 5, true)]) 2).header false ∧ shardV.shardImage false = (shard (.restore 5 [(0, some 5, true)]) 2).shardImage false := ⟨rfl, rfl⟩
theorem meets_HealthEvents_vmarg : (let o : Word := 0x20A00; -10 ≤ sextInt (wbits (0x0000A : Word) 0 8) 8 ∧ sextInt (wbits (0x0000A : Word) 0 8) 8 ≤ 10 ∧ wbits o 8 8 = 10 ∧ wbit o 17 = true ∧ 10 < sextInt (wbits (0x7F : Word) 0 8) 8) := by decide

/-! ## The object file and the assembler's values (R44, R50 to R54) -/

/-- An object with one text section of two bundles, LIH s5 and ADDI s5, s5, and the two relocations of R54's example. -/
def twoHalves : List Byte :=
  [0x43, 0x47, 0x4F, 0x42] ++ leBytes 4 1 ++ (leBytes 4 1 ++ leBytes 4 1 ++ leBytes 4 2 ++ leBytes 4 0) ++
  (leBytes 8 64 ++ leBytes 8 96 ++ leBytes 8 120 ++ leBytes 8 168 ++ leBytes 8 200) ++
  (leBytes 4 0 ++ [0, 4, 0, 0] ++ leBytes 8 32 ++ leBytes 8 168 ++ leBytes 8 0) ++
  (leBytes 4 0 ++ [0xFF, 0xFF, 1, 0] ++ leBytes 8 0x123456789 ++ leBytes 8 0) ++
  ([0, 0, 5, 0] ++ leBytes 4 0 ++ leBytes 8 0 ++ leBytes 8 0) ++ ([0, 0, 4, 0] ++ leBytes 4 0 ++ leBytes 8 16 ++ leBytes 8 0) ++
  bundleLine (some (.lih 5 0)) none none none ++ bundleLine (some (.addi 5 5 0)) none none none

/-- R54: for V = 0x1_2345_6789 the patched syllables are 0x1652_468B and 0x0852_E789. -/
theorem test_load_pair : (match loadObject twoHalves [0x1000] with
    | .ok l => l.sections.map (fun x => (x.1, leAt x.2 0 4, leAt x.2 16 4))
    | .error _ => []) = [(0x1000, 0x1652468B, 0x0852E789)] := by decide +kernel

/-- R55: the pair's first half alone is refused, with its symbol, section and offset. -/
theorem test_load_unpaired : (match loadObject (setAt twoHalves 146 1) [0x1000] with
    | .error e => e == .reloc 0 0 0
    | .ok _ => false) = true := by decide +kernel

/-- R44: `~0` is −1, which fits imm15; 0xFFFF_FFFF_FFFF_FFFF does not. -/
theorem test_expr_range :
    ((SrcExpr.not (.lit 0)).value []).bind (SrcPlace.imm15.fill 0) = some (.inl (-1)) ∧
    ((SrcExpr.lit 0xFFFFFFFFFFFFFFFF).value []).bind (SrcPlace.imm15.fill 0) = none := by decide +kernel

/-! ## Results that the spec works out or states -/

/-- The register `n` of the acting stream after a syllable that answered a next state. -/
def after (i : Instr) (s : State) (n : BitVec 5) : Option Word := match exec i s with | .next t => some (t.X n) | _ => none
def two (x y : Word) : State := reg (reg onC 1 x) 2 y
-- R65's listing: the constant 0x0123_4567_89AB_CDEF; and 0x1_2345_6789 as LIH and ADDI rebuild it (R54)
theorem test_lix : after (.lix 9 0xBCDEF) (reg onC 9 0x123456789A) 9 = some 0x0123456789ABCDEF := by decide +kernel
theorem test_lih_addi : after (.lih 5 0x2468B) onC 5 = some 0x123458000 ∧ after (.addi 5 5 (0 - 6263)) (reg onC 5 0x123458000) 5 = some 0x123456789 := by decide +kernel
-- R60 and R61: s0 discards; SHL takes y[5:0]; SAR rounds down
theorem test_s0_discards : after (.addi 0 0 7) onC 0 = some 0 := by decide +kernel
theorem test_shl : after (.shl 3 1 2) (two 1 64) 3 = some 1 ∧ after (.sar 3 1 2) (two (0 - 3) 1) 3 = some (0 - 2) := by decide +kernel
-- R62: division by zero and the overflow of -2^63 / -1
theorem test_div_zero : after (.div 3 1 2) (two 5 0) 3 = some (0 - 1) ∧ after (.rem 3 1 2) (two 5 0) 3 = some 5 := by decide +kernel
theorem test_div_overflow : after (.div 3 1 2) (two 0x8000000000000000 (0 - 1)) 3 = some 0x8000000000000000 ∧ after (.rem 3 1 2) (two 0x8000000000000000 (0 - 1)) 3 = some 0 := by decide +kernel
theorem test_rem_sign : after (.rem 3 1 2) (two (0 - 7) 2) 3 = some (0 - 1) ∧ after (.div 3 1 2) (two (0 - 7) 2) 3 = some (0 - 3) := by decide +kernel
theorem test_mulh : after (.mulh 3 1 2) (two (0 - 1) (0 - 1)) 3 = some 0 ∧ after (.mulhn 3 1 2) (two (0 - 1) (0 - 1)) 3 = some (0 - 2) := by decide +kernel
-- R63: bits above bit 63 read as 0
theorem test_bits : after (.clz 3 1) (two 0 0) 3 = some 64 ∧ after (.bext 3 1 63 15) (two (0 - 1) 0) 3 = some 1 := by decide +kernel
-- R64: a negative immediate is a large unsigned bound
theorem test_sltin : after (.sltin 3 1 0x7FFF) (two 5 0) 3 = some 1 ∧ after (.slti 3 1 0x7FFF) (two 5 0) 3 = some 0 := by decide +kernel
-- R66, R67: the target is PC + 16 · offset, and JAL links the next bundle
theorem test_beq : (match exec (.beq 0 0 3) (flow onC ({ · with pc := 0x100 })) with | .next t => some t.thr.flow.pc | _ => none) = some 0x130 := by decide +kernel
theorem test_jal : after (.jal 5 2) (flow onC ({ · with pc := 0x100 })) 5 = some 0x110 := by decide +kernel
-- R209's example: physical address 0x12_3456_7800
theorem test_stack : 0x1234567800 / 2048 = 38177487 ∧ stackOf 0x1234567800 = 3 ∧ dieOfStack 3 = 0 := by decide
-- R424's table and example
theorem test_parity_coefficients : gfCoef 1 0 = 0xA6 ∧ gfCoef 1 1 = 0x46 ∧ gfCoef 1 2 = 0xBB ∧ gfCoef 1 3 = 0x7B ∧ gfMul 0xA6 0x05 = 0x04 ∧ gfCoef 0 15 = 1 := by decide +kernel
-- R122's example, before firmware sets READY
theorem test_boot_stat : bootWord ⟨[], [], 3, 0x105, 0, 0, 0⟩ ⟨[], [], 4, 0x200, 0, 0, 5⟩ false = 0x0000005001050300 := by decide +kernel
-- The worked step of spec/14: rows 0 and 1 of S, and with RF the sums over the old state
theorem test_token_step : (fwRow false (fp32.decode 0x3F000000) (fp32.decode 0x3F000000) #[0x3F800000, 0x3F000000, 0, 0x3F800000] #[0x3F800000, 0x3F800000, 0x3F800000, 0x3F800000]
      #[0x3F000000, 0, 0xBF800000, 0x40000000] 0x3F800000) = (#[0x3E000000, 0xBD800000, 0xBF000000, 0x3F600000], 0x3EE00000, 0) ∧
    (fwRow true (fp32.decode 0x3F000000) (fp32.decode 0x3F000000) #[0x3F800000, 0x3F000000, 0, 0x3F800000] #[0x3F800000, 0x3F800000, 0x3F800000, 0x3F800000]
      #[0x3F000000, 0, 0xBF800000, 0x40000000] 0x3F800000).2.1 = 0x3FC00000 := by decide +kernel
-- FIPS 202's SHAKE256 of the empty string, its first four bytes
theorem test_shake : (shake [] 64).take 4 = [0x46, 0xB9, 0xDD, 0x2B] := by decide +kernel

/-! ## The checks of WellFormed, each refusing a term -/

theorem test_wf_slot : wf .c (.vadd 0 0 0 0 0 0) = false ∧ wf .l (.phase 2 0) = false ∧ wf .c .frameTick = false ∧ wf .w (.addi 1 1 1) = true := by decide
theorem test_wf_loops : wf .c (.loopImm 1 0) = false ∧ wf .l (.loopImm 1 257) = false ∧ wf .c (.loopReg 1 0) = false ∧ wf .s (.loopReg 1 512) = false := by decide
theorem test_wf_atomics : wf .c (.amadd 0 0 1 2 3 2 0) = false ∧ wf .c (.amldc 0 0 5 2 3 1 0) = false ∧ wf .c (.amldc 0 0 0 2 3 1 0) = false ∧ wf .c (.amldc 0 0 31 2 3 0 0) = true ∧ wf .c (.amst 0 0 1 2 3 0) = false := by decide
theorem test_wf_fences : wf .c (.xfence 0 0 6 0) = false ∧ wf .c (.xfence 0 0 0 7) = false ∧ wf .c (.phase 1 0) = false ∧ wf .c (.phase 7 0) = false := by decide
theorem test_wf_modes : wf .l (.vld 0 0 0 3 0) = false ∧ wf .l (.vldu 0 0 1 2 0) = false ∧ wf .l (.vlds 0 0 1 0 0 2) = false ∧ wf .l (.vldb 0 0 0 3 0 0) = false ∧ wf .l (.sldq 0 1 2 0 0 0) = false ∧
    wf .s (.vst 0 0 0 2 0) = false ∧ wf .s (.vstu 0 0 2 0) = false ∧ wf .s (.vsts 0 0 0 0 0 3) = false := by decide
theorem test_wf_copies : wf .l (.cpin 0 0 1 0 0 0 1) = false ∧ wf .l (.cpinb 0 0 1 0 0 0 1) = false ∧ wf .l (.gather 0 0 1 0 0 1) = false ∧ wf .l (.gather 0 0 0 0 2 0) = false ∧ wf .l (.pref 0 0 0 2 0) = false ∧
    wf .s (.wflush 0 1 1 0) = false := by decide
theorem test_wf_vectors : wf .w (.vbcast 0 0 0 12 0) = false ∧ wf .w (.vcvt 0 15 0 0 0 0 0) = false ∧ wf .w (.vcvt 0 9 3 0 0 15 0) = true ∧ wf .w (.vcvt 0 0 1 0 0 2 0) = false ∧ wf .w (.vquant 0 0 0 14 0) = false ∧
    wf .w (.vdequant 0 0 14 0 0) = false ∧ wf .w (.vred 0 0 0 0 9 0 0) = false ∧ wf .w (.vred 0 0 0 0 0 0 1) = false ∧ wf .w (.vgred 0 0 0 0 0 0 0 0) = false ∧ wf .w (.vgred 0 0 0 0 0 10 0 0) = false ∧
    wf .w (.vscan 0 0 0 0 3 0 0 1) = false := by decide
theorem test_wf_predicates : wf .w (.psetFirst 0 0 0 12) = false ∧ wf .w (.psetRange 0 0 0 12 0) = false ∧ wf .w (.psetRange 0 0 0 0 12) = false ∧ wf .w (.pcnt 0 0 8 0 0) = false ∧ wf .w (.pfirst 0 0 8 0 0) = false ∧
    wf .w (.pfirstLast 0 0 8 0 0) = false ∧ wf .w (.vmovwPtov 0 0 0 0 8) = false ∧ wf .w (.vmovwVtop 0 0 0 0 8) = false ∧ wf .w (.vmovwVtow 0 0 8 0) = false := by decide
theorem test_wf_blocks : wf .w (.aczero 0 1 63) = false ∧ wf .w (.acrd 0 63 1) = false ∧ wf .w (.acwr 0 1 63) = false ∧ wf .w (.acpin 0 0 0 1 63) = false ∧ wf .w (.acfree 0 1 63) = false ∧ wf .w (.acspill 0 1 63) = false ∧
    wf .w (.acfill 0 0 1 63) = false ∧ wf .w (.aczero 0 63 0) = true ∧ wf .w (.fwchunk 0 0 0) = false ∧ wf .w (.mremap 0 0 272 0 0) = false ∧ wf .w (.mshrink 0 0 510 0) = false ∧ wf .w (.mshrink 0 0 511 0) = true := by decide
theorem test_wf_events : wfEvent ⟨.addi 1 1 1, .none⟩ = false ∧ wfEvent ⟨.powerLoss, .rail 25⟩ = false ∧ wfEvent ⟨.linkDown, .port 24⟩ = false ∧ wfEvent ⟨.fabricLinkUp, .lanes 24 0⟩ = false ∧
    wfEvent ⟨.vmargWrite, .vmarg 24 0⟩ = false ∧ wfEvent ⟨.vmargSettled, .domain 24⟩ = false ∧ wfEvent ⟨.lossDeclare, .entry 20⟩ = false ∧ wfEvent ⟨.healthEvent, .health 130 0 0 0 0⟩ = false ∧
    wfEvent ⟨.healthEvent, .health 0 0 0 272 0⟩ = false ∧ wfEvent ⟨.ffReadInfield, .tile 130⟩ = false ∧ wfEvent ⟨.ffReadHealth, .block 0 65535 2⟩ = false ∧ wfEvent ⟨.launchReceive, .packet 0 0 0 0 [] ⟨0, 0, 0, 0⟩⟩ = false ∧
    wfEvent ⟨.remoteBarrierSignal, .signal ⟨0, 2, 130, 0⟩ none⟩ = false ∧ wfEvent ⟨.flitReceive, .flit 24 0 0 0 (.lost 0)⟩ = false ∧ wfEvent ⟨.reductionContribution, .contrib 24 part⟩ = false ∧
    wfEvent ⟨.linkMarginDone, .margin 24 0 0⟩ = false ∧ wfEvent ⟨.hostBar2Write, .bar2Size 11⟩ = false ∧ wfEvent ⟨.healthEvent, .assayed 130 0 []⟩ = false := by decide

/-! ## Decoding: one word of every row with an encoding, put together from the encoding tables -/

/-- Each word decodes in its slot to the instruction it stands for. -/
def decodesTo (l : List (Slot × Syl × Instr)) : Bool := l.all (fun r => decode r.1 r.2.1 == some r.2.2)

theorem test_decode_rows_1 :
    decodesTo [
      (.c, 0x00000000, .nop),
      (.c, 0x02BF9400, .add 11 31 5),
      (.c, 0x02DA8801, .sub 13 21 2),
      (.c, 0x023DC802, .andReg 3 27 18),
      (.c, 0x02464C03, .orReg 4 12 19),
      (.c, 0x022F4404, .xorReg 2 30 17),
      (.c, 0x02710C05, .shl 7 2 3),
      (.c, 0x02E70C06, .shr 14 14 3),
      (.c, 0x0281C807, .sar 8 3 18),
      (.c, 0x02E16C08, .slt 14 2 27),
      (.c, 0x03327C09, .sltn 19 4 31),
      (.c, 0x028AD40A, .minReg 8 21 21),
      (.c, 0x033F880B, .maxReg 19 31 2),
      (.c, 0x0339B40C, .minn 19 19 13),
      (.c, 0x0224080D, .maxn 2 8 2),
      (.c, 0x032E140E, .andn 18 28 5),
      (.c, 0x04A71400, .mul 10 14 5),
      (.c, 0x05224C01, .mulh 18 4 19),
      (.c, 0x04A96C02, .mulhn 10 18 27)] = true := by decide +kernel

theorem test_decode_rows_2 :
    decodesTo [
      (.c, 0x05631003, .div 22 6 4),
      (.c, 0x0539D404, .divn 19 19 21),
      (.c, 0x04761005, .rem 7 12 4),
      (.c, 0x052B8C06, .remn 18 23 3),
      (.c, 0x07310000, .clz 19 2),
      (.c, 0x07438400, .ctz 20 7),
      (.c, 0x070B0800, .popc 16 22),
      (.c, 0x07270C00, .brev 18 14),
      (.c, 0x079591EA, .bext 25 11 30 10),
      (.c, 0x09E7AE49, .addi 30 15 11849),
      (.c, 0x0AA465AF, .andi 10 8 26031),
      (.c, 0x0C6BE3D2, .ori 6 23 25554),
      (.c, 0x0E81C987, .xori 8 3 18823),
      (.c, 0x10A88020, .shli 10 17 32),
      (.c, 0x11D5806F, .shri 29 11 47),
      (.c, 0x10F500A7, .sari 15 10 39),
      (.c, 0x12324188, .slti 3 4 16776),
      (.c, 0x14E360EA, .sltin 14 6 24810),
      (.c, 0x16B26E88, .lih 11 159368)] = true := by decide +kernel

theorem test_decode_rows_3 :
    decodesTo [
      (.c, 0x19E7D2CB, .lix 30 512715),
      (.c, 0x20E17B24, .beq 14 2 31524),
      (.c, 0x2361E1DE, .bne 22 3 25054),
      (.c, 0x2529E502, .blt 18 19 25858),
      (.c, 0x27DDA829, .bge 29 27 10281),
      (.c, 0x28BBACD3, .bltn 11 23 11475),
      (.c, 0x2B484A3B, .bgen 20 16 19003),
      (.c, 0x2DA74C9E, .jal 26 478366),
      (.c, 0x2E3D8BFB, .jalr 3 27 3067),
      (.c, 0x300F8120, .loopReg 31 9),
      (.c, 0x32F2C009, .loopImm 15536 9),
      (.c, 0x34000000, .lexit),
      (.c, 0x416187C5, .ldb 22 3 1989),
      (.c, 0x438BA7A2, .ldbz 24 23 10146),
      (.c, 0x4559FF1E, .ldh 21 19 32542),
      (.c, 0x476DB90B, .ldhz 22 27 14603),
      (.c, 0x48ABB162, .ldw 10 23 12642),
      (.c, 0x4BDB2C6B, .ldwz 29 22 11371),
      (.c, 0x4C1FBB19, .ldd 1 31 15129)] = true := by decide +kernel

theorem test_decode_rows_4 :
    decodesTo [
      (.c, 0x50C34E33, .stb 12 6 20019),
      (.c, 0x5248078C, .sth 4 16 1932),
      (.c, 0x547CA4CB, .stw 7 25 9419),
      (.c, 0x565C1FB2, .std 5 24 8114),
      (.c, 0x58068000, .qpush 13),
      (.c, 0x5AD00000, .qpop 13),
      (.c, 0x61E00DF2, .csrr 30 3570),
      (.c, 0x610192AA, .csrw 16 3 682),
      (.c, 0x60F6A8CB, .csrs 15 13 2251),
      (.c, 0x609EB231, .csrc 9 29 561),
      (.c, 0x63A37C00, .userTrap 26847),
      (.c, 0x62000001, .tret),
      (.c, 0x62000002, .uiret),
      (.c, 0x62000003, .wfi),
      (.c, 0x62DC7004, .breakpt 14108),
      (.c, 0x62000005, .exitThread),
      (.c, 0x81BBB988, .amadd 3 3 23 14 12 1 0),
      (.c, 0x82931500, .ammin 1 1 6 5 8 0 0),
      (.c, 0x83799924, .amminn 2 7 19 6 9 0 0)] = true := by decide +kernel

theorem test_decode_rows_5 :
    decodesTo [
      (.c, 0x85565260, .ammax 2 5 12 20 19 0 0),
      (.c, 0x857CFF8E, .ammaxn 2 7 25 31 28 1 1),
      (.c, 0x874242A0, .amand 2 4 4 16 21 0 0),
      (.c, 0x88A79880, .amor 1 2 15 6 4 0 0),
      (.c, 0x8AD2C880, .amxor 1 5 5 18 4 0 0),
      (.c, 0x8CD696AA, .amswap 1 5 13 5 21 1 1),
      (.c, 0x8F12720A, .amcas 2 1 4 28 16 1 1),
      (.c, 0x9112930A, .amfaddc 2 1 5 4 24 1 1),
      (.c, 0x93A304E8, .amldc 3 2 6 1 7 1 0),
      (.c, 0x95DF0728, .amld 3 5 30 1 25 1 0),
      (.c, 0x97F02622, .amst 3 7 9 17 0 1),
      (.c, 0xA1944801, .tbinit 25 8 18 1),
      (.c, 0xA3540000, .tbjoin 21 8),
      (.c, 0xA54D6800, .tbarrive 20 26 26),
      (.c, 0xA60CF000, .tbexpect 25 28),
      (.c, 0xA87D2000, .tbwait 7 26 8),
      (.c, 0xAA0D8000, .tbdrop 27),
      (.c, 0xACDC0000, .tbpoll 13 24 0),
      (.c, 0xB0D00000, .fence 1 5)] = true := by decide +kernel

theorem test_decode_rows_6 :
    decodesTo [
      (.c, 0xB3308000, .xfence 2 3 0 2),
      (.c, 0xB5C48000, .phase 4 9),
      (.c, 0xC003DE80, .shuf 7 23 20),
      (.c, 0xC80F8000, .segbegin 31),
      (.c, 0xCAC7E800, .segend 12 15 26),
      (.c, 0xCDEC0000, .cropen 30 24),
      (.c, 0xCEC00000, .crclose 12),
      (.c, 0xD1F60C0F, .prot 31 12 3 15),
      (.c, 0xD2000007, .unprot 7),
      (.c, 0xD4800000, .rndprep 8),
      (.c, 0xD7000000, .rndcommit 16),
      (.c, 0xD8700000, .rndabort 7),
      (.c, 0xDAB00000, .rndstat 11 0),
      (.c, 0xE10A7400, .rslot 16 20 29),
      (.c, 0xE34D8400, .rred 20 27 1),
      (.c, 0xE50F5400, .rwait 16 30 21),
      (.c, 0xE6060000, .rfree 12),
      (.c, 0xE9AA8C00, .launch 26 21 3),
      (.c, 0xEBBB0008, .winbind 27 22 8)] = true := by decide +kernel

theorem test_decode_rows_7 :
    decodesTo [
      (.c, 0xEBE00059, .winbindUnbind 30 25),
      (.l, 0xE819D7A7, .vld 13 12 7 1 1959),
      (.l, 0xF8271552, .vldu 15 3 4 1 1362),
      (.l, 0x905BA480, .vlds 2 13 6 4 2 1),
      (.l, 0xE08597F9, .vldb 12 2 6 1 1 1017),
      (.l, 0x98A05F9D, .sldq 3 1 1 3 1 413),
      (.s, 0xD8075FB0, .vst 11 3 5 1 4016),
      (.s, 0xC03F927F, .vstu 8 6 1 639),
      (.s, 0xC8528A80, .vsts 9 9 2 1 1 1),
      (.l, 0xD906E500, .cpin 11 1 5 6 2 1 0),
      (.l, 0xF13D1600, .cpinb 14 7 2 1 3 0 0),
      (.l, 0xC94B8A40, .gather 9 2 7 5 1 0),
      (.l, 0xC9620080, .wrset 9 4 1),
      (.l, 0x899D2180, .wradv 1 932 3),
      (.l, 0xB1A25BA2, .pref 6 4 11 1 418),
      (.s, 0xF9167A00, .cpout 15 5 4 7 5 0),
      (.s, 0xC92AD300, .cploc 9 2 5 5 1 1),
      (.s, 0xE94A8200, .scatter 13 2 5 1),
      (.s, 0xE97D2500, .cprem 13 7 2 2 2 1)] = true := by decide +kernel

theorem test_decode_rows_8 :
    decodesTo [
      (.s, 0xD1978000, .wflush 10 47 0 0),
      (.w, 0xB01A6660, .vadd 6 6 9 9 9 8),
      (.w, 0xE83CBE44, .vsub 13 7 2 15 9 1),
      (.w, 0xA0494748, .vmul 4 2 5 1 13 2),
      (.w, 0xC872477C, .vmulh 9 4 9 1 13 15),
      (.w, 0xF8661AA5, .vmulhn 15 1 8 6 10 9),
      (.w, 0xD0953160, .vmin 10 5 4 12 5 8),
      (.w, 0xC8976251, .vminn 9 5 13 8 9 4),
      (.w, 0xE0B7FFD4, .vmax 12 5 15 15 15 5),
      (.w, 0xF8B7D3A1, .vmaxn 15 5 15 4 14 8),
      (.w, 0x98D09E18, .vand 3 4 2 7 8 6),
      (.w, 0x90F91C90, .vor 2 6 4 7 2 4),
      (.w, 0xD90F4BF4, .vxor 11 3 13 2 15 13),
      (.w, 0x993AED8C, .vshl 3 6 11 11 6 3),
      (.w, 0xA94A1308, .vshr 5 2 8 4 12 2),
      (.w, 0xB950EF91, .vsar 7 4 3 11 14 4),
      (.w, 0x9979E5D8, .vfshl 3 6 7 9 7 6),
      (.w, 0xB96998B1, .vfshr 7 2 6 6 2 12),
      (.w, 0xB185A420, .vclz 6 1 6 9 8)] = true := by decide +kernel

theorem test_decode_rows_9 :
    decodesTo [
      (.w, 0xC1B85C18, .vpopc 8 6 1 7 6),
      (.w, 0xC9D56488, .vadds 9 5 5 9 2 2),
      (.w, 0xF9DD3C89, .vaddsn 15 7 4 15 2 2),
      (.w, 0xA9EC7F4C, .vsubs 5 3 1 15 13 3),
      (.w, 0xA9FCF9F9, .vsubsn 5 7 3 14 7 14),
      (.w, 0xFA1B941C, .vabs 15 6 14 5 7),
      (.w, 0x9A17E429, .vabss 3 5 15 9 10),
      (.w, 0xC2398947, .vcmp 8 6 6 2 5 1 3),
      (.w, 0x9A53C947, .vcmpn 3 4 15 2 5 1 3),
      (.w, 0x927D4AB8, .vsel 2 7 5 2 10 14),
      (.w, 0xA2857882, .vaddi 4 1 5 14 32 2),
      (.w, 0x8AAE5CF2, .vshli 1 3 9 7 60 2),
      (.w, 0xD2A865B9, .vshri 10 2 1 9 46 1),
      (.w, 0x92A94631, .vsari 2 2 5 1 12 1),
      (.w, 0xFACEEC24, .vbcast 15 3 11 11 9),
      (.w, 0xEAC96025, .vbcastVec 13 2 5 8 9),
      (.w, 0xDAE94018, .viota 11 2 5 6),
      (.w, 0xEAE54005, .viotaRank 13 1 5 1),
      (.w, 0x8B072653, .vfadd 1 1 12 9 9 4 3)] = true := by decide +kernel

theorem test_decode_rows_10 :
    decodesTo [
      (.w, 0xC32BE0AF, .vfsub 8 2 15 8 2 11 3),
      (.w, 0xBB5A27BE, .vfmul 7 6 8 9 14 15 2),
      (.w, 0xCB6F1119, .vfma 9 3 12 4 4 6 1),
      (.w, 0xF39B2CDD, .vfmin 14 6 12 11 3 7 1),
      (.w, 0x8BBCC4AD, .vfmax 1 7 3 1 2 11 1),
      (.w, 0xBBC84AFA, .vfdiv 7 2 1 2 11 14 2),
      (.w, 0xF3F6D429, .vfsqrt 14 5 11 5 10 1),
      (.w, 0xE40C600D, .vfrsqrt 12 3 1 8 3 1),
      (.w, 0xAC30541A, .vfexp2 5 4 1 5 6 2),
      (.w, 0xCC4D043E, .vflog2 9 3 4 1 15 2),
      (.w, 0xA46CC59D, .vfcmp 4 3 3 1 6 7 1),
      (.w, 0xC48E6C10, .vfabs 8 3 9 11 4),
      (.w, 0xA4974409, .vfneg 4 5 13 1 2),
      (.w, 0xACBC8C1C, .vfclass 5 7 2 3 7),
      (.w, 0xD4CE82A4, .vcvt 10 7 4 1 5 2 0),
      (.w, 0x94F67000, .vquant 2 5 9 12 0),
      (.w, 0xDD1B3C01, .vdequant 11 6 12 15 1),
      (.w, 0xED4F2214, .vred 13 3 12 8 8 5 0),
      (.w, 0x8D7FB226, .vgred 1 7 14 12 8 9 1 0)] = true := by decide +kernel

theorem test_decode_rows_11 :
    decodesTo [
      (.w, 0xFD976638, .vscan 15 5 13 9 8 14 0 0),
      (.w, 0x95A44ED8, .vslideup 2 1 1 3 11 6 0),
      (.w, 0xBDBE246D, .vslidedn 7 7 8 9 1 11 0),
      (.w, 0xDDD6D214, .vperm 11 5 11 4 8 5 0),
      (.w, 0xC5FCB3E4, .vziplo 8 7 2 12 15 9),
      (.w, 0xFDF4AE49, .vziphi 15 5 2 11 9 2),
      (.w, 0xE5FA174A, .vunzipe 12 6 8 5 13 2),
      (.w, 0xF5ED3353, .vunzipo 14 3 4 12 13 4),
      (.w, 0xA61AE021, .vcompress 4 6 11 8 8 1),
      (.w, 0x9633EC14, .vexpand 2 4 15 11 5 0),
      (.w, 0xD65AD080, .plogic 10 6 11 4 2),
      (.w, 0xD6698108, .psetFirsti 10 2 6 66),
      (.w, 0xDE7B2C01, .psetFirst 11 6 12 11),
      (.w, 0xD674E80E, .psetRange 10 5 3 10 3),
      (.w, 0x8E916C08, .pcnt 1 4 5 11 2),
      (.w, 0xE6A96014, .pfirst 12 2 5 8 5),
      (.w, 0xE6B56021, .pfirstLast 12 5 5 8 8),
      (.w, 0xC6DCBD80, .vmovwPtov 8 7 2 15 6),
      (.w, 0xA6CCBD81, .vmovwVtop 4 3 2 15 6)] = true := by decide +kernel

theorem test_decode_rows_12 :
    decodesTo [
      (.w, 0x8ECD8802, .vmovwVtow 1 3 6 2),
      (.w, 0xF7026001, .mgo 14 9 4 1),
      (.w, 0xBF211014, .mgog 7 4 2 5 0),
      (.w, 0x9F588959, .mouter 3 6 34 5 6 0 1),
      (.w, 0xFF64B993, .mvec 15 1 46 6 4 1 1),
      (.w, 0xBF8003F0, .aczero 7 3 60),
      (.w, 0x8F8003F1, .acrd 1 3 60),
      (.w, 0xDF8003F2, .acwr 11 3 60),
      (.w, 0xAFAC83F0, .acpin 5 6 2 3 60),
      (.w, 0xBFA003F1, .acfree 7 3 60),
      (.w, 0xF7A003F2, .acspill 14 3 60),
      (.w, 0xB7A1C3F3, .acfill 6 7 3 60),
      (.w, 0xBFC00004, .fwstep 7 1),
      (.w, 0xFFC00371, .fwchunk 15 13 12),
      (.w, 0x8FE03018, .assay 1 6 1 2),
      (.w, 0xB7E050F9, .mremap 6 1 271 1 0),
      (.w, 0xB7E11FFA, .mshrink 6 4 511 1)] = true := by decide +kernel


end Sys2Proof.Tests
end

section
/-! PROOFS. The two syllables that R17 fixes in every slot. -/

namespace Sys2Proof.Proofs.Word

open Sys2Proof Sys2Proof.Laws

/-- NOP is of the control subset and has no field, so every slot admits it. -/
theorem wf_nop (sl : Slot) : wf sl .nop = true := rfl

theorem encode_nop : encode .nop = 0 := rfl

theorem decode_zero (sl : Slot) : decode sl 0 = some .nop :=
  calc decode sl 0
    _ = decodeNat sl (encode .nop) := by rw [encode_nop]; rfl
    _ = some .nop := Enc.nop.2 sl (wf_nop sl)

theorem decode_eq_none_of_decodeRaw {sl : Slot} {w : Syl} (h : decodeRaw sl w.toNat = none) : decode sl w = none := by
  simp only [decode, decodeNat, h]

/-- Half bit 1 chooses the slot's own space (R22), where the opcode 63 is unlisted for C (R31), L and S (R32); for W (R33) it is listed, and the low bits 3 are none of its rows. -/
theorem decodeRaw_ones (sl : Slot) : decodeRaw sl 0xFFFFFFFF = none := by
  have half : bits 0xFFFFFFFF 31 1 = 1 := by decide
  have opC : bits 0xFFFFFFFF 25 6 = 63 := by decide
  have opEngine : bits 0xFFFFFFFF 21 6 = 63 := by decide
  have low2 : bits 0xFFFFFFFF 0 2 = 3 := by decide
  have low3 : bits 0xFFFFFFFF 0 3 = 7 := by decide
  cases sl with
  | c => simp [decodeRaw, half, decodeC, opC]
  | l => simp [decodeRaw, half, decodeL, opEngine]
  | w => simp [decodeRaw, half, Enc.wPriv_63 opEngine, low2, low3]
  | s => simp [decodeRaw, half, decodeS, opEngine]

/-- Settles O3: zero is the word of NOP, by the round trip of its encoding; all ones is in no slot's table. -/
theorem nopAndIll : Obligations.NopAndIll := fun sl =>
  ⟨decode_zero sl, decode_eq_none_of_decodeRaw (decodeRaw_ones sl)⟩

end Sys2Proof.Proofs.Word
end

section
/-! PROOFS. The register operations of the control subset: ALU and MULDIV, BITS, the immediates, LIH and LIX. -/

namespace Sys2Proof.Proofs.RegisterOps

open Sys2Proof Sys2Proof.Machine

/-! ## Words of numbers -/

theorem wofInt_eq_ofInt (i : Int) : wofInt i = BitVec.ofInt 64 i := by
  apply BitVec.eq_of_toNat_eq
  simp only [wofInt, truncInt, BitVec.toNat_ofNat, BitVec.toNat_ofInt]
  omega

theorem wofInt_toInt (x : Word) : wofInt x.toInt = x := by
  rw [wofInt_eq_ofInt, BitVec.ofInt_toInt]

theorem wofNat_toNat (x : Word) : wofNat x.toNat = x := by
  rw [wofNat, BitVec.ofNat_toNat, BitVec.setWidth_eq]

/-! ## The functions of R61 and R62 -/

theorem sshiftRight_eq_floor (x : Word) (n : Nat) : x.sshiftRight n = BitVec.ofInt 64 (x.toInt / 2 ^ n) := by
  rw [BitVec.sshiftRight_eq, Int.shiftRight_eq_div_pow]
  norm_cast

theorem aluSlt_eq (x y : Word) : aluSlt x y = if x.slt y then 1 else 0 := by
  simp only [aluSlt, wofBool, BitVec.slt_eq_decide]

theorem aluSltn_eq (x y : Word) : aluSltn x y = if x.ult y then 1 else 0 := by
  simp only [aluSltn, wofBool, BitVec.ult_eq_decide]

theorem aluMin_eq (x y : Word) : aluMin x y = if y.slt x then y else x := by
  simp only [aluMin, BitVec.slt_iff_toInt_lt, ← Int.not_lt, ite_not]

theorem aluMinn_eq (x y : Word) : aluMinn x y = if y.ult x then y else x := by
  simp only [aluMinn, BitVec.ult_iff_toNat_lt, ← Nat.not_lt, ite_not]

/-- Two conditions that agree on different words choose the same word. -/
theorem ite_eq_ite_of_iff {p q : Prop} [Decidable p] [Decidable q] {x y : Word} (agree : x ≠ y → (p ↔ q)) : (if p then y else x) = if q then y else x := by
  by_cases eq : x = y
  · rw [eq, ite_self, ite_self]
  · simp only [agree eq]

/-- Where the two compare equal they are the same, so that the maximum may be either (R61). -/
theorem aluMax_eq (x y : Word) : aluMax x y = if x.slt y then y else x := by
  refine ite_eq_ite_of_iff fun ne => ?_
  have apart := mt BitVec.eq_of_toInt_eq ne
  rw [BitVec.slt_iff_toInt_lt]
  omega

theorem aluMaxn_eq (x y : Word) : aluMaxn x y = if x.ult y then y else x := by
  refine ite_eq_ite_of_iff fun ne => ?_
  have apart := mt BitVec.eq_of_toNat_eq ne
  rw [BitVec.ult_iff_toNat_lt]
  omega

theorem mulHigh_eq (x y : Word) : mulHigh x y = BitVec.ofInt 64 (x.toInt * y.toInt / 2 ^ 64) := wofInt_eq_ofInt _

/-- −2^63 / −1 is out of range, and both sides wrap it to −2^63 (R62). -/
theorem wofInt_tdiv (x y : Word) : wofInt (x.toInt.tdiv y.toInt) = x.sdiv y := by
  rw [wofInt_eq_ofInt, ← BitVec.toInt_inj, BitVec.toInt_ofInt, BitVec.toInt_sdiv]

theorem divS_eq (x y : Word) : divS x y = if y = 0 then BitVec.allOnes 64 else x.sdiv y := by
  rw [divS, wofInt_tdiv]

theorem divN_eq (x y : Word) : divN x y = if y = 0 then BitVec.allOnes 64 else x / y := by
  rw [divN, ← BitVec.toNat_udiv, wofNat_toNat]

theorem remS_eq (x y : Word) : remS x y = x.srem y := by
  unfold remS
  split
  next zero => rw [zero]; exact BitVec.srem_zero.symm
  next => rw [← BitVec.toInt_srem, wofInt_toInt]

theorem remN_eq (x y : Word) : remN x y = x % y := by
  unfold remN
  split
  next zero => rw [zero]; exact BitVec.umod_zero.symm
  next => rw [← BitVec.toNat_umod, wofNat_toNat]

/-! ## The functions of R63 -/

theorem clzNat_spec {n x : Nat} (lt : x < 2 ^ n) : clzNat n x ≤ n ∧ x < 2 ^ (n - clzNat n x) ∧ (clzNat n x < n → 2 ^ (n - 1 - clzNat n x) ≤ x) := by
  by_cases zero : x = 0
  · simp [clzNat, zero]
  · have top : x.log2 < n := (Nat.log2_lt zero).2 lt
    have width : n - clzNat n x = x.log2 + 1 := by simp only [clzNat, if_neg zero]; omega
    have exp : n - 1 - clzNat n x = x.log2 := by omega
    rw [width, exp]
    exact ⟨by omega, Nat.lt_log2_self, fun _ => Nat.log2_self_le zero⟩

theorem ctzNat_spec (n x : Nat) : ctzNat n x ≤ n ∧ x % 2 ^ ctzNat n x = 0 ∧ (ctzNat n x < n → x.testBit (ctzNat n x) = true) := by
  induction n generalizing x with
  | zero => simp [ctzNat, Nat.mod_one]
  | succ n ih =>
    by_cases odd : x % 2 = 1
    · simp [ctzNat, odd, Nat.mod_one]
    · obtain ⟨le, low, bit⟩ := ih (x / 2)
      simp only [ctzNat, if_neg odd, Nat.add_comm 1]
      refine ⟨by omega, ?_, fun lt => ?_⟩
      · rw [Nat.pow_succ', Nat.mod_mul, low]
        omega
      · rw [Nat.testBit_succ]
        exact bit (by omega)

theorem popNat_eq_countP (n x : Nat) : popNat n x = (List.range n).countP x.testBit := by
  induction n generalizing x with
  | zero => rfl
  | succ n ih =>
    have shifted : x.testBit ∘ Nat.succ = (x / 2).testBit := funext (Nat.testBit_succ x)
    rw [popNat, ih, List.range_succ_eq_map, List.countP_cons, List.countP_map, shifted, Nat.testBit_zero, Nat.add_comm]
    rcases Nat.mod_two_eq_zero_or_one x with even | odd
    · simp [even]
    · simp [odd]

theorem revNat_lt (n x : Nat) : revNat n x < 2 ^ n := by
  induction n generalizing x with
  | zero => simp [revNat]
  | succ n ih =>
    have rest := ih (x / 2)
    rcases Nat.mod_two_eq_zero_or_one x with even | odd
    · simp only [revNat, even]; omega
    · simp only [revNat, odd]; omega

theorem testBit_revNat {n x i : Nat} (lt : i < n) : (revNat n x).testBit i = x.testBit (n - 1 - i) := by
  induction n generalizing x with
  | zero => omega
  | succ n ih =>
    rw [revNat, Nat.mul_comm, Nat.testBit_two_pow_mul_add _ (revNat_lt n _)]
    by_cases low : i < n
    · have pos : n + 1 - 1 - i = (n - 1 - i) + 1 := by omega
      rw [if_pos low, ih low, pos, Nat.testBit_succ]
    · have top : i = n := by omega
      simp [top]

theorem getLsbD_revNat (x : Word) {i : Nat} (lt : i < 64) : (wofNat (revNat 64 x.toNat)).getLsbD i = x.getLsbD (63 - i) := by
  rw [wofNat, BitVec.getLsbD_ofNat, testBit_revNat lt, BitVec.testBit_toNat]
  simp [lt]

/-- A field of at most 16 bits lies within the word, so that no bit of it is lost. -/
theorem getLsbD_wbits (x : Word) (pos : Nat) (len : BitVec 4) (i : Nat) :
    (wofNat (wbits x pos (len.toNat + 1))).getLsbD i = (decide (i ≤ len.toNat) && x.getLsbD (pos + i)) := by
  rw [wofNat, wbits, BitVec.getLsbD_ofNat, Nat.testBit_mod_two_pow, Nat.testBit_div_two_pow, BitVec.testBit_toNat, Nat.add_comm i pos]
  by_cases inside : i ≤ len.toNat
  · have within : i < 64 := by omega
    simp [inside, within, Nat.lt_succ_of_le inside]
  · have outside : ¬ i < len.toNat + 1 := by omega
    simp only [inside, outside, decide_false, Bool.false_and, Bool.and_false]

/-! ## The constants of R65 -/

theorem sx_shiftLeft {n : Nat} (i : BitVec n) (k : Nat) : sx i <<< k = BitVec.ofInt 64 (i.toInt * 2 ^ k) := by
  have two_pow : BitVec.ofInt 64 (2 ^ k) = BitVec.twoPow 64 k :=
    calc BitVec.ofInt 64 (2 ^ k)
      _ = BitVec.ofNat 64 (2 ^ k) := mod_cast BitVec.ofInt_natCast 64 (2 ^ k)
      _ = BitVec.twoPow 64 k := BitVec.eq_of_toNat_eq (by simp)
  rw [BitVec.shiftLeft_eq_mul_twoPow, BitVec.ofInt_mul, two_pow, sx, BitVec.signExtend]

theorem shiftLeft_add_zx {n : Nat} (x : Word) (i : BitVec n) : (x <<< 20) + zx i = BitVec.ofNat 64 (x.toNat * 2 ^ 20 + i.toNat) := by
  apply BitVec.eq_of_toNat_eq
  simp [zx, Nat.shiftLeft_eq]

/-! ## The register forms: a syllable that computes one word completes -/

section

variable {i : Instr} {d a b : BitVec 5} {v : Word} {s : State}

theorem exec_regReg (f : Word → Word → Word) (run : exec i s = finish s (regReg d a b f)) (val : f (s.X a) (s.X b) = v) :
    exec i s = .next (s.regDone [a, b] d v) := by
  rw [run, finish_ok (regReg_eq d a b f s), val]

theorem exec_regOne (f : Word → Word) (run : exec i s = finish s (regOne d a f)) (val : f (s.X a) = v) : exec i s = .next (s.regDone [a] d v) := by
  rw [run, finish_ok (regOne_eq d a f s), val]

end

/-- What a syllable leaves that reads no register and writes one. -/
theorem setRes_W (d : BitVec 5) (v : Word) (s : State) : (s.setRes .done).W d v = s.regDone [] d v := by
  simp only [State.W, State.warnIf_eq, State.regDone, State.setRes_modThr, State.modThr_modThr, State.setRes_slot, List.any_nil, Bool.or_false]

theorem exec_lih (s : State) (d : BitVec 5) (i : BitVec 20) : exec (.lih d i) s = .next (s.regDone [] d (BitVec.ofInt 64 (i.toInt * 2 ^ 15))) :=
  calc exec (.lih d i) s
    _ = .next ((s.setRes .done).W d (sx i <<< 15)) := finish_ok (b := fun s => .ok (s.W d (sx i <<< 15))) rfl
    _ = .next (s.regDone [] d (BitVec.ofInt 64 (i.toInt * 2 ^ 15))) := by rw [setRes_W, sx_shiftLeft]

/-! ## The obligations -/

/-- Settles O5: each is a register form with two sources, and the model's function is the one that the statement gives. -/
theorem aluAndMuldiv : Obligations.AluAndMuldiv := by
  simp only [Obligations.AluAndMuldiv, Claims.regReg, List.forall_mem_cons, List.not_mem_nil, false_implies, implies_true, and_true]
  refine ⟨?add, ?sub, ?and, ?or, ?xor, ?shl, ?shr, ?sar, ?slt, ?sltn, ?min, ?max, ?minn, ?maxn, ?andn, ?mul, ?mulh, ?mulhn, ?div, ?divn, ?rem, ?remn⟩ <;> intro s d a b
  case add => exact exec_regReg (· + ·) rfl rfl
  case sub => exact exec_regReg (· - ·) rfl rfl
  case and => exact exec_regReg (· &&& ·) rfl rfl
  case or => exact exec_regReg (· ||| ·) rfl rfl
  case xor => exact exec_regReg (· ^^^ ·) rfl rfl
  case shl => exact exec_regReg (fun x y => x <<< shiftAmount y) rfl rfl
  case shr => exact exec_regReg (fun x y => x >>> shiftAmount y) rfl rfl
  case sar => exact exec_regReg (fun x y => x.sshiftRight (shiftAmount y)) rfl (sshiftRight_eq_floor _ _)
  case slt => exact exec_regReg aluSlt rfl (aluSlt_eq _ _)
  case sltn => exact exec_regReg aluSltn rfl (aluSltn_eq _ _)
  case min => exact exec_regReg aluMin rfl (aluMin_eq _ _)
  case max => exact exec_regReg aluMax rfl (aluMax_eq _ _)
  case minn => exact exec_regReg aluMinn rfl (aluMinn_eq _ _)
  case maxn => exact exec_regReg aluMaxn rfl (aluMaxn_eq _ _)
  case andn => exact exec_regReg (fun x y => x &&& ~~~y) rfl rfl
  case mul => exact exec_regReg (· * ·) rfl rfl
  case mulh => exact exec_regReg mulHigh rfl (mulHigh_eq _ _)
  case mulhn => exact exec_regReg mulHighN rfl rfl
  case div => exact exec_regReg divS rfl (divS_eq _ _)
  case divn => exact exec_regReg divN rfl (divN_eq _ _)
  case rem => exact exec_regReg remS rfl (remS_eq _ _)
  case remn => exact exec_regReg remN rfl (remN_eq _ _)

/-- Settles O6: each is a register form with one source, whose function is said by the places of the operand's bits. -/
theorem bitOperations : Obligations.BitOperations := by
  intro s d a x
  refine ⟨?clz, ?ctz, ?popc, ?brev, fun pos len => ?bext⟩
  case clz => exact ⟨clzNat 64 x.toNat, exec_regOne (fun x => wofNat (clzNat 64 x.toNat)) rfl rfl, clzNat_spec x.isLt⟩
  case ctz => exact ⟨ctzNat 64 x.toNat, exec_regOne (fun x => wofNat (ctzNat 64 x.toNat)) rfl rfl, ctzNat_spec 64 x.toNat⟩
  case popc => exact exec_regOne (fun x => wofNat (popNat 64 x.toNat)) rfl (congrArg wofNat (popNat_eq_countP 64 x.toNat))
  case brev => exact ⟨_, exec_regOne (fun x => wofNat (revNat 64 x.toNat)) rfl rfl, fun _ lt => getLsbD_revNat x lt⟩
  case bext => exact ⟨_, exec_regOne (fun x => wofNat (wbits x pos.toNat (len.toNat + 1))) rfl rfl, getLsbD_wbits x pos.toNat len⟩

/-- Settles O7: each but LIH and NOP is a register form with one source; the source of LIX is its destination. -/
theorem immediates : Obligations.Immediates := by
  simp only [Obligations.Immediates, Claims.regImm, Claims.regShift, List.forall_mem_cons, List.not_mem_nil, false_implies, implies_true, and_true]
  refine ⟨⟨?addi, ?andi, ?ori, ?xori, ?slti, ?sltin⟩, ⟨?shli, ?shri, ?sari⟩, ?lih, ?lix, ?nop⟩
  case addi => exact fun s d a i => exec_regOne (fun x => x + sx i) rfl rfl
  case andi => exact fun s d a i => exec_regOne (fun x => x &&& sx i) rfl rfl
  case ori => exact fun s d a i => exec_regOne (fun x => x ||| zx i) rfl rfl
  case xori => exact fun s d a i => exec_regOne (fun x => x ^^^ zx i) rfl rfl
  case slti => exact fun s d a i => exec_regOne (fun x => aluSlt x (sx i)) rfl (aluSlt_eq _ _)
  case sltin => exact fun s d a i => exec_regOne (fun x => aluSltn x (sx i)) rfl (aluSltn_eq _ _)
  case shli => exact fun s d a n => exec_regOne (fun x => x <<< n.toNat) rfl rfl
  case shri => exact fun s d a n => exec_regOne (fun x => x >>> n.toNat) rfl rfl
  case sari => exact fun s d a n => exec_regOne (fun x => x.sshiftRight n.toNat) rfl (sshiftRight_eq_floor _ _)
  case lih => exact exec_lih
  case lix => exact fun s d i => exec_regOne (fun x => (x <<< 20) + zx i) rfl (shiftLeft_add_zx (s.X d) i)
  case nop => exact fun s => finish_ok rfl

end Sys2Proof.Proofs.RegisterOps
end
